-- ==== Sys2Proof/Word.lean ====
section
/-! DEFINITION. The word types of the SL8240 model: bytes, the 32-bit words of the Forager cores, the
wire fields of BDP and the byte strings of messages (00_scope.md, Table 0.4). Arithmetic stands in
Sys2Proof/Machine/Arith.lean. -/

namespace Sys2Proof

/-- One byte of a message, a payload or a DOMAIN value. -/
abbrev Byte := BitVec 8

/-- One 32-bit word of a Forager core (R242) or of an IPv4 address. -/
abbrev W32 := BitVec 32

/-- A string of bytes in the order in which it travels (R5). -/
abbrev Bytes := List Byte

end Sys2Proof
end

