-- ==== Sys2Proof/Syntax.lean ====
section
/-! DEFINITION. The commands of the SL8240 as a block: one constructor of `Instr` per row of
spec/opcode_table.json, with the operands a command carries in from outside. An operand is a field of
the message, a level or stamp at a ball, a measured sample, or the outcome of a self-test; everything
else a command needs it takes from the state. -/

namespace Sys2Proof

/-- The two routes (R23). -/
inductive Route where
  | a | b
  deriving DecidableEq, Repr

/-- The two control ports (R317). -/
inductive NetPort where
  | net0 | net1
  deriving DecidableEq, Repr

/-- A port that holds an IPv4 address (R291, Table 12.7). -/
inductive IpPort where
  | net (n : NetPort)
  | dx (link : Fin 2)
  deriving DecidableEq, Repr

/-- The two Keepers (R459). -/
inductive Keeper where
  | a | b
  deriving DecidableEq, Repr

/-- Where a datagram came from: the link it arrived on, its source address and port (R317). -/
structure Peer where
  net : NetPort
  ip : W32
  port : BitVec 16
  deriving DecidableEq, Repr

/-- What every authenticated BDP request carries beside its body (Table 12.2, R325). -/
structure Req where
  peer : Peer
  session : W32
  seq : W32
  mac : Bytes
  deriving DecidableEq, Repr

/-- The transport over which a write arrived: a BDP WRITE, or an SDO download (R313, R331). -/
inductive Via where
  | bdp (r : Req)
  | can
  deriving DecidableEq, Repr

/-- One fragment of a WRITE_BLOCK (Table 12.3). -/
structure Fragment where
  last : Bool
  first : Bool
  off : W32
  total : W32
  data : Bytes
  deriving DecidableEq, Repr

/-- A correction set of one range and polarisation (Table 4.5); skew in 0.25 ps. -/
structure CorrSet where
  offsetI : Int
  offsetQ : Int
  gainI : Nat
  gainQ : Nat
  cross : Int
  skew : Int
  deriving DecidableEq, Repr

/-- What a foreground run measures of one polarisation (R125): offsets, the gains k_ii and k_qq from the tone amplitudes and their ratio,
and the phase imbalance of the inner and the outer band in 2^-32 turns. -/
structure ToneFigures where
  offsetI : Int
  offsetQ : Int
  gainI : Nat
  gainQ : Nat
  inner : Int
  outer : Int
  deriving DecidableEq, Repr

/-- The raw codes of the four lanes of a route at one instant (R107). -/
structure RawSample where
  xi : Int
  xq : Int
  yi : Int
  yq : Int
  deriving DecidableEq, Repr

/-- The raw codes of the two lanes of one polarisation at one instant (R107). -/
structure LaneSample where
  i : Int
  q : Int
  deriving DecidableEq, Repr

/-- Where the TDC places a TAP edge: cycles of the sample clock after the launch, and the tap (R355). -/
structure TapEdge where
  ns : Int
  tap : Fin 128
  deriving DecidableEq, Repr

/-- What one DRX lane acquires in one window: baseline, pulse, zero and tone codes (Table 7.2). -/
structure DrxSamples where
  baseline : List Int
  samples : List Int
  zero : List Int
  tone : List Int
  deriving DecidableEq, Repr

/-- The two moves of a parallel-move instruction (Table 9.5). -/
structure Moves where
  xd : Fin 8
  xa : Fin 4
  xm : Fin 4
  yd : Fin 8
  ya : Fin 4
  ym : Fin 4
  deriving DecidableEq, Repr

/-- A memory of a Forager core (Table 9.1). -/
inductive CoreMem where
  | p | x | y
  deriving DecidableEq, Repr

/-- A word of a core's memories that holds an error when SECDED checks it: a corrected one, or one that is not (R242, R265). -/
structure CoreFlaw where
  mem : CoreMem
  addr : Nat
  bad : Bool
  deriving DecidableEq, Repr

/-- What an invocation begins with: its slot, and the words of the core's memories that hold an error in it (R242, R257, R265). -/
structure SlotStart where
  slot : Fin 4
  flaws : List CoreFlaw
  deriving DecidableEq, Repr

/-- A block that the hardware gates by itself (R430): a Forager core, the CRX or DRX lanes of a route, a route engine with its slices and
chain. -/
inductive AutoGate where
  | core (c : Fin 8)
  | crx (r : Route)
  | drx (r : Route)
  | engine (r : Route)
  deriving DecidableEq, Repr

/-- The outcome of a checked read of a protected word or burst (R386, R390). -/
inductive BurstRead where
  | clean | corrected | uncorrectable
  deriving DecidableEq, Repr

/-- A burst of a channel that a reader found in error: `bad` where its code cannot correct it (R386). -/
structure BurstError where
  ch : Fin 2
  burst : Nat
  bad : Bool
  deriving DecidableEq, Repr

/-- The place and the length that a READ_BLOCK asks for (R321). -/
structure BlockSpan where
  off : W32
  max : BitVec 16
  deriving DecidableEq, Repr

/-- A packet of a link: the link, and the bursts of its frame found in error as it is read (R296, R386). -/
structure PacketRead where
  link : Fin 2
  errors : List BurstError
  deriving DecidableEq, Repr

/-- An edge of a SYNC line before the command: `ago` cycles ago, at a tap of its delay line (R355). -/
structure BusEdge where
  ago : Nat
  tap : Fin 128
  deriving DecidableEq, Repr

/-- A message of a unit on SYNC_DAT, and the slot of the cycle it came in (R362). -/
structure SlotMessage where
  slot : Fin 16
  bits : List Bool
  deriving DecidableEq, Repr

/-- A measurement of a channel's PHY temperature in degrees (R383). -/
structure PhyReading where
  ch : Fin 2
  temp : Int
  deriving DecidableEq, Repr

/-- A word of a row of an on-chip store (R389). -/
structure RowWord where
  row : Fin 1024
  word : Fin 256
  deriving DecidableEq, Repr

/-- The first steps of bring-up (Table 16.8): whether the BIST of step 2 passes, and how many attempts of the AVS write go without a valid
answer (R433). -/
structure FirstSteps where
  bistPass : Bool
  misses : Fin 4
  deriving DecidableEq, Repr

/-- XT1 as bring-up finds it (R419): its periods in 1 ms of FRC, and the microseconds since the release of reset (R436). -/
structure Xt1Count where
  count : Nat
  us : W32
  deriving DecidableEq, Repr

/-- What a training sets (R382): command/address, and of every byte lane write leveling, read and write DQ delays and VREF. -/
structure Training where
  ca : List Nat
  level : List Nat
  readDq : List Nat
  writeDq : List Nat
  vref : List Nat
  deriving DecidableEq, Repr

/-- The end of a training (R382): its settings, none where it found no working one, and the read and write eyes of the four byte lanes. -/
structure TrainingEnd where
  setting : Option Training
  eyes : List Byte
  deriving DecidableEq, Repr

/-- The on-chip stores (14_memory.md). -/
inductive Store where
  | hive | filter | thermal
  deriving DecidableEq, Repr

/-- The units of Table 17.2. -/
inductive TestUnit where
  | slice (i : Fin 17)
  | engine (r : Route)
  | keeper (k : Keeper)
  | row (store : Store) (bank : Fin 16) (row : Fin 1024)
  | dramRow (ch : Fin 2) (row : Nat)
  | core (c : Fin 8)
  | drx (r : Route)
  | hka
  deriving DecidableEq, Repr

/-- A Sync or Follow_Up message as the port receives it (R353); instants in 2^-16 ns. -/
structure PtpSync where
  domain : Byte
  followUp : Bool
  twoStep : Bool
  seqId : BitVec 16
  source : BitVec 64
  origin : Int
  correction : Int
  stamp : Int
  deriving DecidableEq, Repr

/-- What the other PTP messages of R353 say; instants in 2^-16 ns. -/
inductive PtpBody where
  | announce (source : BitVec 64) (priority1 clockClass accuracy : Byte) (variance : BitVec 16)
      (priority2 : Byte) (grandmaster : BitVec 64) (stepsRemoved : BitVec 16) (utcOffset : BitVec 16)
  | delayReq (source : BitVec 64) (seqId : BitVec 16) (stamp : Int)
  | delayResp (seqId : BitVec 16) (requester : BitVec 64) (receive : Int) (correction : Int)
  | pdelayReq (source : BitVec 64) (seqId : BitVec 16) (stamp : Int)
  | pdelayResp (seqId : BitVec 16) (requestReceipt : Int) (stamp : Int) (correction : Int)
  | pdelayRespFollowUp (seqId : BitVec 16) (responseOrigin : Int) (correction : Int)
  deriving DecidableEq, Repr

/-- Another PTP message, with its domain. -/
structure PtpMsg where
  domain : Byte
  body : PtpBody
  deriving DecidableEq, Repr

/-- The messages a port sends at an interval (R353). -/
inductive PtpKind where
  | sync | announce | delayReq
  deriving DecidableEq, Repr

/-- The commands the block takes: one constructor per row of spec/opcode_table.json. -/
inductive Instr where
  /-- READ. BDP READ of one object (R318). -/
  | read (r : Req) (draft : Bool) (idx : BitVec 16) (sub : Byte)
  /-- WRITE. BDP WRITE of one object (R313). -/
  | write (r : Req) (idx : BitVec 16) (sub : Byte) (ty : Byte) (val : Bytes)
  /-- READ_BLOCK. BDP READ_BLOCK (R321); `errors` names the bursts of a DRAM object found in error (R386). -/
  | readBlock (r : Req) (idx : BitVec 16) (sub : Byte) (span : BlockSpan) (errors : List BurstError)
  /-- WRITE_BLOCK. BDP WRITE_BLOCK fragment (R322). -/
  | writeBlock (r : Req) (f : Fragment) (idx : BitVec 16) (sub : Byte)
  /-- COMMIT. COMMIT message, or a write of 0x01 to OD 1200.02 when `asWrite` (R334). -/
  | commit (v : Via) (asWrite : Bool)
  /-- ABORT_DRAFT. ABORT with target 0, or a write of 0x01 to OD 1200.08 when `asWrite` (R314). -/
  | abortDraft (v : Via) (asWrite : Bool)
  /-- ABORT_BLOCK_WRITE. ABORT with target 1 (R322). -/
  | abortBlockWrite (r : Req)
  /-- SUBSCRIBE_CANCEL. SUBSCRIBE with mode 0 (R329). -/
  | subscribeCancel (r : Req) (idx : BitVec 16) (sub : Byte) (interval : W32)
  /-- SUBSCRIBE_ON_CHANGE. SUBSCRIBE with mode 1 (R329). -/
  | subscribeOnChange (r : Req) (idx : BitVec 16) (sub : Byte) (interval : W32)
  /-- SUBSCRIBE_PERIODIC. SUBSCRIBE with mode 2 (R329). -/
  | subscribePeriodic (r : Req) (idx : BitVec 16) (sub : Byte) (interval : W32)
  /-- OPEN. OPEN of a session handshake (R324). -/
  | openSession (a : Peer) (seq : W32) (level : Byte) (nonce : Bytes)
  /-- PROOF. PROOF of the host (R324, R325). -/
  | proof (a : Peer) (seq : W32) (session : W32) (proof : Bytes)
  /-- CLOSE. CLOSE of a session (R326). -/
  | closeSession (r : Req)
  /-- BDP_INVALID_REQUEST. A malformed request; `raw` is its header and body as received (R318). -/
  | bdpInvalidRequest (r : Req) (op : Byte) (raw : Bytes)
  /-- CHALLENGE_LAPSE. 2 s pass after a CHALLENGE (R325). -/
  | challengeLapse (session : W32)
  /-- AUTH_LOCKOUT_END. The 10 s lock-out ends (R325). -/
  | authLockoutEnd
  /-- SESSION_IDLE_TIMEOUT. A session reaches the idle timeout (R326). -/
  | sessionIdleTimeout (session : W32)
  /-- CAN_DRAFT_IDLE_TIMEOUT. The CAN client reaches the idle timeout (R314). -/
  | canDraftIdleTimeout
  /-- SUBSCRIPTION_INTERVAL. One subscription interval passes (R329). -/
  | subscriptionInterval (session : W32) (idx : BitVec 16) (sub : Byte)
  /-- SDO_DOWNLOAD. SDO download, expedited with its value, or the opening of a segmented one (R330). -/
  | sdoDownload (idx : BitVec 16) (sub : Byte) (segmented : Bool) (val : Bytes)
  /-- SDO_UPLOAD. SDO upload (R330). -/
  | sdoUpload (idx : BitVec 16) (sub : Byte)
  /-- SDO_SEGMENT. One segment of the open segmented transfer (R330). -/
  | sdoSegment (toggle last : Bool) (val : Bytes)
  /-- SDO_SEGMENT_TIMEOUT. 1 s without a segment (R331). -/
  | sdoSegmentTimeout
  /-- CAN_HEARTBEAT. The heartbeat producer time expires (R333). -/
  | canHeartbeat
  /-- ADMISSION_TRIAL. A write of 0x01 to OD 2000.05 (R61). -/
  | admissionTrial (v : Via)
  /-- ADMISSION_COMPLETE. The running admission ends (R36, R67). -/
  | admissionComplete
  /-- IMAGE_WRITE_COMPLETE. The image write to flash ends (R336). -/
  | imageWriteComplete (ok : Bool)
  /-- IMAGE_IMPORT. A WRITE_BLOCK fragment to OD 1200.11 (R339). -/
  | imageImport (r : Req) (f : Fragment)
  /-- FIRMWARE_IMAGE. A WRITE_BLOCK fragment to OD 1210.10 (R340). -/
  | firmwareImage (r : Req) (f : Fragment)
  /-- ACTIVATE_FIRMWARE. A write of 0x01 to OD 1210.11 (R340). -/
  | activateFirmware (v : Via)
  /-- MODE_REQUEST_HIBERNATE. A write of 0 to OD 1300.01 (R438). -/
  | modeRequestHibernate (v : Via)
  /-- MODE_REQUEST_READY. A write of 2 to OD 1300.01 (R438). -/
  | modeRequestReady (v : Via)
  /-- MODE_REQUEST_SENTINEL. A write of 3 to OD 1300.01 (R438). -/
  | modeRequestSentinel (v : Via)
  /-- MODE_REQUEST_SENSE. A write of 4 to OD 1300.01 (R438). -/
  | modeRequestSense (v : Via)
  /-- MODE_REQUEST_SURVEY. A write of 5 to OD 1300.01 (R438). -/
  | modeRequestSurvey (v : Via)
  /-- MODE_REQUEST_MAINTENANCE. A write of 6 to OD 1300.01 (R438). -/
  | modeRequestMaintenance (v : Via)
  /-- WARM_RESET_REQUEST. A write of 1 to OD 1300.09 (R435). -/
  | warmResetRequest (v : Via)
  /-- COLD_RESET_REQUEST. A write of 2 to OD 1300.09 (R435). -/
  | coldResetRequest (v : Via)
  /-- SENTINEL_RETURN. The sentinel return time passes (R441). -/
  | sentinelReturn
  /-- LASER_SETTLE_EXPIRY. The laser settle time expires (R89, step 2). -/
  | laserSettleExpiry
  /-- SWITCH_DWELL_EXPIRY. The switch dwell expires (R89, step 3). -/
  | switchDwellExpiry (r : Route)
  /-- RANGE_SWEEP_COMPLETE. The range sweep ends with the eight sets it measured (R128). -/
  | rangeSweepComplete (r : Route) (sets : List CorrSet)
  /-- PUMP_RAMP_COMPLETE. The pump lane reaches its target code (R87, R98). -/
  | pumpRampComplete (r : Route)
  /-- FRAME_BOUNDARY. A route frame boundary (R56). -/
  | frameBoundary (r : Route)
  /-- SWITCH_OSW_CHANGE. The instant t_c + RT + guard of a switch movement (R91). -/
  | switchOswChange (r : Route)
  /-- PROBE_LAUNCH. A probe group is launched (R52). -/
  | probeLaunch (r : Route) (group : Fin 4)
  /-- TAP_EDGE. A TAP rising edge, placed by the TDC after the oldest launch whose window is open (R92, R355). -/
  | tapEdge (r : Route) (edge : TapEdge)
  /-- TAP_WINDOW_CLOSE. The edge window of a launch closes (R94). -/
  | tapWindowClose (r : Route)
  /-- APR_DECISION. The window power of a launch is judged; `raw` holds its codes from 128 ns before the range origin (R97, R98). -/
  | aprDecision (r : Route) (raw : List RawSample)
  /-- RESTORATION_PROBE. One restoration interval passes (R100). -/
  | restorationProbe (r : Route)
  /-- RESTORE_REQUEST. A write of 0x01 to OD 2160.07 (R98). -/
  | restoreRequest (v : Via) (r : Route)
  /-- RAMAN_PULSE. The Raman offset of a shot is reached (R102). -/
  | ramanPulse (r : Route)
  /-- DTSP_PULSE_END. The DTSP pulse width expires (R102). -/
  | dtspPulseEnd (r : Route)
  /-- DRX_WINDOW_END. A DRX acquisition window ends with its samples (R188). -/
  | drxWindowEnd (r : Route) (stokes anti : DrxSamples)
  /-- AGC_INTERVAL_END. A statistics interval ends; `x` and `y` hold the codes of the two polarisations from the launch of group 0 on (R114, R115). -/
  | agcIntervalEnd (r : Route) (x y : List LaneSample)
  /-- BLANK_EDGE. The BLANK ball changes to `level` (R120). -/
  | blankEdge (level : Bool)
  /-- CRX_TEMPERATURE_READ. The CRX on-die sensor is read, 0.1 degC (R126). -/
  | crxTemperatureRead (r : Route) (temp : Int)
  /-- FOREGROUND_INTERVAL_EXPIRY. The maximum interval since the last run elapses (R126). -/
  | foregroundIntervalExpiry (r : Route)
  /-- CALIBRATION_REQUEST. A write of 0x01 to OD 2190.05 (R126). -/
  | calibrationRequest (v : Via) (r : Route)
  /-- FOREGROUND_RUN_COMPLETE. A foreground run has gathered its windows and measured both polarisations (R125). -/
  | foregroundRunComplete (r : Route) (x y : ToneFigures)
  /-- BLIND_PERIOD_END. A blind period ends, and its sums give the estimates of both polarisations (R129); the three last operands
  carry nothing. -/
  | blindPeriodEnd (r : Route) (_spare _spare' _spare'' : Unit)
  /-- LAUNCH_COMPRESSED. The returns of the oldest launch in flight are processed; `raw` starts 128 ns before the range origin, `checkFail` tells of a failed engine check (R134 to R147, R449). -/
  | launchCompressed (r : Route) (raw : List RawSample) (checkFail : Bool)
  /-- SLICE_UPDATE. A slice processes one position for the launch in hand; `checkFail` tells of a failed slice check, `ecc` names the Hive bank and row in which the record reads uncorrectable (R150). -/
  | sliceUpdate (r : Route) (pos : Nat) (checkFail : Bool) (ecc : Option (Fin 16 × Fin 1024))
  /-- SPARE_TEST_CYCLE. A test cycle of the spare completes (R160). -/
  | spareTestCycle (pass : Bool)
  /-- LOOP_MERGE. The merge of one position at a loop instant (R180). -/
  | loopMerge (pos : Nat)
  /-- FDC_INPUT. One input of every position of the route (R219, R221). -/
  | fdcInput (r : Route)
  /-- FRAME_HANDOVER. A completed stream frame is handed over (R225). -/
  | frameHandover (stream : Fin 16) (r : Route)
  /-- BANK_SELECT. A write of OD 2610.0A (R230). -/
  | bankSelect (v : Via) (r : Route) (bank : Byte)
  /-- TRACKED_UPDATE. A tracked update of a position, or of the four coil windows for `none`; `ecc` names the DRAM channel
  and row in which the tracker record reads uncorrectable (R207, R208, R386). -/
  | trackedUpdate (r : Route) (pos : Option Nat) (ecc : Option BurstError)
  /-- RAMAN_BLOCK_CLOSE. A Raman block closes (R192). -/
  | ramanBlockClose (r : Route)
  /-- ATTENUATION_CALIBRATION_REQUEST. A write of 0x01 to OD 2510.0A (R200). -/
  | attenuationCalibrationRequest (v : Via) (r : Route)
  /-- ATTENUATION_CALIBRATION_COMPLETE. The calibration frames have been summed (R200). -/
  | attenuationCalibrationComplete (r : Route)
  /-- SURVEY_RUN_REQUEST. A write of 0x01 to OD 2A00.09 (R169). -/
  | surveyRunRequest (v : Via)
  /-- SURVEY_NORMAL_PHASE_END. The normal phase reaches its launch count (R169). -/
  | surveyNormalPhaseEnd
  /-- SURVEY_RUN_COMPLETE. The last phase of the run ends (R170, R173). -/
  | surveyRunComplete
  /-- REGISTER. A write of 0x01 to OD 2A00.08 (R174). -/
  | register (v : Via)
  /-- LOOP_CUT_LOCATED. 16 loop frames have been counted with both ends in APR_HOLD (R182). -/
  | loopCutLocated
  /-- INVOCATION_START. An invocation of a slot begins (R257). -/
  | invocationStart (core : Fin 8) (start : SlotStart)
  /-- CYCLE_ABORT. The cycle count reaches W (R263). -/
  | cycleAbort (core : Fin 8)
  /-- DEADLINE_ABORT. 100 us before the deadline of the feature frame (R263). -/
  | deadlineAbort (core : Fin 8) (slot : Fin 4)
  /-- NOP. Forager NOP (R252). -/
  | nop (core : Fin 8)
  /-- ADD. Forager ADD, format R (R252). -/
  | add (core : Fin 8) (d s1 s2 : Fin 16)
  /-- SUB. Forager SUB, format R (R252). -/
  | sub (core : Fin 8) (d s1 s2 : Fin 16)
  /-- ADDS. Forager ADDS, format R (R252). -/
  | adds (core : Fin 8) (d s1 s2 : Fin 16)
  /-- SUBS. Forager SUBS, format R (R252). -/
  | subs (core : Fin 8) (d s1 s2 : Fin 16)
  /-- AND. Forager AND, format R (R252). -/
  | and (core : Fin 8) (d s1 s2 : Fin 16)
  /-- OR. Forager OR, format R (R252). -/
  | or (core : Fin 8) (d s1 s2 : Fin 16)
  /-- XOR. Forager XOR, format R (R252). -/
  | xor (core : Fin 8) (d s1 s2 : Fin 16)
  /-- SHL. Forager SHL, format R (R252). -/
  | shl (core : Fin 8) (d s1 s2 : Fin 16)
  /-- SHR. Forager SHR, format R (R252). -/
  | shr (core : Fin 8) (d s1 s2 : Fin 16)
  /-- ASR. Forager ASR, format R (R252). -/
  | asr (core : Fin 8) (d s1 s2 : Fin 16)
  /-- MIN. Forager MIN, format R (R252). -/
  | min (core : Fin 8) (d s1 s2 : Fin 16)
  /-- MAX. Forager MAX, format R (R252). -/
  | max (core : Fin 8) (d s1 s2 : Fin 16)
  /-- ABS. Forager ABS, format R (R252). -/
  | abs (core : Fin 8) (d s1 s2 : Fin 16)
  /-- SLT. Forager SLT, format R (R252). -/
  | slt (core : Fin 8) (d s1 s2 : Fin 16)
  /-- SLTU. Forager SLTU, format R (R252). -/
  | sltu (core : Fin 8) (d s1 s2 : Fin 16)
  /-- PACK. Forager PACK, format R (R252). -/
  | pack (core : Fin 8) (d s1 s2 : Fin 16)
  /-- HI. Forager HI, format R (R252). -/
  | hi (core : Fin 8) (d s1 s2 : Fin 16)
  /-- LO. Forager LO, format R (R252). -/
  | lo (core : Fin 8) (d s1 s2 : Fin 16)
  /-- MAXI. Forager MAXI, format R (R252). -/
  | maxi (core : Fin 8) (d s1 s2 : Fin 16)
  /-- MINI. Forager MINI, format R (R252). -/
  | mini (core : Fin 8) (d s1 s2 : Fin 16)
  /-- MUL. Forager MUL, format R (R252). -/
  | mul (core : Fin 8) (d s1 s2 : Fin 16)
  /-- MULH. Forager MULH, format R (R252). -/
  | mulh (core : Fin 8) (d s1 s2 : Fin 16)
  /-- ADDI. Forager ADDI, format I (R252). -/
  | addi (core : Fin 8) (d s1 : Fin 16) (imm : BitVec 16)
  /-- ANDI. Forager ANDI, format I (R252). -/
  | andi (core : Fin 8) (d s1 : Fin 16) (imm : BitVec 16)
  /-- ORI. Forager ORI, format I (R252). -/
  | ori (core : Fin 8) (d s1 : Fin 16) (imm : BitVec 16)
  /-- XORI. Forager XORI, format I (R252). -/
  | xori (core : Fin 8) (d s1 : Fin 16) (imm : BitVec 16)
  /-- LUI. Forager LUI, format I (R252). -/
  | lui (core : Fin 8) (d : Fin 16) (imm : BitVec 16)
  /-- SHLI. Forager SHLI, format I (R252). -/
  | shli (core : Fin 8) (d s1 : Fin 16) (imm : BitVec 16)
  /-- SHRI. Forager SHRI, format I (R252). -/
  | shri (core : Fin 8) (d s1 : Fin 16) (imm : BitVec 16)
  /-- ASRI. Forager ASRI, format I (R252). -/
  | asri (core : Fin 8) (d s1 : Fin 16) (imm : BitVec 16)
  /-- SLTI. Forager SLTI, format I (R252). -/
  | slti (core : Fin 8) (d s1 : Fin 16) (imm : BitVec 16)
  /-- LD. Forager LD, format M (R249): through address register `a` of X, or of Y where `y`. -/
  | ld (core : Fin 8) (g : Fin 16) (y : Bool) (a m : Fin 4)
  /-- ST. Forager ST, format M (R249). -/
  | st (core : Fin 8) (g : Fin 16) (a : Fin 8) (m : Fin 4)
  /-- LDA. Forager LDA, format MA (R252). -/
  | lda (core : Fin 8) (g : Fin 16) (y : Bool) (addr : BitVec 13)
  /-- STA. Forager STA, format MA (R252). -/
  | sta (core : Fin 8) (g : Fin 16) (y : Bool) (addr : BitVec 13)
  /-- SETA. Forager SETA, format AR (R252). -/
  | seta (core : Fin 8) (a : Fin 8) (imm : BitVec 13)
  /-- SETN. Forager SETN, format AR (R252). -/
  | setn (core : Fin 8) (a : Fin 8) (imm : BitVec 16)
  /-- MOVA. Forager MOVA, format AR (R252). -/
  | mova (core : Fin 8) (a : Fin 8) (g : Fin 16)
  /-- MOVN. Forager MOVN, format AR (R252). -/
  | movn (core : Fin 8) (a : Fin 8) (g : Fin 16)
  /-- GETA. Forager GETA, format AR (R252). -/
  | geta (core : Fin 8) (g : Fin 16) (a : Fin 8)
  /-- GETN. Forager GETN, format AR (R252). -/
  | getn (core : Fin 8) (g : Fin 16) (a : Fin 8)
  /-- ADDA. Forager ADDA, format AR (R252). -/
  | adda (core : Fin 8) (a : Fin 8) (imm : BitVec 16)
  /-- RND. Forager RND, format ACC (R252). -/
  | rnd (core : Fin 8) (g : Fin 16) (acb w16 : Bool) (sh : BitVec 6)
  /-- CLRA. Forager CLRA, format ACC (R252). -/
  | clra (core : Fin 8) (acb : Bool)
  /-- LDAC. Forager LDAC, format ACC (R252). -/
  | ldac (core : Fin 8) (g : Fin 16) (acb : Bool) (sh : BitVec 6)
  /-- ADDAC. Forager ADDAC, format ACC (R252). -/
  | addac (core : Fin 8) (g : Fin 16) (acb : Bool) (sh : BitVec 6)
  /-- GETS. Forager GETS, format ACC (R252). -/
  | gets (core : Fin 8) (g : Fin 16)
  /-- CLRS. Forager CLRS, format ACC (R252). -/
  | clrs (core : Fin 8)
  /-- BR. Forager BR, format B (R247). -/
  | br (core : Fin 8) (target : BitVec 12)
  /-- BEQ. Forager BEQ, format B (R247). -/
  | beq (core : Fin 8) (s1 s2 : Fin 16) (target : BitVec 12)
  /-- BNE. Forager BNE, format B (R247). -/
  | bne (core : Fin 8) (s1 s2 : Fin 16) (target : BitVec 12)
  /-- BLT. Forager BLT, format B (R247). -/
  | blt (core : Fin 8) (s1 s2 : Fin 16) (target : BitVec 12)
  /-- BGE. Forager BGE, format B (R247). -/
  | bge (core : Fin 8) (s1 s2 : Fin 16) (target : BitVec 12)
  /-- CALL. Forager CALL, format B (R252). -/
  | call (core : Fin 8) (target : BitVec 12)
  /-- JR. Forager JR, format B (R252). -/
  | jr (core : Fin 8) (s1 : Fin 16)
  /-- LOOPI. Forager LOOPI, format L (R248). -/
  | loopi (core : Fin 8) (stop : BitVec 12) (count : BitVec 12)
  /-- LOOP. Forager LOOP, format L (R248). -/
  | loop (core : Fin 8) (stop : BitVec 12) (g : Fin 16)
  /-- RETE. Forager RETE (R259). -/
  | rete (core : Fin 8)
  /-- HALT. Forager HALT (R257). -/
  | halt (core : Fin 8)
  /-- OUT. Forager OUT, format S (R260). -/
  | out (core : Fin 8) (g : Fin 16)
  /-- EVT. Forager EVT, format S (R261). -/
  | evt (core : Fin 8) (a : Fin 4)
  /-- PARALLEL_MOVE. Parallel-move instruction with MOP NOP (R251). -/
  | parallelMove (core : Fin 8) (mv : Moves)
  /-- MAC. Parallel-move MAC (R251). -/
  | mac (core : Fin 8) (acb : Bool) (s1 s2 : Fin 8) (mv : Moves)
  /-- MSU. Parallel-move MSU (R251). -/
  | msu (core : Fin 8) (acb : Bool) (s1 s2 : Fin 8) (mv : Moves)
  /-- MPY. Parallel-move MPY (R251). -/
  | mpy (core : Fin 8) (acb : Bool) (s1 s2 : Fin 8) (mv : Moves)
  /-- MACL. Parallel-move MACL (R251). -/
  | macl (core : Fin 8) (acb : Bool) (s1 s2 : Fin 8) (mv : Moves)
  /-- MACH. Parallel-move MACH (R251). -/
  | mach (core : Fin 8) (acb : Bool) (s1 s2 : Fin 8) (mv : Moves)
  /-- MACX. Parallel-move MACX (R251). -/
  | macx (core : Fin 8) (acb : Bool) (s1 s2 : Fin 8) (mv : Moves)
  /-- CMACI. Parallel-move CMACI (R251). -/
  | cmaci (core : Fin 8) (acb : Bool) (s1 s2 : Fin 8) (mv : Moves)
  /-- COMB_LINE_WRITE. A Comb line is written (R271). -/
  | combLineWrite (r : Route)
  /-- COMB_LINE_DISCARD. A Comb line write passes t_L unissued (R274). -/
  | combLineDiscard (r : Route)
  /-- HOST_TRIGGER. A write of 0x01 to OD 28s0.19 (R277). -/
  | hostTrigger (v : Via) (slot : Fin 8)
  /-- TRIG_IN_EDGE. A TRIG_IN edge (R277). -/
  | trigInEdge (input : Fin 2) (rising : Bool) (tap : Fin 128)
  /-- CAPTURE_COMPLETE. The capture copy has read its last line; `errors` names the bursts of its lines found in error
  (R282, R386). -/
  | captureComplete (slot : Fin 8) (errors : List BurstError)
  /-- RE_ARM. A write of 0x01 to OD 28s0.18 (R276). -/
  | reArm (v : Via) (slot : Fin 8)
  /-- EVT_OUT_PULSE_END. The EVT_OUT pulse width expires (R285). -/
  | evtOutPulseEnd (n : Fin 2)
  /-- SYNC_TRIGGER_SEND. The unit's slot of a SYNC cycle begins with a trigger queued (R365). -/
  | syncTriggerSend
  /-- PACKET_TRANSMIT. The next packet of a link leaves (R296). -/
  | packetTransmit (p : PacketRead)
  /-- LINK_LOSS. A link has been without lock for 100 us (R292). -/
  | linkLoss (link : Fin 2)
  /-- RETRAIN_ATTEMPT_EXPIRY. A training attempt times out (R293). -/
  | retrainAttemptExpiry (link : Fin 2)
  /-- LINK_RETRY. 1 s has passed in FAILED (R293). -/
  | linkRetry (link : Fin 2)
  /-- LINK_UP. A link completes training (R297). -/
  | linkUp (link : Fin 2)
  /-- ARP_REFRESH. 60 s refresh of a destination entry (R298). -/
  | arpRefresh (link : Fin 2) (ip : W32)
  /-- ARP_REQUEST. A received ARP request for address `ip` (R291). -/
  | arpRequest (link : Fin 2) (ip : W32) (senderIp : W32) (senderMac : BitVec 48)
  /-- ICMP_ECHO. A received ICMP echo request to address `ip` (R291). -/
  | icmpEcho (link : Fin 2) (ip : W32) (senderIp : W32) (data : Bytes)
  /-- PAUSE_RECEIVED. A PAUSE frame is received (R291). -/
  | pauseReceived (link : Fin 2)
  /-- GATHERED_FRAME_CLOSE. 1 ms after the first record of the gathered frame (R305). -/
  | gatheredFrameClose
  /-- TELEMETRY_SAMPLE. A telemetry period passes (R306). -/
  | telemetrySample
  /-- TIMESTAMP_FRAME_CLOSE. The time-stamp frame hold passes (R360). -/
  | timestampFrameClose
  /-- TS_EDGE. A level change of a time-stamp input, held for `held` samples (R358). -/
  | tsEdge (input : Fin 8) (rising : Bool) (held : Nat) (tap : Fin 128)
  /-- RATE_CEILING_WINDOW. A whole ms of device time ends (R359). -/
  | rateCeilingWindow
  /-- FREQUENCY_GATE_END. A counter gate ends with n edges and the stamps of the first and last, 2^-16 ns (R361). -/
  | frequencyGateEnd (n : Nat) (tFirst tLast : Int)
  /-- TIME_SET. A write of OD 1400.12 (R344). -/
  | timeSet (v : Via) (ns : BitVec 64) (frac : BitVec 16)
  /-- DISCIPLINE. The loop computation of one second (R349). -/
  | discipline
  /-- PPS_IN_EDGE. A PPS_IN edge, with the first REFIN edge at or after it: ns later and tap (R348). -/
  | ppsInEdge (rising : Bool) (tap : Fin 128) (refin : Option (Nat × Fin 128))
  /-- PPS_IN_TIMEOUT. No PPS_IN edge within 1 s +- 100 us (R347). -/
  | ppsInTimeout
  /-- REFIN_GATE. A 10 ms REFIN gate ends with its frequency in mHz (R347). -/
  | refinGate (count : Nat)
  /-- REFERENCE_REVERT. The first reference has been present for 60 s (R347). -/
  | referenceRevert
  /-- HOLDOVER_LIMIT_EXPIRY. HOLDOVER outlasts its limit (R350). -/
  | holdoverLimitExpiry
  /-- OCXO_WARM_CHANGE. OCXO_WARM changes to `level` (R346). -/
  | ocxoWarmChange (level : Bool)
  /-- PPS_OUT_PULSE. A whole second of device time (R352). -/
  | ppsOutPulse
  /-- PPS_OUT_WIDTH_END. The PPS_OUT width expires (R352). -/
  | ppsOutWidthEnd
  /-- PTP_SYNC_RECEIVE. A Sync or Follow_Up message is received (R353). -/
  | ptpSyncReceive (m : PtpSync)
  /-- PTP_MESSAGE_RECEIVE. Another PTP message is received (R353). -/
  | ptpMessageReceive (m : PtpMsg)
  /-- PTP_INTERVAL. A PTP transmit interval expires (R353). -/
  | ptpInterval (k : PtpKind)
  /-- PTP_SYNC_TIMEOUT. 4 Sync intervals without a Sync (R347). -/
  | ptpSyncTimeout
  /-- TDC_CALIBRATION_START. The TDC calibration interval or temperature trigger (R356). -/
  | tdcCalibrationStart
  /-- TDC_CALIBRATION_COMPLETE. A code-density calibration ends with its hits per channel and tap (R356). -/
  | tdcCalibrationComplete (hits : List (List Nat))
  /-- SYNC_CYCLE. A 100 us SYNC cycle begins (R362). -/
  | syncCycle
  /-- SYNC_LEADER_MESSAGE. A leader message as received, with the SYNC_CLK edge of its cycle 0 (R364). -/
  | syncLeaderMessage (bits : List Bool) (edge : BusEdge)
  /-- SYNC_DELAY_REQ. A DELAY_REQ as received, with its START transition on SYNC_DAT (R364). -/
  | syncDelayReq (m : SlotMessage) (edge : BusEdge)
  /-- SYNC_TRIGGER. A TRIGGER message as received (R365). -/
  | syncTrigger (m : SlotMessage)
  /-- SYNC_LISTEN_EXPIRY. The listen and back-off time expires; `running` when SYNC_CLK runs (R363). -/
  | syncListenExpiry (running : Bool)
  /-- REFRESH_DUE. A refresh of a rank falls due (R379); the last operand carries nothing. -/
  | refreshDue (ch : Fin 2) (rank : Fin 2) (_spare : Unit)
  /-- MR4_READ. MR4 of the ranks is read (R378). -/
  | mr4Read (ch : Fin 2) (code0 code1 : Fin 8)
  /-- NEIGHBOUR_REFRESH. The oldest queued neighbour refresh is issued (R381). -/
  | neighbourRefresh (ch : Fin 2)
  /-- ROW_IDLE_CLOSE. The idle close time of an open row passes (R374). -/
  | rowIdleClose (ch : Fin 2) (rank : Fin 2) (bank : Fin 8)
  /-- LATE_REQUEST_DISCARD. A class 1 request reaches 200 us before its deadline (R376). -/
  | lateRequestDiscard (ch : Fin 2) (stream : Fin 16) (r : Route)
  /-- RETRAIN_TRIGGER. The PHY temperature is measured and the retraining interval looked at (R383). -/
  | retrainTrigger (m : PhyReading)
  /-- RETRAIN_REQUEST. A write of 0x01 to OD 1600.0D (R383). -/
  | retrainRequest (v : Via)
  /-- DRAM_TRAINING_COMPLETE. A training run ends at a PHY temperature (R382). -/
  | dramTrainingComplete (ch : Fin 2) (t : TrainingEnd) (temp : Int)
  /-- BACKLOG_COPY_COMPLETE. The backlog copy completes; `errors` names the bursts found in error, each with the place of its frame in
  the backlog (R384, R386). -/
  | backlogCopyComplete (errors : List (Nat × BurstError))
  /-- PATROL_SCRUB. Patrol scrub reads its next burst (R387); the last operand carries nothing. -/
  | patrolScrub (ch : Fin 2) (res : BurstRead) (_spare : Unit)
  /-- HIVE_SCRUB. A word of a row of a store is read (R390); `owner` is the position whose record it holds in the filter and
  thermal stores, whose layout the manual does not give (R389 gives that of Hive). -/
  | hiveScrub (store : Store) (bank : Fin 16) (place : RowWord) (res : BurstRead) (owner : Option (Route × Nat))
  /-- HIVE_ROW_SPARE. A suspect row with a lasting fault is replaced or retired (R390). -/
  | hiveRowSpare (store : Store) (bank : Fin 16) (row : Fin 1024)
  /-- SEQUENCE_PASS_START. The sequence trigger arrives (R398). -/
  | sequencePassStart
  /-- SEQUENCE_REQUEST. A write of 0x01 to OD 1800.03 (R398). -/
  | sequenceRequest (v : Via)
  /-- INJECTED_TRIGGER. The injected trigger arrives, or a write of OD 1800.08 (R399). -/
  | injectedTrigger (v : Option Via)
  /-- CONVERSION_COMPLETE. A conversion ends with the outputs averaged (R396). -/
  | conversionComplete (conv : Fin 2) (outputs : List Int)
  /-- HKA_CALIBRATION_START. The calibration interval or temperature trigger, or a write of OD 1850.03 (R403). -/
  | hkaCalibrationStart (v : Option Via)
  /-- HKA_CALIBRATION_COMPLETE. Both converters have finished their run (R405). -/
  | hkaCalibrationComplete
  /-- EXCITATION_CHANGE. 2 ms after the admission of a changed excitation current (R409). -/
  | excitationChange
  /-- POWER_ON. VAON rises through 1.62 V (R475). -/
  | powerOn
  /-- RESET_N. RESET_N is asserted (R435). -/
  | resetN
  /-- RESET_RELEASE. Reset is released, and bring-up runs to the enable of XT1 (R436). -/
  | resetRelease (f : FirstSteps)
  /-- XT1_READY. XT1 becomes ready (R419). -/
  | xt1Ready (x : Xt1Count)
  /-- XT1_READY_TIMEOUT. XT1 is not ready 1 s after step 3 (R436). -/
  | xt1ReadyTimeout
  /-- XT1_STOP. The XT1 stop or frequency monitor trips (R421). -/
  | xt1Stop
  /-- PLLA_LOSS. PLL-A loses lock (R422). -/
  | pllaLoss
  /-- PLLS_LOSS. PLL-S loses lock (R421). -/
  | pllsLoss
  /-- PLLM_LOSS. PLL-M loses lock (R421). -/
  | pllmLoss
  /-- PLLL_LOSS. PLL-L loses lock (R421). -/
  | plllLoss
  /-- PLLT_LOSS. PLL-T loses lock (R421). -/
  | plltLoss
  /-- PLL_RELOCK_ATTEMPT. 10 ms relock attempt of PLL-L, or PLL-T when `t` (R421). -/
  | pllRelockAttempt (t : Bool) (ok : Bool)
  /-- XT1_RETURN. XT1 has been ready for 100 ms (R422). -/
  | xt1Return
  /-- XT2_LOSS. The XT2 ready flag clears (R421). -/
  | xt2Loss
  /-- CAN_TRIM. The once per second trim of the CAN clock (R423). -/
  | canTrim
  /-- ALWAYS_ON_SOURCE. A write of OD 1500.01 (R424). -/
  | alwaysOnSource (v : Via) (src : Byte)
  /-- DOMAIN_SOURCE. A write of OD 1510.11 to OD 1510.14 (R424). -/
  | domainSource (v : Via) (dom : Fin 4) (src : Byte)
  /-- CLOCK_SWITCH_RETRY. 1 ms repetition of a refused switch (R425). -/
  | clockSwitchRetry (dom : Fin 4)
  /-- CLOCK_SWITCH_TIMEOUT. 8 always-on cycles without an edge of the old clock, or of the new one unless `newEdge` (R427, R428). -/
  | clockSwitchTimeout (dom : Fin 4) (newEdge : Bool)
  /-- CLOCK_SWITCH_COMPLETE. A domain switch completes (R426). -/
  | clockSwitchComplete (dom : Fin 4)
  /-- GATE_REQUEST. A write of OD 1520.01 (R430). -/
  | gateRequest (v : Via) (mask : BitVec 16)
  /-- GATE_HANDSHAKE_TIMEOUT. A block does not report idle within 256 cycles (R429). -/
  | gateHandshakeTimeout (block : AutoGate)
  /-- AVS_LOOP. The 1 ms AVS loop with the slacks of its monitors; the first `misses` attempts of an AVSBus write have no answer (R432, R433). -/
  | avsLoop (slack : List Nat) (misses : Fin 4)
  /-- SUPPLY_FAILURE. PWR_GOOD falls or a rail leaves range (R434). -/
  | supplyFailure
  /-- SUPPLY_RECOVERY. PWR_GOOD high and every rail in range (R434). -/
  | supplyRecovery
  /-- WAKE_EDGE. A WAKE edge held 10 us (R442). -/
  | wakeEdge (rising : Bool)
  /-- CAN_WAKE. CAN_RX low for 5 us (R442). -/
  | canWake
  /-- RTC_ALARM. The real-time counter reaches the alarm (R443). -/
  | rtcAlarm
  /-- RTC_SECOND. A whole second passes (R443). -/
  | rtcSecond
  /-- KEEPER_HEARTBEAT. A Keeper writes its heartbeat (R460). -/
  | keeperHeartbeat (k : Keeper)
  /-- HEARTBEAT_WINDOW. A 10 ms heartbeat window ends (R460). -/
  | heartbeatWindow
  /-- LOCKSTEP_MISMATCH. A lockstep compare fails (R460). -/
  | lockstepMismatch (k : Keeper)
  /-- TARGETED_TEST_COMPLETE. A run of a targeted self-test ends; `pass1` is the result of HKA1 in the HKA test (R450). -/
  | targetedTestComplete (u : TestUnit) (pass pass1 : Bool)
  /-- BIST_REQUEST. A write of OD 1700.20 (R454). -/
  | bistRequest (v : Via) (mask : BitVec 16)
  /-- BIST_COMPLETE. A BIST unit ends; `failing` marks the parts of the unit that failed on their own (R455). -/
  | bistComplete (bit : Fin 15) (count : BitVec 24) (signature : W32) (failing : BitVec 17)
  /-- FAULT_CLEAR. A write of 0x01 to OD 1700.02; `bistPass` is the outcome of the datapath BIST it runs (R463). -/
  | faultClear (v : Via) (bistPass : Bool)
  /-- SCAN_ENABLE. A write of 0x01 to OD 1700.50 (R458). -/
  | scanEnable (v : Via)
  /-- CLEAR_LOG. A write of 0x01 to OD 5000.11 (R447). -/
  | clearLog (v : Via)
  /-- NET_LINK_UP. A NET link comes up (R316). -/
  | netLinkUp (n : NetPort)
  /-- NET_LINK_DOWN. A NET link goes down (R316). -/
  | netLinkDown (n : NetPort)
  /-- ARP_REPLY. An ARP answer (R298). -/
  | arpReply (link : Fin 2) (ip : W32) (mac : BitVec 48)
  /-- DHCP_REPLY. A DHCPv4 grant or renewal (R291). -/
  | dhcpReply (p : IpPort) (ip : W32)
  /-- XT2_READY. XT2 completes 1,024 periods within tolerance (R418). -/
  | xt2Ready
  /-- PLL_LOCK_REGAINED. PLL-S, or PLL-M when `m`, has held lock again for 100 ms (R463). -/
  | pllLockRegained (m : Bool)
  /-- ANNOUNCE_RECEIPT_TIMEOUT. announceReceiptTimeout expires (R353). -/
  | announceReceiptTimeout
  /-- POWER_DOWN. VAON is removed (R475). -/
  | powerDown
  /-- TCK_EDGE. A TCK edge of the JTAG port (R458). -/
  | tckEdge (rising tms tdi : Bool)
  deriving DecidableEq, Repr

end Sys2Proof
end

