-- ==== Sys2Proof/Config.lean ====
section
/-! DEFINITION. What an implementation fixes and the manual does not give, and the values the manual leaves
open. Each is a constant without a body: nothing in Lean can evaluate it, so a claim holds for every choice. -/

namespace Sys2Proof.Config

/-- The free values (assumption log 1): the n-th value that the manual leaves open, drawn by the counter
`State.free`. -/
opaque freeValue : Nat → Nat

/-- The key of level V, fixed in OTP at manufacture (R323). -/
opaque vendorKey : Bytes

/-- The public key of the firmware signature, held in OTP (R340). -/
opaque firmwareKey : Bytes

/-- The serial number, OD 1000.03. -/
opaque serialNumber : Bytes

/-- The MAC addresses of NET0, NET1, DX0 and DX1 (0 to 3). -/
opaque macAddress : Nat → Nat

/-- The minimum firmware version, OD 1210.05, in OTP. -/
opaque minFirmware : Nat

/-- The expected pattern count of BIST bit b, OD 1700.40 + b. -/
opaque bistCount : Nat → Nat

/-- The reference signature of BIST bit b in boot ROM (R455). -/
opaque bistSignature : Nat → Nat

/-- The width in samples of the Hann window of the skew filter (R113): the manual names a Hann-windowed sinc and not its width. -/
opaque hannWidth : Nat

/-- The address of the area of a capture slot from the Comb and area sizes of an image (R286): the manual gives the channel and not the
address. -/
opaque areaAddress : List Nat → Nat → Nat

/-- Where a part of the interleaved part of the DRAM begins, from the sizes of the Combs and the tracker records (R371 names the parts and not
their order). -/
opaque partBase : List Nat → Nat → Nat

/-- Where a frame lies in the output backlog, by stream, route code and counter modulo 64 (R295). -/
opaque frameOffset : Nat → Nat → Nat → Nat

/-- What a burst of the reserve of a DRAM channel holds: 0 a copy of the Keepers' control data, 1 training patterns, 2 + n records 2n and
2n + 1 of the event log, by its burst within the reserve (R370 names the content and not its places). -/
opaque reserveUse : Nat → Nat

/-- The gain ratio of a DRX lane in 1/4,096 from its 256 tone samples (R189): the manual gives the tone (R479) and not the measure. -/
opaque toneRatio : List Int → Nat

/-- The cross term k_qi for a phase imbalance in 2^-32 turns and a gain k_qq (R125): the manual states the imbalance and the limit of
their ratio and not the arithmetic between them. -/
opaque crossTerm : Int → Nat → Int

/-- Field k of the correction set that a blind period gives (0 offset I, 1 offset Q, 2 k_qq, 3 k_qi, 4 skew), from the set in force and the sums of
the period (R129): the manual names what is accumulated and what is updated and not the arithmetic between them. -/
opaque blindEstimate : List Int → Nat → Int

/-- The fixed internal latency of the TDC in 2^-16 ns (R355). -/
opaque tdcLatency : Int

/-- The device identification code shifted out under IDCODE (R458). -/
opaque idcode : Nat

/-- The bits of the JTAG instruction register, and the codes of IDCODE, SAMPLE/PRELOAD, EXTEST, CLAMP and INTEST (R458 names
the instructions alone; BYPASS is all ones by IEEE 1149.1). -/
opaque irLength : Nat
opaque irIdcode : Nat
opaque irSample : Nat
opaque irExtest : Nat
opaque irClamp : Nat
opaque irIntest : Nat

/-- The cells of the boundary-scan register. -/
opaque boundaryLength : Nat

/-- The boundary-scan cell captured at place n under SAMPLE/PRELOAD (R458). -/
opaque boundaryCell : Nat → Bool

end Sys2Proof.Config
end

