-- ==== Sys2Proof/Machine/State.lean ====
section
/-! DEFINITION. The state of the SL8240 as a block, as plain data. Every object of the dictionary (R312)
holds its value in `od`, keyed by index * 256 + sub-index, and reads as the default of its table where the
list has no entry; the configuration draft is `draft`. Everything the chapters give the machine beside its
objects is a field of one of the structures below. Sums, increments and phases are `Int`, since the manual
defines them as integers with named saturation points; registers of the Forager cores and the words that
software numbers are bit vectors. -/

namespace Sys2Proof.Machine

open Sys2Proof

/-- The value of a dictionary object: a number (two's complement integers and binary32 by their bits) or a
byte block (STR, DOMAIN, TIME80) (Table 12.1). -/
inductive Val where
  | num (n : Nat)
  | blob (b : Bytes)
  deriving DecidableEq, Repr

/-- Sparse data by number, strictly rising, holding no entry equal to what an unlisted number reads as. -/
abbrev Map (α : Type) := List (Nat × α)

/-- Values of dictionary objects, keyed by index * 256 + sub-index. -/
abbrev Dict := Map Val

/-- A word memory of a Forager core (R242): unlisted words read as zero, or as HALT in P. -/
abbrev WordMem := Map W32

/-- An event record (Table 11.7); `time` in 2^-16 ns. -/
structure EventRec where
  time : Int
  type : Nat
  source : Nat
  route : Nat
  flags : Nat
  position : Nat
  value : Int
  aux : Int
  cmask : Nat
  seq : Nat
  deriving DecidableEq, Repr

/-- What leaves the device at its ports; `out` of the state lists it oldest first. -/
inductive OutMsg where
  | bdp (dest : Peer) (bytes : Bytes)
  | can (cob : Nat) (brs : Bool) (data : Bytes)
  | dx (link : Fin 2) (ip : W32) (source port : Nat) (dscp : Nat) (df : Bool) (checksum : Nat) (payload : Bytes)
  | arpRequest (link : Fin 2) (ip : W32)
  | arpReply (link : Fin 2) (ip : W32) (dest : W32) (mac : BitVec 48)
  | icmpReply (link : Fin 2) (dest : W32) (data : Bytes)
  | ptp (net port domain kind seqId : Nat) (fields : List Int)
  | sync (bits : List Bool)
  | avs (mv : Nat)
  | refresh (ch : Fin 2) (rank : Nat) (count : Nat)
  | activate (ch : Fin 2) (rank bank row : Nat)
  | selfRefresh (ch : Fin 2) (enter : Bool)
  | tdo (bit : Bool)
  | probe (r : Route) (group : Nat) (ns : Nat) (codes : List (Int × Int))
  deriving DecidableEq, Repr

/-! ### Control: sessions, draft, images (12_dictionary.md) -/

/-- Who may hold the draft (R314). -/
inductive Client where
  | session (id : W32)
  | can
  deriving DecidableEq, Repr

/-- An open block write of a session (R322). -/
structure BlockWrite where
  key : Nat
  total : Nat
  data : Bytes
  deriving DecidableEq, Repr

/-- The read buffer of a session: the object of the last offset-0 read, its copy, and whether the object
has been written or has changed since (R321). -/
structure ReadBuf where
  key : Nat
  copy : Bytes
  touched : Bool
  deriving DecidableEq, Repr

/-- An open session (R324, R327): its level, key, highest executed SEQ, and the executed values among the 64
below it. -/
structure Session where
  id : W32
  level : Nat
  key : Bytes
  highest : Nat
  window : List Nat
  read : Option ReadBuf
  block : Option BlockWrite
  notifySeq : Nat
  deriving DecidableEq, Repr

/-- A CHALLENGE awaiting its PROOF (R324). -/
structure Challenge where
  id : W32
  level : Nat
  hostNonce : Bytes
  deviceNonce : Bytes
  deriving DecidableEq, Repr

/-- A cached response (R327). -/
structure Cached where
  session : W32
  seq : Nat
  bytes : Bytes
  deriving DecidableEq, Repr

/-- A subscription (R329). -/
structure Subscription where
  session : W32
  key : Nat
  mode : Nat
  interval : Nat
  peer : Peer
  last : Option Val
  deriving DecidableEq, Repr

/-- The open segmented SDO transfer (R330): the object, the bytes still to send or received so far. -/
structure SdoTransfer where
  key : Nat
  upload : Bool
  data : Bytes
  toggle : Bool
  deriving DecidableEq, Repr

/-- A stored configuration image (Table 12.6) with the values it carries. -/
structure Image where
  seq : Nat
  values : Dict
  signed : Bool
  sig : Bytes
  deriving DecidableEq, Repr

/-- A firmware slot (R340). -/
structure Firmware where
  version : Nat
  seq : Nat
  valid : Bool
  fails : Nat
  bytes : Bytes
  deriving DecidableEq, Repr

/-- The admission under way: of a commit with its asker, of a trial, or of a stored image at bring-up. -/
inductive Admission where
  | commit (v : Via) (asWrite : Bool) (values : Dict)
  | trial (values : Dict)
  | boot (slot : Option Bool) (values : Dict)
  deriving DecidableEq, Repr

/-- An admitted configuration awaiting its frame boundaries (R60): its values, sequence, the instant 2 ms
after admission, and the routes still to take it. -/
structure PendingConfig where
  values : Dict
  seq : Nat
  notBefore : Nat
  waitA : Bool
  waitB : Bool
  deriving DecidableEq, Repr

/-- Sessions, keys, the draft and the images. `keys` holds the keys of levels O, P and E (empty acts as 32
zero bytes, R323), `signKey` the key of OD 1200.14; slots are `false` A and `true` B; `geometry` holds
the values of OD 1600.01 to OD 1600.05 that the last reset took (R392); `admission` holds the admissions that run, oldest
first, and `canReply` the frame that answers a commit over CAN once it is admitted (R331). -/
structure Control where
  sessions : List Session
  challenges : List Challenge
  proofFails : List Nat
  lockout : Bool
  cache : List Cached
  subs : List Subscription
  sdo : Option SdoTransfer
  bootMsg : Bool
  holder : Option Client
  draft : Dict
  admission : List Admission
  canReply : Bytes
  pending : Option PendingConfig
  keyO : Bytes
  keyP : Bytes
  keyE : Bytes
  signKey : Bytes
  keysZeroised : Bool
  slotA : Option Image
  slotB : Option Image
  inForceSlot : Option Bool
  writing : Option (Bool × Image)
  lw : List (Nat × Val)
  geometry : List Nat
  fwA : Firmware
  fwB : Firmware
  fwRunning : Bool
  fwActivate : Bool
  deriving DecidableEq, Repr

/-! ### Optics and receive, per route (chapters 03, 04) -/

/-- A launch in flight: its number among the route's launches since the route start and its shot, its group, its
instant on the sample clock, whether it was made at the APR level, the range in force, the edge found, the flags it
carries to its frames (R92 to R98, R117, R130), and the configuration sequence and delivery bound in force (R77). -/
structure Launch where
  seq : Nat
  shot : Nat
  group : Nat
  ns : Nat
  apr : Bool
  aprState : Nat
  range : Nat
  c : Int
  edge : Bool
  closed : Bool
  missing : Bool
  judged : Bool
  compressed : Bool
  gainStep : Bool
  calStep : Bool
  flags : Nat
  cseq : Nat
  bound : Nat
  deriving DecidableEq, Repr

/-- Where a route start stands: the steps of Table 3.5. -/
inductive StartStep where
  | settle | dwell | ramp | done
  deriving DecidableEq, Repr

/-- Probe sequencer, launch monitor and power reduction of one route. A pump ramp runs from code `rampFrom` at cycle `rampAt` to `ramp`
(R87); `turned` tells that the OSW outputs of the route changed since its last start (R89, R91); `holdUntil` is the earliest cycle of
the next first frame boundary, t_c + RT + guard of what the commit or movement replaced (R62, R91), and `skipDue` tells that the frame
counters have still to advance across that interval; `frameFlags` and `frameFirst` are the
flags of the launches of the route frame in progress and its first launch with the delivery bound then (R183). -/
structure Optics where
  start : Option StartStep
  warm : Bool
  dwellDone : Bool
  sweepDone : Bool
  ramp : Option Nat
  rampFrom : Nat
  rampAt : Nat
  launching : Bool
  stopAt : Bool
  moving : Bool
  turned : Bool
  holdUntil : Nat
  skipDue : Bool
  shot : Nat
  launchSeq : Nat
  shotNs : Nat
  inFlight : List Launch
  missRun : Nat
  edgeSeen : Bool
  badRun : Nat
  goodRun : Nat
  eligible : Bool
  restoreHeld : Bool
  probe : Bool
  seqEntry : Nat
  seqFrames : Nat
  ramanRun : Nat
  frameNs : Nat
  frames : Nat
  frameFlags : Nat
  frameFirst : Option (Nat × Nat)
  silent : Nat
  configChange : Bool
  engineOut : Bool
  deriving DecidableEq, Repr

/-- A complex value of integer components. -/
structure Cpx where
  re : Int
  im : Int
  deriving DecidableEq, Repr

/-- What the blind estimator accumulates of one polarisation (R129): samples, sums of I and Q, of their squares and product, the sum of
the squared raw codes, and the correlations between +f and -f of the inner and the outer band. -/
structure BlindSum where
  n : Nat
  si : Int
  sq : Int
  sii : Nat
  sqq : Nat
  siq : Int
  power : Nat
  inner : Cpx
  outer : Cpx
  deriving DecidableEq, Repr

/-- An injection window (R124): the group of its launch, its first instant, and the two tones of each of its slots, in kHz from the carrier,
with their level in dB of full scale of the range in force. -/
structure Injection where
  group : Nat
  start : Int
  tones : List Int
  dbfs : Int
  deriving DecidableEq, Repr

/-- CRX of one route (chapter 04). `steps` lists the range steps with the range each brought and the one before, and `oldSets` the
correction sets replaced, both newest first with their instants: returns in flight straddle them. `held` tells which sets are held at a
limit (R123); `windows` are the injection windows of the last launches (R124), `gathered` those of the run in
progress; `blind` are the sums of both polarisations in the blind period. -/
structure Crx where
  lowRun : Nat
  pendingStep : Option (Nat × Nat)
  stepShot : Nat
  steps : List (Nat × Nat × Nat)
  sets : List CorrSet
  held : List Bool
  oldSets : List (Nat × List CorrSet)
  pendingSet : Option (List CorrSet × Bool)
  run : Bool
  windows : List Injection
  gathered : Nat
  blind : List BlindSum
  blindFrames : Nat
  blindStep : Bool
  lastRunNs : Nat
  calStepNs : Option Nat
  deriving DecidableEq, Repr

/-! ### Rayleigh processing (chapter 05) -/

/-- Marks of a bin handed to the slices (R142, R147). -/
inductive BinMark where
  | none | missing | blanked | settling
  deriving DecidableEq, Repr

/-- One bin of a launch: its rotated samples per channel, its mark and its clip mark. -/
structure Bin where
  z : List Cpx
  mark : BinMark
  clip : Bool
  deriving DecidableEq, Repr

/-- The launch whose bins the slices are working on (R147). -/
structure Handoff where
  launch : Launch
  bins : List Bin
  deriving DecidableEq, Repr

/-- What a position passes over the gauge ring (R148): its products, whether they are valid, and the span; beside them
the flags of its own loss, those of the losses it bridges by launch, and whether its sample primed the group, re-primed it, or its record
was reset. -/
structure Ring where
  d : List Cpx
  valid : Bool
  span : Nat
  cause : Nat
  why : List (Nat × Nat)
  unprimed : Bool
  reprime : Bool
  ecc : Bool
  deriving DecidableEq, Repr

/-- The position state record, bytes 0 to 59 (Table 5.3); `why` is the model's own: the frame flags of the losses of
each group since its last stored sample, by launch, of which the loss at unequal spans carries those that one member alone had (Table 5.4). -/
structure PosRec where
  zp : List Cpx
  vh : List Int
  plast : Int
  conf : Int
  lvl : Int
  gap : List Nat
  vset : Bool
  lastg : Nat
  lseq : Nat
  why : List (List (Nat × Nat))
  deriving DecidableEq, Repr

/-- What a slice passes to the filter chain (R156): a valid update, or a lost one with the flags of its
cause, whether the group was re-primed, and whether the record was reset by an uncorrectable error. -/
inductive Update where
  | valid (delta v : Int) (mq span : Nat) (faded clip : Bool)
  | lost (flags : Nat) (reprime ecc : Bool)
  deriving DecidableEq, Repr

/-- The FDC fields of a position: Tables 8.3 and 8.4. -/
structure FdcRec where
  be : List Nat
  mn : Int
  mx : Int
  floor : List Int
  outs : Nat
  hold : Nat
  finit : Bool
  ps0 : Int
  ps1 : Int
  int : Int
  w1 : List Int
  w2 : List Int
  deriving DecidableEq, Repr

/-- The merge state of a merged position (Table 6.3). -/
structure MergeRec where
  u : Int
  ua : Int
  ub : Int
  mpA : Bool
  mpB : Bool
  mseq : Nat
  deriving DecidableEq, Repr

/-- Route engine and slice state of one route. `prevCoil` holds the stage 3 samples and marks of every bin of the last launch of each group
(R144), none of a missing one; `ring` and `updates` are those of the launch in hand. -/
structure Rayleigh where
  prevCoil : Map (List (List Cpx × BinMark))
  handoff : Option Handoff
  ring : Map Ring
  updates : Map Update
  recs : Map PosRec
  deriving DecidableEq, Repr

/-! ### Filter chain (chapter 08) -/

/-- A coefficient bank or a blend of two (Table 8.2). -/
structure Bank where
  l : Nat
  dh : Int
  eshift : Int
  bands : List (List Int)
  taps : List Int
  deriving DecidableEq, Repr

/-- The tables of a filter chain, held as the chain starts or a staged commit takes effect (R29, R30, R233): inputs
per route frame, decimation, frame multiples, scaling, floors and events, the positions and the banks. -/
structure FdcParams where
  sentinel : Bool
  fg : Nat
  tin : Nat
  ft : Nat
  r : Nat
  q : Nat
  qb : Nat
  kind : Nat
  ss : Nat
  ms : Nat
  kleak : Nat
  kx : Nat
  nb : Nat
  minmax : Bool
  strainOn : Bool
  bandOn : Bool
  ns1 : Nat
  ns2 : Nat
  rise : Nat
  fall : Nat
  hold : Nat
  gap : Nat
  events : Nat
  first : Nat
  step : Nat
  count : Nat
  pitch : Nat
  banks : List (Option Bank)
  deriving DecidableEq, Repr

/-- The threshold objects that carry L: enable, margins, peak (Table 8.5). -/
structure Thresholds where
  enable : Nat
  margins : List Nat
  peak : Nat
  deriving DecidableEq, Repr

/-- What a route frame brings to the stream frames that hold it: the launch of its first input, its first
contributing shot, its flags, the configuration sequence, the delivery bound and the switch position (R58, R234). -/
structure FrameInfo where
  start : Nat
  first : Option Nat
  flags : Nat
  cseq : Nat
  bound : Nat
  pos : Nat
  deriving DecidableEq, Repr

/-- A filter chain on its tables: the route frames before its first, the input index, the records, the inputs of the last block, the bank it started on
and the swaps since as first block, bank left and bank taken, newest first (R230), the strain-rate frame in the making with its number and rows, the band-energy frame with its number and outputs, and the route frames
not yet closed. `stop` is the index of t_c when launches end or a new chain takes over (R233, R491); `short` lets
the frames in progress close with what they hold (R63); `fresh` is false
where outputs before the first frame boundary are those of the chain before; `ths` are the threshold objects with the input index from
which each holds, newest first (R30). -/
structure FdcCtx where
  par : FdcParams
  base : Nat
  index : Nat
  stop : Option Nat
  short : Bool
  fresh : Bool
  recs : Map FdcRec
  block : Map (List Int)
  bank0 : Nat
  swaps : List (Nat × Nat × Nat)
  queued : Option Nat
  sNum : Nat
  sRows : List (List Int)
  sUnset : Bool
  bNum : Nat
  bOuts : Nat
  bClip : Bool
  bUnset : Bool
  infos : Map FrameInfo
  inputs : Map (List Int)
  ths : List (Nat × Thresholds)
  deriving DecidableEq, Repr

/-- The filter chain of one route: the chain in force and, after staged commits, the chains it replaces, oldest first, until their
outputs are complete. -/
structure Fdc where
  cur : Option FdcCtx
  old : List FdcCtx
  deriving DecidableEq, Repr

/-- A stream frame computed and waiting for its hand-over: what its Waybill carries, its payload and the plane that
Pannier codes, its deadline, the event records that go with it, and what the Forager engine takes (R225, R237,
R256). -/
structure ReadyFrame where
  stream : Nat
  routeCode : Nat
  fcount : Nat
  tstart : Int
  period : Nat
  first : Nat
  count : Nat
  pitch : Nat
  quality : Nat
  cseq : Nat
  pos : Nat
  payload : Bytes
  plane : List (List Int)
  cols : Nat
  deadline : Nat
  send : Bool
  events : List EventRec
  block : List Int
  inputs : Map (List Int)
  closing : Int
  deriving DecidableEq, Repr

/-! ### Temperature (chapter 07) -/

/-- A tracker record (Table 7.3). -/
structure TrackRec where
  amp : List Int
  ofs : Int
  lref : Int
  deriving DecidableEq, Repr

/-- The tracker state of a position or coil window and group: two records, the role bit, the run of non-strong updates,
and a re-base due after an uncorrectable reference (Table 14.3). -/
structure Track where
  rec0 : TrackRec
  rec1 : TrackRec
  role : Bool
  weak : Nat
  rebase : Bool
  deriving DecidableEq, Repr

/-- The sums a position gathers in a frame: strong updates, their sum, and a re-base. -/
structure TrackSum where
  n : Nat
  sum : Int
  rebased : Bool
  deriving DecidableEq, Repr

/-- The fusion state of a point (R213). -/
structure Fusion where
  o : Int
  t : Int
  qLast : Bool
  deriving DecidableEq, Repr

/-- A Raman block of an end (R191 to R194): the lane accumulators, the pulses included and scheduled, the launch of its first contributing
shot with the delivery bound then, its flags, and the tracker's sums of the frame by position (R212). -/
structure RamanBlock where
  stokes : List Int
  anti : List Int
  pulses : Nat
  scheduled : Nat
  first : Option (Nat × Nat)
  flags : Nat
  sums : Map TrackSum
  deriving DecidableEq, Repr

/-- Raman accumulation, tracker and fusion of one route. Of the Raman frame: the block in progress, the one after it while returns of the
first are still to come, the pulse whose window is open with the instant of its shot, the start of the block, and where a commit cuts it the boundary and
the configuration until then (R194); then the coil constants, the profile of the points that have one, fusion and the frames since the route
start. Of the tracker: records, the launch that primed each group with its coil temperature, the launch whose windows are processed with
the positions done, the quasi-static frame in progress, and the end each merged position was last taken from. Of
calibration: the frames left of a run with its sum and count, and the runs that the last frames took (R200, R406). -/
structure Thermal where
  block : RamanBlock
  next : RamanBlock
  pulse : Option (Nat × Nat)
  blockNs : Nat
  cut : Option (Nat × Dict)
  kc : Int
  kEnds : Int × Int
  hold : Bool
  profile : List (Option Int)
  deltaB : Int
  profileSet : Bool
  fusion : Map Fusion
  frames : Nat
  tracks : Map Track
  coil : Map Track
  primed : Map Nat
  tc0 : Map Int
  trackSeq : Option Nat
  trackDone : List Nat
  qSums : Map TrackSum
  qFlags : Nat
  qFirst : Option (Nat × Nat)
  qNs : Nat
  sources : Map Bool
  calFrames : Option Nat
  calSum : Int
  calN : Nat
  calUsed : Option Nat
  calUsedQ : Option Nat
  calNowQ : Option Nat
  retired : Bool
  deriving DecidableEq, Repr

/-! ### Survey (chapter 06) -/

/-- One event of the fibre map (Table 6.5). -/
structure FibreEvent where
  loc : Nat
  type : Nat
  height : Int
  loss : Int
  level : Nat
  deriving DecidableEq, Repr

/-- A survey frame whose route frame has ended while returns of its launches are still to come (R183): the route frame from its start to its
end, its first launch with the delivery bound then, the flags so far, the kinds of frame it sends, and the configuration sequence and switch position. -/
structure FibreDue where
  start : Nat
  stop : Nat
  first : Nat × Nat
  flags : Nat
  trace : Bool
  map : Bool
  cseq : Nat
  pos : Nat
  deriving DecidableEq, Repr

/-- The survey accumulators and results of one end; `codes` are the pump codes of the run, `ended` tells that its normal phase is over,
`aprFrom` is the first instant of the APR phase, `mapDue` a map frame awaiting the end of its route frame, and `dues` are the frames that
await the returns of their launches, oldest first. -/
structure SurveyEnd where
  s : List Nat
  w : List Nat
  launches : Nat
  aprSum : Nat
  aprLaunches : Nat
  events : List FibreEvent
  overflow : Bool
  floor : Nat
  endBin : Option Nat
  window : Option (Nat × Nat)
  pn : Nat
  pa : Option Nat
  codes : Nat × Nat
  ended : Bool
  aprPhase : Bool
  aprFrom : Nat
  mapDue : Bool
  dues : List FibreDue
  deriving DecidableEq, Repr

/-- The proposals kept from the last COMPLETE run of one end (Table 6.1). -/
structure Proposals where
  index : Nat
  coil : Option (Nat × Nat)
  window : Option (Nat × Nat)
  pn : Nat
  pa : Nat
  codes : Nat × Nat
  deriving DecidableEq, Repr

/-- A survey run: idle, its normal phase, or its APR phase; and whether a run completed since entry. -/
structure Survey where
  phase : Nat
  runs : Nat
  done : Bool
  lambda : Nat
  supporters : Nat
  endA : SurveyEnd
  endB : SurveyEnd
  propA : Proposals
  propB : Proposals
  propLambda : Nat
  deriving DecidableEq, Repr

/-! ### Capture (chapter 10) -/

/-- A line of the Comb: its entries, whether it was written (a discarded line keeps the old content of its place), the route frame of its
launch, and whether a scrub found a burst of it uncorrectable (Table 14.3). -/
structure CombLine where
  vals : List Int
  written : Bool
  frame : Nat
  bad : Bool
  deriving DecidableEq, Repr

/-- The Comb of a route (R270 to R274): the instant of line 0, the next line number, the lines held, the last valid value
of each position, the launch last written, and the flags of the route frames of its lines. -/
structure Comb where
  started : Bool
  tC : Nat
  next : Nat
  lines : Map CombLine
  last : Map Int
  lastSeq : Option Nat
  quals : Map Nat
  halved : Bool
  deriving DecidableEq, Repr

/-- A capture in progress (R278 to R282), on the objects of its slot and Comb at acceptance: the trigger accepted, its source, its instant in
2^-16 ns and the cycle of acceptance; once line 0 has been written its line; triggers that came before line 0; the sources and flags, the first
line of the window and the next one to read, the lines read so far and the lines held. -/
structure Capture where
  src : Nat
  accepted : Nat
  placed : Bool
  early : List (Nat × Int)
  read : Nat
  route : Route
  kind : Nat
  first : Nat
  count : Nat
  pre : Nat
  post : Nat
  red : Nat
  tC : Nat
  tL : Nat
  ttime : Int
  tline : Nat
  sources : Nat
  cflags : Nat
  start : Nat
  next : Nat
  lines : List CombLine
  deriving DecidableEq, Repr

/-- A completed capture: its header and window data, the size and address of its area, and whether it was retained over a warm
reset. -/
structure Held where
  header : Bytes
  data : Bytes
  area : Nat
  addr : Nat
  retained : Bool
  deriving DecidableEq, Repr

/-- A capture slot: the capture in progress, the one held, the priming of the data trigger with the value of the line
before, and the captures completed. The state code of Table 10.2 is OD 28s0.20. -/
structure CapSlot where
  copying : Option Capture
  held : Option Held
  primedUp : Bool
  primedDown : Bool
  prev : Option Int
  seq : Nat
  deriving DecidableEq, Repr

/-- The whole of one route. `fcount` counts the frame periods of each stream and `carry` holds the flags its next
frame carries; `oldCfg` is the configuration of the launches before a number, while returns of it are in flight
(R62). -/
structure RouteState where
  optics : Optics
  crx : Crx
  ray : Rayleigh
  fdc : Fdc
  thermal : Thermal
  comb : Comb
  fcount : List Nat
  carry : List Nat
  ready : List ReadyFrame
  oldCfg : Option (Nat × Dict)
  cutCount : Map (Nat × Nat)
  deriving DecidableEq, Repr

/-- The rotating spare (R159 to R163); the mapping, status and counts are OD 2400.ss. -/
structure Slices where
  pendingRho : Option Nat
  takeover : Bool
  passed : Bool
  sinceNs : Nat
  inPlace : List Nat
  deriving DecidableEq, Repr

/-- The loop merge (R178 to R182): its records, the number of the loop instant in hand, what it emitted at it (dm, U,
span and flags, or nothing), and the first instant of a cut count; route A's `cutCount` holds, per block of 64 positions,
the updates in which A and B were the reference. -/
structure Loop where
  recs : Map MergeRec
  instant : Nat
  emitted : Map (Option (Int × Int × Nat × Nat))
  cutFrames : Option Nat
  deriving DecidableEq, Repr

/-! ### Forager (chapter 09) -/

/-- A level of the loop stack (Table 9.2). -/
structure LoopLevel where
  start : BitVec 12
  stop : BitVec 12
  count : BitVec 16
  deriving DecidableEq, Repr

/-- A class L or M result still to land (R245): register, shadow bank when set, value, and whether it saturated. -/
structure Landing where
  reg : Fin 16
  shadow : Bool
  value : W32
  sat : Bool
  deriving DecidableEq, Repr

/-- An input frame of a slot: words 0 to 6 of its descriptor and the words of its block (Table 9.10), whether the frame
port has written it and in which order, whether it is the first after a route start, and what the feature frame takes
from it: the Waybill fields, the deadline and the closing frame boundary. -/
structure InputFrame where
  desc : List W32
  block : List W32
  transferred : Bool
  order : Nat
  routeStart : Bool
  routeCode : Nat
  fcount : Nat
  tstart : Int
  period : Nat
  quality : Nat
  first : Nat
  count : Nat
  pitch : Nat
  pos : Nat
  cseq : Nat
  deadline : Nat
  closing : Int
  deriving DecidableEq, Repr

/-- A program slot of a core: the input frame that waits, the event queue, the invocations since the load, the marks of
the next descriptor, and the flags of the next feature frame (R258 to R265). -/
structure FSlot where
  waiting : Option InputFrame
  queue : List EventRec
  invocations : Nat
  skipped : Bool
  aborted : Bool
  routeStart : Bool
  loaded : Bool
  late : Bool
  reduced : Bool
  deriving DecidableEq, Repr

/-- What a core is doing: gated, in a handler, or in the frame program. -/
inductive CoreRun where
  | gated | handler | frame
  deriving DecidableEq, Repr

/-- A Forager core: memories, registers of Table 9.2 with their shadow copies, the branch
whose delay slots run, results still to land, and the invocation: its slot with the record it runs on, its input frame,
the events not yet handled, the cycle count, the buffers of R260 and R261; then the slots, the transfers made, the
snapshots of the last HALT, a load that waits, and the instant of the last uncorrectable error. -/
structure Core where
  p : WordMem
  x : WordMem
  y : WordMem
  g : Vector W32 16
  gs : Vector W32 8
  a : Vector (BitVec 13) 8
  as : Vector (BitVec 13) 4
  n : Vector (BitVec 16) 8
  aca : BitVec 72
  acb : BitVec 72
  acbs : BitVec 72
  status : BitVec 16
  statuss : BitVec 16
  loops : List LoopLevel
  pc : BitVec 12
  branch : Option (Nat × BitVec 12)
  landing : List Landing
  run : CoreRun
  slot : Fin 4
  record : Bytes
  input : Option InputFrame
  taken : List EventRec
  cycles : Nat
  outBuf : List W32
  evtBuf : List EventRec
  slots : Vector FSlot 4
  transfers : Nat
  xSnap : WordMem
  ySnap : WordMem
  loadPending : Bool
  retired : Bool
  lastEcc : Option Nat
  flaws : List CoreFlaw
  deriving DecidableEq, Repr

/-! ### Streams (chapter 11) -/

/-- A frame in the output backlog. `next` is the next fragment on each link, `none` where it is not to be
sent; `entered` the instant its first packet entered each link; `lost` tells that no copy is sent, `counted` that it is among the frames
dropped late already. -/
structure Frame where
  stream : Nat
  route : Nat
  fcount : Nat
  deadline : Option Nat
  bytes : Bytes
  next : Vector (Option Nat) 2
  entered : Vector (Option Nat) 2
  replay : Bool
  started : Bool
  lost : Bool
  counted : Bool
  records : Nat
  deriving DecidableEq, Repr

/-- A destination entry (R298). -/
structure ArpEntry where
  link : Fin 2
  ip : W32
  mac : BitVec 48
  misses : Nat
  deriving DecidableEq, Repr

/-- The stream engine. `moved` lists the streams sent on the other link, `returning` those that go back at their next
frame boundary, `suspended` the copies of dual-routed streams that a lost link takes (R297); `at10` and `trying10` a link
that fell back to 10GBASE-R; `paceNs` the instant from which stream 0x09 may send again and
`paced` its packets of the last 100 µs, with their start and wire bytes (R300); `lateDevice` the streams
without a route that owe LATE_DROP; `degraded` that frames carry DEGRADED_MEM (R384). -/
structure Streams where
  backlog : List Frame
  gathered : List EventRec
  gatheredNs : Option Nat
  lastClose : Option Nat
  queue : List EventRec
  seq : Nat
  arp : List ArpEntry
  moved : List (Nat × Fin 2)
  returning : List Nat
  suspended : List (Nat × Fin 2)
  paceNs : Vector Nat 2
  paced : Vector (List (Nat × Nat)) 2
  lateDevice : List Nat
  at10 : Vector Bool 2
  trying10 : Vector Bool 2
  evCount : Vector Nat 16
  log : List EventRec
  held : List EventRec
  degraded : Bool
  deriving DecidableEq, Repr

/-! ### Time (chapter 13) -/

/-- A queued time-stamp (R359). -/
structure Stamp where
  time : Int
  input : Nat
  rising : Bool
  count : Nat
  state : Nat
  deriving DecidableEq, Repr

/-- A time-stamp or trigger input: the level last recognised (none before the first edge), the last stamped edge in 2^-16 of a sample clock,
the edges of the present ms, the queue. -/
structure TsInput where
  level : Option Bool
  last : Option Int
  inMs : Nat
  queue : List Stamp
  deriving DecidableEq, Repr

/-- A TDC channel: the tables of its two lines and the line in use (R355). -/
structure TdcChannel where
  table0 : List Int
  table1 : List Int
  line1 : Bool
  deriving DecidableEq, Repr

/-- The time unit (R343 to R351, R360): device time, the cycles of the sample clock counted since power-on, on which launches, frames and
deadlines stand (R24), the changes of device time or of its rate (cycle, device time in 2^-48 ns there and increment before, newest
first), by which a past cycle has the device time it had (R343); integ, the runs of θ within and beyond the thresholds, whether the
first θ of a reference decides the state, the watch on PPS_IN, REFIN and the SYNC bus with their last θ, the offsets of
PTP in this second, the start of HOLDOVER, the level of OCXO_WARM and whether it has been warm, the time-stamp frame
being gathered with its start, the TDC channels and whether a calibration runs, the changes of the time state (cycle and state left, newest
first, R350), and the edges of the frequency counter in the gate that runs with the stamps of the first and the last (R361). -/
structure TimeUnit where
  ns : Nat
  frac : Nat
  cycles : Nat
  marks : List (Nat × Int × Int)
  integ : Int
  lockRun : Nat
  farRun : Nat
  fresh : Bool
  lastPps : Option Int
  ppsGood : Nat
  ppsMiss : Nat
  ppsTheta : Option Int
  refinGood : Nat
  refinBad : Nat
  ptpThetas : List Int
  syncTheta : Option Int
  syncGood : Nat
  syncBad : Nat
  holdNs : Nat
  warm : Bool
  warmDone : Bool
  stamps : List Stamp
  stampsNs : Nat
  channels : List TdcChannel
  calibrating : Bool
  states : List (Nat × Nat)
  gateEdges : Option (Nat × Int × Int)
  deriving DecidableEq, Repr

/-- A master a port has heard (IEEE 1588 announce data, R353), with the instants of its last Announce messages, newest first. -/
structure Master where
  source : BitVec 64
  data : List Nat
  times : List Nat
  deriving DecidableEq, Repr

/-- The PTP port (R353): the best master heard, the masters heard lately, a two-step Sync that awaits its Follow_Up (number, ingress, correction), the
last origin and ingress instants, the delay request sent (number, egress), a Pdelay_Resp that awaits its Follow_Up, the
last path delays, and the numbers of its own messages. -/
structure Ptp where
  master : Option Master
  foreign : List Master
  sync : Option (Nat × Int × Int)
  lastSync : Option (Int × Int)
  delaySent : Option (Nat × Int)
  pdelay : Option (Int × Int × Int)
  delays : List Int
  syncSeq : Nat
  announceSeq : Nat
  delaySeq : Nat
  deriving DecidableEq, Repr

/-- The SYNC bus unit: triggers waiting to be sent, the instant of the request of this second, the request to return in
the next leader message, t4 - t3 of the last cycle 0, the last path delays, the units heard in this second, whether a
message of its own was sent in this cycle, and whether a leader message came in it. -/
structure SyncBus where
  queue : List (Nat × Int)
  t1 : Option Int
  reply : Option (Nat × Int)
  lastHalf : Option Int
  delays : List Int
  heard : List Nat
  sending : Bool
  sawLeader : Bool
  deriving DecidableEq, Repr

/-! ### Memory (chapter 14) -/

/-- The work that a DRAM request serves (Table 14.1): a Comb line, a backlog frame by stream, route code and counter, a tracker record, the
copy of a capture, or a read of the host. -/
inductive Work where
  | comb (r : Route)
  | frame (stream route fcount : Nat)
  | tracker (r : Route) (pos : Nat)
  | capture (slot : Fin 8)
  | host
  deriving DecidableEq, Repr

/-- A request of a DRAM channel (R373): its class, its rank, bank and row, the work it serves, and the deadline of class 1 (R376). -/
structure DramReq where
  cls : Nat
  place : Nat × Nat × Nat
  work : Work
  deadline : Option Nat
  deriving DecidableEq, Repr

/-- A DRAM channel: refresh debt per rank, open rows by rank, bank and row, neighbour refreshes queued with the cycle of each, the requests in
order of their entry, how often in a row a request to an open row went ahead, the cycle to which each rank refreshes, and the training in
force with its PHY temperature. -/
structure Dram where
  debt : Vector Nat 2
  hot : Bool
  coolReads : Nat
  openRows : List (Nat × Nat × Nat)
  neighbours : List ((Nat × Nat × Nat) × Nat)
  queue : List DramReq
  hits : Nat
  busy : Vector Nat 2
  retrainDue : Bool
  retiring : Bool
  copied : Bool
  training : Option Training
  selfRefresh : Bool
  scrub : Nat
  lastTrainNs : Nat
  lastTemp : Int
  patternsBad : Bool
  deriving DecidableEq, Repr

/-- Rows of the on-chip stores under watch: corrected errors with their instants, suspects, rows whose
test found a lasting fault, replaced and retired rows, and the Hive rows that the last layout places no record in (R389); rows are numbered
(store, bank, row). -/
structure Rows where
  corrected : List (Nat × Nat × Nat × Nat)
  suspects : List (Nat × Nat × Nat)
  lasting : List (Nat × Nat × Nat)
  spared : List (Nat × Nat × Nat)
  retired : List (Nat × Nat × Nat)
  skipped : List (Nat × Nat × Nat)
  deriving DecidableEq, Repr

/-! ### Housekeeping (chapter 15) -/

/-- What a converter is converting. -/
inductive HkaJob where
  | idle
  | coil
  | entry (i : Nat)
  | injected (i : Nat)
  | cal (gain : Nat) (ref : Bool)
  deriving DecidableEq, Repr

/-- One housekeeping converter: its job, the objects of chapter 15 it runs on (R408), the next entry of its sequence and
whether a pass still has work for it, entry 0 still due (the coil entry where the chain is enabled), its injected entries pending, the gains a
calibration has still to convert with the zero average of the gain in hand, the corrections found, a run asked for and the gains it
converts, the corrections in force and awaiting the next sequence boundary, the gains that completed runs have calibrated, the last reset of
the filter in the conversion in hand (R402), and retirement. -/
structure Hka where
  job : HkaJob
  cfg : Dict
  next : Nat
  inPass : Bool
  coilDue : Bool
  injected : List Nat
  calLeft : List Nat
  calZero : Option Int
  calNew : List (Int × Nat)
  calAsked : Bool
  calGains : List Nat
  corr : List (Int × Nat)
  corrNew : Option (List (Int × Nat) × List Nat)
  calibrated : List Nat
  resetNs : Option Nat
  retired : Bool
  deriving DecidableEq, Repr

/-- Both converters and what they share: a pass and a calibration run in progress, a run or a trigger held, the instant
from which committed objects are taken, the excitation codes at IEXC0 and IEXC1 with a change that is due, the coil codes of the entry in hand with their UNSETTLED marks, and the run whose corrections are
in force and the one that the last coil result used (R406). -/
structure Housekeeping where
  hka0 : Hka
  hka1 : Hka
  passing : Bool
  calRunning : Bool
  calHeld : Bool
  trigHeld : Bool
  cfgFrom : Nat
  iexc : Nat × Nat
  excitationDue : Option (Nat × Nat)
  coil0 : Option (Int × Bool)
  coil1 : Option (Int × Bool)
  applied : Nat
  coilRun : Nat
  deriving DecidableEq, Repr

/-! ### Clocks, power, integrity (chapters 16, 17) -/

/-- A clock domain: whether it runs on its PLL, the switch under way with its target, whether the host asked,
the repeats of a refused switch, and local reset. -/
structure Domain where
  onPll : Bool
  target : Option Bool
  refused : Option Bool
  repeats : Nat
  localReset : Bool
  deriving DecidableEq, Repr

/-- A mode transition under way (R439): the target, the routes whose launches have still to end. -/
structure Transition where
  target : Nat
  waitA : Bool
  waitB : Bool
  deriving DecidableEq, Repr

/-- Clocks, power, modes and resets. `bringUp` is the step of Table 16.8 reached, none outside BRING-UP, with the cycle from which its time is
counted and the microseconds before; `gatesOpen` are the automatic gates that a failed handshake left open (R429); `pllsSince` and `pllmSince` are the
cycles from which PLL-S and PLL-M hold lock (R463). -/
structure Power where
  vaon : Bool
  supplyOk : Bool
  resetLow : Bool
  bringUp : Option Nat
  bringUpNs : Nat
  bringUpUs : Nat
  toSafe : Bool
  fromWake : Bool
  warm : Bool
  transition : Option Transition
  wakeKept : Nat
  fromSentinel : Bool
  awaited : Option Nat
  lastThreshold : Nat
  safeRequest : Bool
  dead : Bool
  domains : Vector Domain 4
  avsHigh : Nat
  rtcSec : Nat
  rtcSub : Nat
  pllsSince : Option Nat
  pllmSince : Option Nat
  xt1Held : Bool
  domainBistFailed : Bool
  gatesOpen : List AutoGate
  deriving DecidableEq, Repr

/-- The state of a Keeper at the arbiter (R459). -/
inductive KeeperState where
  | active | standby | stopped | retired
  deriving DecidableEq, Repr

/-- The always-on arbiter (R459 to R461). -/
structure Arbiter where
  stateA : KeeperState
  stateB : KeeperState
  holder : Option Keeper
  epoch : Nat
  beatA : Bool
  beatB : Bool
  missA : Nat
  missB : Nat
  data : Vector Nat 2
  deriving DecidableEq, Repr

/-- A targeted self-test running or pending (R450), with the failed first run, if any. -/
structure Test where
  unit : TestUnit
  failedOnce : Bool
  deriving DecidableEq, Repr

/-- Tests, their transient outcomes with their instants, a full BIST under way, scan. -/
structure Integrity where
  tests : List Test
  transients : List (TestUnit × Nat)
  bistMask : Nat
  bistLeft : List Nat
  bistFailing : Nat
  bistStep6 : Bool
  bistPassed : Nat
  scan : Bool
  otpLocked : Bool
  deriving DecidableEq, Repr

/-- The JTAG port: TAP controller state (0 Test-Logic-Reset), the instruction in force (none where Test-Logic-Reset selects
IDCODE), instruction and data shift registers with the bit next at TDO first, the level at TCK, TDO and whether it is
driven (R458). -/
structure Jtag where
  tap : Nat
  ir : Option Nat
  irShift : List Bool
  dr : List Bool
  tckHigh : Bool
  tdo : Bool
  driven : Bool
  deriving DecidableEq, Repr

/-- The levels at the output balls and the codes of the control DAC lanes (Tables 3.3, 3.9, R472). The lanes
2, 3 and 4 are clamped to zero while their clamp is set. Of BLANK (R120): the level at the ball, whether it is asserted, whether the assertion
has been recognised, since which cycle, and the intervals blanked. -/
structure Pins where
  optSafeN : Bool
  edfaA : Bool
  edfaB : Bool
  modMutedA : Bool
  modMutedB : Bool
  dtspA : Bool
  dtspB : Bool
  dtspHeldA : Bool
  dtspHeldB : Bool
  oswA : Nat
  oswB : Nat
  cdac : Vector Nat 8
  clampA : Bool
  clampB : Bool
  clampR : Bool
  faultN : Bool
  pwrEn : Bool
  ppsOut : Bool
  evtOut0 : Bool
  evtOut1 : Bool
  blankLevel : Bool
  blank : Bool
  blankSeen : Bool
  blankSince : Nat
  blanked : List (Nat × Nat)
  deriving DecidableEq, Repr

/-- The whole block. `pending` is the queue of waiting commands, first in first out; `free` counts the free
values drawn (the model's own field); `out` lists what has left the ports. -/
structure State where
  pending : List Instr
  free : Nat
  out : List OutMsg
  od : Dict
  control : Control
  power : Power
  pins : Pins
  arbiter : Arbiter
  integrity : Integrity
  jtag : Jtag
  routeA : RouteState
  routeB : RouteState
  slices : Slices
  loop : Loop
  survey : Survey
  cores : Vector Core 8
  capture : Vector CapSlot 8
  streams : Streams
  time : TimeUnit
  ptp : Ptp
  sync : SyncBus
  inputs : Vector TsInput 8
  trigIn : Vector TsInput 2
  dram : Vector Dram 2
  rows : Rows
  hka : Housekeeping
  deriving DecidableEq, Repr

/-- The reasons a step can stop. No command of this block stops with a fault: every event the spec describes
is a next state (an error of the hardware is a record, a count or an entry into SAFE). The one constructor is
raised by nobody and keeps the type inhabited. -/
inductive Fault where
  /-- Raised by no command; safe. -/
  | none
  deriving DecidableEq, Repr

/-- The reasons a step can be refused. -/
inductive Refusal where
  /-- An arm of the dispatch whose meaning is not written yet; safe. -/
  | notModelled (mnemonic : String)
  deriving DecidableEq, Repr

/-! ### The state after reset -/

/-- The optics of a route after reset. -/
def Optics.reset : Optics :=
  { start := none, warm := false, dwellDone := false, sweepDone := false, ramp := none, rampFrom := 0, rampAt := 0,
    launching := false, stopAt := false, moving := false, turned := false, holdUntil := 0, skipDue := false, shot := 0, launchSeq := 0, shotNs := 0, inFlight := [], missRun := 0,
    edgeSeen := false, badRun := 0, goodRun := 0, eligible := false, restoreHeld := false, probe := false,
    seqEntry := 0, seqFrames := 0, ramanRun := 0, frameNs := 0, frames := 0, frameFlags := 0, frameFirst := none, silent := 0, configChange := false,
    engineOut := false }

/-- The CRX of a route after reset: no correction set is valid. -/
def Crx.reset : Crx :=
  { lowRun := 0, pendingStep := none, stepShot := 0, steps := [], sets := [], held := [], oldSets := [], pendingSet := none, run := false,
    windows := [], gathered := 0, blind := [],
    blindFrames := 0, blindStep := false, lastRunNs := 0, calStepNs := none }

/-- The Rayleigh processing of a route after reset. -/
def Rayleigh.reset : Rayleigh :=
  { prevCoil := [], handoff := none, ring := [], updates := [], recs := [] }

/-- The filter chain of a route after reset. -/
def Fdc.reset : Fdc := { cur := none, old := [] }

/-- A Raman block before any pulse. -/
def RamanBlock.reset : RamanBlock := { stokes := [], anti := [], pulses := 0, scheduled := 0, first := none, flags := 0, sums := [] }

/-- The temperature paths of a route after reset. -/
def Thermal.reset : Thermal :=
  { block := RamanBlock.reset, next := RamanBlock.reset, pulse := none, blockNs := 0, cut := none,
    kc := 0, kEnds := (0, 0), hold := false, profile := [], deltaB := 0, profileSet := false, fusion := [], frames := 0,
    tracks := [], coil := [], primed := [], tc0 := [], trackSeq := none, trackDone := [], qSums := [],
    qFlags := 0, qFirst := none, qNs := 0, sources := [], calFrames := none, calSum := 0, calN := 0, calUsed := none,
    calUsedQ := none, calNowQ := none, retired := false }

/-- The Comb of a route after reset. -/
def Comb.reset : Comb :=
  { started := false, tC := 0, next := 0, lines := [], last := [], lastSeq := none, quals := [], halved := false }

/-- A route after reset. -/
def RouteState.reset : RouteState :=
  { optics := Optics.reset, crx := Crx.reset, ray := Rayleigh.reset, fdc := Fdc.reset, thermal := Thermal.reset,
    comb := Comb.reset, fcount := List.replicate 16 0, carry := List.replicate 16 0, ready := [], oldCfg := none, cutCount := [] }

/-- The survey results of an end before any run. -/
def SurveyEnd.reset : SurveyEnd :=
  { s := [], w := [], launches := 0, aprSum := 0, aprLaunches := 0, events := [], overflow := false, floor := 0,
    endBin := none, window := none, pn := 0, pa := none, codes := (0, 0), ended := false, aprPhase := false, aprFrom := 0, mapDue := false, dues := [] }

/-- The proposals of an end before any run. -/
def Proposals.reset : Proposals := { index := 0, coil := none, window := none, pn := 0, pa := 0, codes := (0, 0) }

/-- A program slot of a core after reset. -/
def FSlot.reset : FSlot :=
  { waiting := none, queue := [], invocations := 0, skipped := false, aborted := false, routeStart := false,
    loaded := false, late := false, reduced := false }

/-- A Forager core after reset: memories zero, P reading HALT, registers zero, gated. -/
def Core.reset : Core :=
  { p := [], x := [], y := [], g := Vector.replicate 16 0, gs := Vector.replicate 8 0,
    a := Vector.replicate 8 0, as := Vector.replicate 4 0, n := Vector.replicate 8 0, aca := 0, acb := 0, acbs := 0,
    status := 0, statuss := 0, loops := [], pc := 0, branch := none, landing := [], run := .gated, slot := 0,
    record := [], input := none, taken := [], cycles := 0, outBuf := [], evtBuf := [],
    slots := Vector.replicate 4 FSlot.reset, transfers := 0, xSnap := [], ySnap := [], loadPending := false, retired := false, lastEcc := none, flaws := [] }

/-- A capture slot after reset. -/
def CapSlot.reset : CapSlot :=
  { copying := none, held := none, primedUp := true, primedDown := true, prev := none, seq := 0 }

/-- The stream engine after reset: counters at 0, nothing queued. -/
def Streams.reset : Streams :=
  { backlog := [], gathered := [], gatheredNs := none, lastClose := none, queue := [], seq := 0, arp := [],
    moved := [], returning := [], suspended := [], paceNs := Vector.replicate 2 0, paced := Vector.replicate 2 [], lateDevice := [], at10 := Vector.replicate 2 false, trying10 := Vector.replicate 2 false,
    evCount := Vector.replicate 16 0, log := [], held := [], degraded := false }

/-- The time unit after reset. -/
def TimeUnit.reset : TimeUnit :=
  { ns := 0, frac := 0, cycles := 0, marks := [], integ := 0, lockRun := 0, farRun := 0, fresh := false, lastPps := none,
    ppsGood := 0, ppsMiss := 0, ppsTheta := none, refinGood := 0, refinBad := 0, ptpThetas := [], syncTheta := none,
    syncGood := 0, syncBad := 0, holdNs := 0, warm := false, warmDone := false, stamps := [], stampsNs := 0,
    channels := List.replicate 10 { table0 := [], table1 := [], line1 := false }, calibrating := false, states := [], gateEdges := none }

/-- The PTP port after reset. -/
def Ptp.reset : Ptp :=
  { master := none, foreign := [], sync := none, lastSync := none, delaySent := none, pdelay := none, delays := [],
    syncSeq := 0, announceSeq := 0, delaySeq := 0 }

/-- The SYNC bus unit after reset. -/
def SyncBus.reset : SyncBus :=
  { queue := [], t1 := none, reply := none, lastHalf := none, delays := [], heard := [],
    sending := false, sawLeader := false }

/-- A DRAM channel after reset. -/
def Dram.reset : Dram :=
  { debt := Vector.replicate 2 0, hot := false, coolReads := 0, openRows := [], neighbours := [], queue := [], hits := 0
    busy := Vector.replicate 2 0, retrainDue := false, retiring := false, copied := false, training := none, selfRefresh := false
    scrub := 0, lastTrainNs := 0, lastTemp := 0, patternsBad := false }

/-- A housekeeping converter after reset: idle, without corrections. -/
def Hka.reset : Hka :=
  { job := .idle, cfg := [], next := 0, inPass := false, coilDue := false, injected := [], calLeft := [], calZero := none,
    calNew := [], calAsked := false, calGains := [], corr := List.replicate 8 (0, 4194304), corrNew := none, calibrated := [],
    resetNs := none, retired := false }

/-- Housekeeping after reset: both excitation outputs off. -/
def Housekeeping.reset : Housekeeping :=
  { hka0 := Hka.reset, hka1 := Hka.reset, passing := false, calRunning := false, calHeld := false, trigHeld := false,
    cfgFrom := 0, iexc := (0, 0), excitationDue := none, coil0 := none, coil1 := none, applied := 0,
    coilRun := 0 }

/-- A clock domain after reset: on FRC. -/
def Domain.reset : Domain := { onPll := false, target := none, refused := none, repeats := 0, localReset := false }

/-- The outputs after reset: every safe output safe, FAULT_N low, PWR_EN high (R472), the control DAC lanes at
code 0. -/
def Pins.reset : Pins :=
  { optSafeN := false, edfaA := false, edfaB := false, modMutedA := true, modMutedB := true, dtspA := false,
    dtspB := false, dtspHeldA := true, dtspHeldB := true, oswA := 0, oswB := 0, cdac := Vector.replicate 8 0,
    clampA := true, clampB := true, clampR := true, faultN := false, pwrEn := true, ppsOut := false,
    evtOut0 := false, evtOut1 := false, blankLevel := false, blank := false, blankSeen := false, blankSince := 0, blanked := [] }

/-- Control memory after reset: no session, no draft held, no stored image, empty keys, firmware in slot A. -/
def Control.reset : Control :=
  { sessions := [], challenges := [], proofFails := [], lockout := false, cache := [], subs := [], sdo := none,
    bootMsg := false, holder := none, draft := [], admission := [], canReply := [], pending := none, keyO := [], keyP := [],
    keyE := [], signKey := [], keysZeroised := false, slotA := none, slotB := none, inForceSlot := none,
    writing := none, lw := [], geometry := [3, 0, 3, 2, 12],
    fwA := { version := 0, seq := 0, valid := true, fails := 0, bytes := [] },
    fwB := { version := 0, seq := 0, valid := false, fails := 0, bytes := [] }, fwRunning := false,
    fwActivate := false }

/-- Clocks and power after reset: VAON applied, supplies within range, reset not yet released (bring-up step
0), every domain on FRC. -/
def Power.reset : Power :=
  { vaon := true, supplyOk := true, resetLow := false, bringUp := some 0, bringUpNs := 0, bringUpUs := 0, toSafe := false,
    fromWake := false, warm := false, transition := none, wakeKept := 0, fromSentinel := false, awaited := none, lastThreshold := 0,
    safeRequest := true, dead := false, domains := Vector.replicate 4 Domain.reset, avsHigh := 0, rtcSec := 0,
    rtcSub := 0, pllsSince := none, pllmSince := none, xt1Held := false, domainBistFailed := false,
    gatesOpen := [] }

/-- The block right after reset: mode BRING-UP, waiting for the release of reset; OD 1300.02 reads 1 and
OD 1500.03 reads SRC_READY; every other object has the value of its table. -/
def State.reset : State :=
  { pending := [], free := 0, out := [], od := [(0x130002, .num 1), (0x150003, .num 2)],
    control := Control.reset, power := Power.reset, pins := Pins.reset,
    arbiter := { stateA := .stopped, stateB := .stopped, holder := none, epoch := 0, beatA := false, beatB := false,
                 missA := 0, missB := 0, data := Vector.replicate 2 0 },
    integrity := { tests := [], transients := [], bistMask := 0, bistLeft := [], bistFailing := 0, bistStep6 := false,
                   bistPassed := 0, scan := false, otpLocked := false },
    jtag := { tap := 0, ir := none, irShift := [], dr := [], tckHigh := false, tdo := false, driven := false },
    routeA := RouteState.reset, routeB := RouteState.reset,
    slices := { pendingRho := none, takeover := false, passed := false, sinceNs := 0, inPlace := [] },
    loop := { recs := [], instant := 0, emitted := [], cutFrames := none },
    survey := { phase := 0, runs := 0, done := false, lambda := 0, supporters := 0, endA := SurveyEnd.reset,
                endB := SurveyEnd.reset, propA := Proposals.reset, propB := Proposals.reset, propLambda := 0 },
    cores := Vector.replicate 8 Core.reset, capture := Vector.replicate 8 CapSlot.reset, streams := Streams.reset,
    time := TimeUnit.reset, ptp := Ptp.reset, sync := SyncBus.reset,
    inputs := Vector.replicate 8 { level := none, last := none, inMs := 0, queue := [] },
    trigIn := Vector.replicate 2 { level := none, last := none, inMs := 0, queue := [] }, dram := Vector.replicate 2 Dram.reset,
    rows := { corrected := [], suspects := [], lasting := [], spared := [], retired := [], skipped := [] },
    hka := Housekeeping.reset }

end Sys2Proof.Machine
end

