-- ==== Sys2Proof/Machine/Arith.lean ====
section
/-! DEFINITION. Integer arithmetic of the manual: rounding and saturation (R13 to R15), quotients (R48, R80),
square roots, the logarithm of R196, the cosine table of R81, bytes and their orders (R5), the check codes,
SHA-256 and HMAC (R324), and binary32 and binary64 values as exact rationals (R489, R206, R413). -/

namespace Sys2Proof.Machine

open Sys2Proof

/-! ### Rounding and saturation -/

/-- rhu(x, F): removes F fractional bits, half up (R13). -/
def rhu (x : Int) (f : Nat) : Int := if f = 0 then x else (x + 2 ^ (f - 1)) / 2 ^ f

/-- sat(x, W) for a signed destination (R14). -/
def sat (x : Int) (w : Nat) : Int :=
  if x < -(2 ^ (w - 1) : Int) then -(2 ^ (w - 1) : Int)
  else if (2 ^ (w - 1) : Int) - 1 < x then (2 ^ (w - 1) : Int) - 1 else x

/-- sat(x, W) for an unsigned destination (R14). -/
def satU (x : Int) (w : Nat) : Nat := if x < 0 then 0 else Nat.min x.toNat (2 ^ w - 1)

/-- Limits x to [lo, hi]. -/
def clampI (lo hi x : Int) : Int := if x < lo then lo else if hi < x then hi else x

/-- rhu_div(a, b): the quotient rounded half up, for b > 0 (R80). -/
def rhuDiv (a b : Int) : Int := (2 * a + b) / (2 * b)

/-- cdiv(a, b): the quotient rounded up (chapter 2). -/
def cdiv (a b : Nat) : Nat := (a + b - 1) / b

/-- up16 (chapter 2). -/
def up16 (x : Nat) : Nat := 16 * cdiv x 16

/-- Wraps an integer to a signed W-bit value. -/
def wrapS (x : Int) (w : Nat) : Int :=
  let r := x % (2 ^ w : Int)
  if r < (2 ^ (w - 1) : Int) then r else r - 2 ^ w

/-- The signed value of a W-bit pattern. -/
def toSigned (n w : Nat) : Int := wrapS (n : Int) w

/-- The W-bit pattern of an integer. -/
def ofSigned (x : Int) (w : Nat) : Nat := (x % (2 ^ w : Int)).toNat

/-- A count of W bits that wraps. -/
def incWrap (n k w : Nat) : Nat := (n + k) % 2 ^ w

/-- bitlen: the number of bits of n, 0 for 0. -/
def bitlen (n : Nat) : Nat := if n = 0 then 0 else Nat.log2 n + 1

/-- Bit k of n. -/
def bit (n k : Nat) : Bool := n.testBit k

/-- Sets or clears bit k of n. -/
def setBit (n k : Nat) (b : Bool) : Nat :=
  if b then n ||| 2 ^ k else if n.testBit k then n - 2 ^ k else n

/-- The field [hi:lo] of n. -/
def field (n hi lo : Nat) : Nat := n / 2 ^ lo % 2 ^ (hi + 1 - lo)

/-- A Bool as a number. -/
def b2n (b : Bool) : Nat := if b then 1 else 0

/-- The floor of the square root of n, bit by bit from bit `k` - 1. -/
def isqrtAux (n : Nat) : Nat → Nat → Nat
  | 0, r => r
  | k + 1, r => let t := r + 2 ^ k; isqrtAux n k (if t * t ≤ n then t else r)

/-- The floor of the square root. -/
def isqrt (n : Nat) : Nat := isqrtAux n (bitlen n / 2 + 1) 0

/-- The sum of a list of integers. -/
def sumI (l : List Int) : Int := l.foldl (· + ·) 0

/-- The sum of a list of naturals. -/
def sumN (l : List Nat) : Nat := l.foldl (· + ·) 0

/-- The greatest of a list, 0 when empty. -/
def maxN (l : List Nat) : Nat := l.foldl Nat.max 0

/-! ### Logarithm (R196) and cosine (R81) -/

/-- The fraction bits of log2(y / 2^96) for y in [2^96, 2^97), by repeated squaring. -/
def log2Bits : Nat → Nat → Nat → Nat
  | 0, _, acc => acc
  | k + 1, y, acc =>
    let z := y * y / 2 ^ 96
    if 2 ^ 97 ≤ z then log2Bits k (z / 2) (2 * acc + 1) else log2Bits k z (2 * acc)

/-- lt[i] of R196: the nearest integer to 2^24 × log2(1 + i / 1,024). -/
def lt (i : Nat) : Nat :=
  if 1024 ≤ i then 2 ^ 24 else (log2Bits 48 ((1024 + i) * 2 ^ 86) 0 + 2 ^ 23) / 2 ^ 24

/-- log2fix of R196, s32.24, for x > 0; 0 for 0, where the manual takes no logarithm. -/
def log2fix (x : Nat) : Int :=
  if x = 0 then 0
  else
    let bl := bitlen x
    let z := if bl ≤ 31 then x * 2 ^ (31 - bl) else x / 2 ^ (bl - 31)
    let i := z / 2 ^ 20 % 1024
    let f : Nat := z % 2 ^ 20
    (Int.ofNat (bl - 1)) * 2 ^ 24 + Int.ofNat (lt i) + rhu ((Int.ofNat (lt (i + 1)) - Int.ofNat (lt i)) * Int.ofNat f) 20

/-- Sums the Taylor series of the cosine in 96 fractional bits: `t` is the term, `n` its index. -/
def cosSeries (x2 : Int) : Nat → Nat → Int → Int → Int
  | 0, _, _, acc => acc
  | k + 1, n, t, acc =>
    let t' := -(t * x2 / 2 ^ 96) / (((2 * n + 1) * (2 * n + 2) : Nat) : Int)
    cosSeries x2 k (n + 1) t' (acc + t')

/-- π × 2^96, rounded. -/
def pi96 : Int := 248902613312231085230521944622

/-- cos(2πk/n) in 96 fractional bits. -/
def cos96 (k n : Nat) : Int :=
  let j : Int := ((k % n : Nat) : Int)
  let x := 2 * pi96 * (if 2 * j < n then j else j - n) / n
  cosSeries (x * x / 2 ^ 96) 30 0 (2 ^ 96) (2 ^ 96)

/-- cos_tab[k] of R81: the nearest integer to 32,767 × cos(2πk/4,096). -/
def cosTab (k : Nat) : Int := rhu (32767 * cos96 k 4096) 96

/-! ### Bytes (R5) -/

/-- The low 8 bits of a number. -/
def byteOf (n : Nat) : Byte := BitVec.ofNat 8 n

/-- `k` bytes, most significant first. -/
def beBytes : Nat → Nat → Bytes
  | 0, _ => []
  | k + 1, n => byteOf (n / 256 ^ k) :: beBytes k n

/-- `k` bytes, least significant first. -/
def leBytes : Nat → Nat → Bytes
  | 0, _ => []
  | k + 1, n => byteOf n :: leBytes k (n / 256)

/-- The number of a byte block, most significant byte first. -/
def beNat (b : Bytes) : Nat := b.foldl (fun a x => a * 256 + x.toNat) 0

/-- The number of a byte block, least significant byte first. -/
def leNat : Bytes → Nat
  | [] => 0
  | x :: xs => x.toNat + 256 * leNat xs

/-- `n` bytes of `b` from `off`, zero beyond its end. -/
def slice (b : Bytes) (off n : Nat) : Bytes :=
  let t := (b.drop off).take n
  t ++ List.replicate (n - t.length) 0

/-- An unsigned field of `n` bytes at `off`, most significant byte first. -/
def beField (b : Bytes) (off n : Nat) : Nat := beNat (slice b off n)

/-- A signed field of `n` bytes at `off`. -/
def beFieldS (b : Bytes) (off n : Nat) : Int := toSigned (beField b off n) (8 * n)

/-- The bytes of a signed number. -/
def beInt (k : Nat) (x : Int) : Bytes := beBytes k (ofSigned x (8 * k))

/-- ASCII bytes of a string. -/
def ascii (s : String) : Bytes := s.toList.map (fun c => byteOf c.toNat)

/-! ### Check codes -/

/-- One bit of CRC-32C, reflected. -/
def crc32cBit (c : Nat) : Nat := if c % 2 = 1 then (c / 2) ^^^ 0x82F63B78 else c / 2

/-- One byte of CRC-32C. -/
def crc32cByte (c : Nat) (b : Byte) : Nat :=
  let x := c ^^^ b.toNat
  crc32cBit (crc32cBit (crc32cBit (crc32cBit (crc32cBit (crc32cBit (crc32cBit (crc32cBit x)))))))

/-- CRC-32C (Castagnoli) over a byte block. -/
def crc32c (b : Bytes) : Nat := (b.foldl crc32cByte 0xFFFFFFFF) ^^^ 0xFFFFFFFF

/-- CRC-16 with polynomial 0x1021 from 0xFFFF over bits in order (R362). -/
def crc16 (l : List Bool) : Nat :=
  l.foldl (fun c b =>
    let top := (c.testBit 15) ^^ b
    let c' := c * 2 % 65536
    if top then c' ^^^ 0x1021 else c') 0xFFFF

/-! ### SHA-256 and HMAC (R324) -/

/-- The primes up to 311, the first 64. -/
def primes64 : List Nat :=
  (List.range 312).filter (fun p => decide (2 ≤ p) && (List.range 16).all (fun d => p % (d + 2) != 0 || p == d + 2))

/-- The largest x below 2^40 with x^n ≤ v, bit by bit from the top. -/
def rootFloor (n v : Nat) : Nat :=
  (List.range 40).foldl (fun x i => if (x + 2 ^ (39 - i)) ^ n ≤ v then x + 2 ^ (39 - i) else x) 0

/-- The first 32 bits of the fraction of the n-th root of p, as FIPS 180 defines the constants of SHA-256. -/
def rootBits (n p : Nat) : W32 := BitVec.ofNat 32 (rootFloor n (p * 2 ^ (32 * n)))

/-- The XOR of a word rotated right by i, by j, and moved by a third operation. -/
def spread (i j : Nat) (last x : W32) : W32 := x.rotateRight i ^^^ (x.rotateRight j ^^^ last)

/-- The hash under way as two lists of four words, the newest first: in the working variables of FIPS 180, a to d and e to h. -/
structure ShaHalf where
  hi : List W32
  lo : List W32

/-- One step of the hash on the sum of its constant and its schedule word. -/
def ShaHalf.push (v : ShaHalf) (kw : W32) : ShaHalf :=
  let e := v.lo.getD 0 0
  let a := v.hi.getD 0 0
  let choice := v.lo.getD 2 0 ^^^ (e &&& (v.lo.getD 1 0 ^^^ v.lo.getD 2 0))
  let major := (a &&& v.hi.getD 1 0) ||| (v.hi.getD 2 0 &&& (a ||| v.hi.getD 1 0))
  let x := v.lo.getD 3 0 + spread 6 11 (e.rotateRight 25) e + choice + kw
  { hi := (x + spread 2 13 (a.rotateRight 22) a + major) :: v.hi.take 3, lo := (v.hi.getD 3 0 + x) :: v.lo.take 3 }

/-- The next schedule word after the last 16, the newest first. -/
def shaWord (w : List W32) : W32 :=
  let p := w.getD 14 0
  let q := w.getD 1 0
  w.getD 15 0 + w.getD 6 0 + spread 7 18 (p >>> 3) p + spread 17 19 (q >>> 10) q

/-- The words of a byte block, most significant byte first, `k` of them. -/
def beWords : Nat → Bytes → List W32
  | 0, _ => []
  | k + 1, b => BitVec.ofNat 32 (beNat (b.take 4)) :: beWords k (b.drop 4)

/-- Steps of a block: each takes the oldest of the last 16 schedule words and appends the next. -/
def shaSteps : List W32 → List W32 → ShaHalf → ShaHalf
  | [], _, v => v
  | k :: ks, w, v => shaSteps ks ((shaWord w :: w).take 16) (v.push (k + w.getD 15 0))

/-- A block of 16 words changes the chaining value. -/
def shaAbsorb (v : ShaHalf) (blk : List W32) : ShaHalf :=
  let x := shaSteps (primes64.map (rootBits 3)) blk.reverse v
  { hi := List.zipWith (· + ·) v.hi x.hi, lo := List.zipWith (· + ·) v.lo x.lo }

/-- SHA-256 (FIPS 180): the message, a one bit, zeros to 8 bytes short of a block, and its length in bits. -/
def sha256 (m : Bytes) : Bytes :=
  let z := (m ++ [0x80]) ++ List.replicate ((119 - m.length % 64) % 64) 0 ++ beBytes 8 (8 * m.length)
  let start := (primes64.take 8).map (rootBits 2)
  let v := (List.range (z.length / 64)).foldl (fun v i => shaAbsorb v (beWords 16 (z.drop (64 * i)))) ⟨start.take 4, start.drop 4⟩
  (v.hi ++ v.lo).flatMap (fun w => beBytes 4 w.toNat)

/-- HMAC-SHA-256. -/
def hmac (key m : Bytes) : Bytes :=
  let k0 := if 64 < key.length then sha256 key else key
  let k := k0 ++ List.replicate (64 - k0.length) 0
  sha256 (k.map (· ^^^ 0x5C) ++ sha256 (k.map (· ^^^ 0x36) ++ m))

/-! ### Floating point as exact values

A finite value is m × 2^e. `f64` rounds an exact quotient to binary64, to nearest, ties to even; every value
the manual computes in binary64 lies well inside its normal range. -/

/-- A dyadic value m × 2^e. -/
structure Dy where
  m : Int
  e : Int
  deriving DecidableEq, Repr

/-- The value of a finite binary32 pattern. -/
def ofF32 (n : Nat) : Dy :=
  let s : Int := if n.testBit 31 then -1 else 1
  let ex := field n 30 23
  let fr : Nat := n % 2 ^ 23
  if ex = 0 then ⟨s * (fr : Int), -149⟩ else ⟨s * ((fr + 2 ^ 23 : Nat) : Int), (ex : Int) - 150⟩

/-- Whether a binary32 pattern is finite. -/
def f32Finite (n : Nat) : Bool := field n 30 23 != 255

/-- Round a non-negative quotient a / b to a natural, ties to even. -/
def rneDiv (a b : Nat) : Nat :=
  let q := a / b
  let r := a % b
  if 2 * r < b then q else if b < 2 * r then q + 1 else if q % 2 = 0 then q else q + 1

/-- The value a / b × 2^e rounded to `p` significant bits, ties to even, b > 0. -/
def roundTo (p : Nat) (a : Int) (b : Nat) (e : Int) : Dy :=
  if a = 0 then ⟨0, 0⟩
  else
    let n := a.natAbs
    -- shift so that the integer quotient has p or p + 1 bits
    let k : Int := (p : Int) + (bitlen b : Int) - (bitlen n : Int)
    let go : Int → Nat × Nat := fun j => if 0 ≤ j then (n * 2 ^ j.toNat, b) else (n, b * 2 ^ (-j).toNat)
    let f := go k
    let k' := if 2 ^ p ≤ f.1 / f.2 then k - 1 else k
    let g := go k'
    ⟨a.sign * (rneDiv g.1 g.2 : Int), e - k'⟩

/-- Exact product. -/
def Dy.mul (x y : Dy) : Dy := ⟨x.m * y.m, x.e + y.e⟩

/-- Exact sum. -/
def Dy.add (x y : Dy) : Dy :=
  if x.e ≤ y.e then ⟨x.m + y.m * 2 ^ (y.e - x.e).toNat, x.e⟩ else ⟨x.m * 2 ^ (x.e - y.e).toNat + y.m, y.e⟩

/-- Exact negation. -/
def Dy.neg (x : Dy) : Dy := ⟨-x.m, x.e⟩

/-- The dyadic value of an integer. -/
def Dy.ofInt (n : Int) : Dy := ⟨n, 0⟩

/-- Rounded to binary64. -/
def f64 (x : Dy) : Dy := roundTo 53 x.m 1 x.e

/-- Binary64 product, sum, difference and quotient; a quotient by zero is zero. -/
def f64Mul (x y : Dy) : Dy := f64 (x.mul y)

/-- Binary64 sum. -/
def f64Add (x y : Dy) : Dy := f64 (x.add y)

/-- Binary64 difference. -/
def f64Sub (x y : Dy) : Dy := f64 (x.add y.neg)

/-- Binary64 quotient; zero for a zero divisor. -/
def f64Div (x y : Dy) : Dy :=
  if y.m = 0 then ⟨0, 0⟩ else roundTo 53 (x.m * y.m.sign) y.m.natAbs (x.e - y.e)

/-- Binary64 square root of a non-negative value; zero for a negative one. -/
def f64Sqrt (x : Dy) : Dy :=
  if x.m ≤ 0 then ⟨0, 0⟩
  else
    let n := x.m.toNat
    -- an even exponent and at least 112 bits, so that one sticky bit decides the rounding
    let k0 := 112 - bitlen n
    let k := if ((k0 : Int) - x.e) % 2 = 0 then k0 else k0 + 1
    let v := n * 2 ^ k
    let r := isqrt v
    let sticky := if r * r = v then 0 else 1
    roundTo 53 ((2 * r + sticky : Nat) : Int) 1 ((x.e - k) / 2 - 1)

/-- The floor of a dyadic value. -/
def Dy.floor (x : Dy) : Int := if 0 ≤ x.e then x.m * 2 ^ x.e.toNat else x.m / 2 ^ (-x.e).toNat

/-- Whether x < y. -/
def Dy.lt (x y : Dy) : Bool := decide ((x.add y.neg).m < 0)

/-- Compares two finite binary32 patterns by value. -/
def f32Le (a b : Nat) : Bool := !((ofF32 b).lt (ofF32 a))

/-- A value a / b as a binary32 pattern, rounded to nearest, ties to even; for values whose rounding is normal
or zero. -/
def toF32 (a : Int) (b : Nat) : Nat :=
  let d := roundTo 24 a b 0
  if d.m = 0 then 0
  else
    let n := d.m.natAbs
    let sh := bitlen n - 24
    let n' := n / 2 ^ sh
    let ex := d.e + (sh : Int) + 150
    (if d.m < 0 then 2 ^ 31 else 0) + ex.toNat * 2 ^ 23 + n' % 2 ^ 23

end Sys2Proof.Machine
end

