-- ==== Sys2Proof/Machine/ObjTable.lean ====
section
/-! DEFINITION. The object dictionary as a table: every object that spec/ lists, with its type, access code,
default and range (R312, Tables 0.3, 0.4, 12.1 and the object tables of every chapter). A group is an index,
or the run of indices of a block's instances (R6). Where a table gives no default the row has zero or an
empty block; assumption log 5 says which. A range that depends on another object is the widest span
(R313, R490). -/

namespace Sys2Proof.Machine

/-- The types of Table 0.4. -/
inductive Ty where
  | bool | i8 | i16 | i32 | u8 | u16 | u32 | f32 | str | domain | i64 | u64 | time80
  deriving DecidableEq, Repr

/-- The range of an object as step 6 of R313 tests it. Bounds of `f32` are binary32 bit patterns of
non-negative values (R489); `len` bounds the length of a block. -/
inductive Rng where
  | any
  | span (lo hi : Int)
  | zeroOr (lo hi : Int)
  | spanOr (lo hi other : Int)
  | step (m lo hi : Int)
  | zeroOrStep (m hi : Int)
  | oneOf (l : List Int)
  | mask (m : Nat)
  | nonzero
  | f32 (lo hi : Nat)
  | f32Any
  | len (lo hi step : Nat)
  | zeroOrLen (lo hi : Nat)
  deriving DecidableEq, Repr

/-- One row: sub-indices `lo` to `hi`, type, read level, write level (0 O, 1 P, 2 E, 3 V; R8), whether it
carries S and L, default and range. -/
structure ObjRow where
  lo : Nat
  hi : Nat
  ty : Ty
  rd : Option Nat
  wr : Option Nat
  draft : Bool
  live : Bool
  dflt : Val
  rng : Rng
  deriving DecidableEq, Repr

/-- An index and its further instances: `count` indices from `base`, `stride` apart. -/
structure ObjGroup where
  base : Nat
  count : Nat
  stride : Nat
  rows : List ObjRow
  deriving DecidableEq, Repr

/-- A row with access R/O. -/
def rowRO (lo hi : Nat) (ty : Ty) (d : Val) : ObjRow := ⟨lo, hi, ty, some 0, none, false, false, d, .any⟩

/-- A row whose table states the largest length of its block (R306). -/
def ObjRow.upTo (o : ObjRow) (n : Nat) : ObjRow := { o with rng := .len 0 n 1 }

/-- A row with access RWS/E. -/
def rowS (lo hi : Nat) (ty : Ty) (d : Val) (g : Rng) : ObjRow := ⟨lo, hi, ty, some 2, some 2, true, false, d, g⟩

/-- A row with access RWLS/E. -/
def rowLS (lo hi : Nat) (ty : Ty) (d : Val) (g : Rng) : ObjRow := ⟨lo, hi, ty, some 2, some 2, true, true, d, g⟩

/-- A row with another access code. -/
def rowX (lo hi : Nat) (ty : Ty) (rd wr : Option Nat) (d : Val) (g : Rng) : ObjRow :=
  ⟨lo, hi, ty, rd, wr, false, false, d, g⟩

/-- Objects of index 1000. -/
def rows1000 : List ObjRow :=
  [(rowRO 0x01 0x01 .str (.blob [0x44, 0x6F, 0x6C, 0x64, 0x61, 0x6E, 0x65, 0x6E, 0x20, 0x53, 0x69, 0x67, 0x6E, 0x61, 0x6C, 0x20, 0x57, 0x6F, 0x72, 0x6B, 0x73])).upTo 32,
    (rowRO 0x02 0x02 .str (.blob [0x53, 0x4C, 0x38, 0x32, 0x34, 0x30])).upTo 16,
    (rowRO 0x03 0x03 .str (.blob [])).upTo 16,
    rowRO 0x04 0x04 .u32 (.num 0),
    rowRO 0x05 0x05 .u8 (.num 1)]

/-- Objects of index 1110 and its 1 further instances. -/
def rows1110 : List ObjRow :=
  [rowS 0x01 0x01 .bool (.num 1) (.span 0 1),
    rowS 0x04 0x04 .u8 (.num 0) (.span 0 1),
    rowS 0x05 0x05 .u32 (.num 0) .any,
    rowS 0x06 0x06 .u32 (.num 4294967040) .any,
    rowS 0x07 0x07 .u32 (.num 0) .any,
    rowS 0x08 0x08 .u8 (.num 0) (.span 0 31),
    rowRO 0x10 0x10 .u8 (.num 0),
    rowRO 0x12 0x12 .u64 (.num 0),
    rowRO 0x13 0x13 .u32 (.num 0)]

/-- Objects of index 1120 and its 1 further instances. -/
def rows1120 : List ObjRow :=
  [rowS 0x01 0x01 .bool (.num 1) (.span 0 1),
    rowS 0x02 0x02 .u8 (.num 0) (.span 0 1),
    rowS 0x03 0x03 .bool (.num 0) (.span 0 1),
    rowS 0x04 0x04 .u8 (.num 0) (.span 0 1),
    rowS 0x05 0x05 .u32 (.num 0) .any,
    rowS 0x06 0x06 .u32 (.num 4294967040) .any,
    rowS 0x07 0x07 .u32 (.num 0) .any,
    rowS 0x08 0x08 .bool (.num 1) (.span 0 1),
    rowRO 0x10 0x10 .u8 (.num 0),
    rowRO 0x11 0x11 .u8 (.num 0),
    rowRO 0x12 0x12 .u64 (.num 0),
    rowRO 0x13 0x13 .u32 (.num 0)]
  ++ [rowRO 0x14 0x14 .u32 (.num 0),
    rowRO 0x15 0x15 .u32 (.num 0),
    rowRO 0x16 0x16 .u32 (.num 0)]

/-- Objects of index 1130. -/
def rows1130 : List ObjRow :=
  [rowS 0x03 0x03 .u16 (.num 60) (.span 10 3600),
    rowX 0x10 0x10 .domain none (some 0) (.blob []) (.len 32 32 1),
    rowRO 0x11 0x11 .u8 (.num 7),
    rowX 0x12 0x12 .domain none (some 1) (.blob []) (.len 32 32 1),
    rowX 0x13 0x13 .domain none (some 2) (.blob []) (.len 32 32 1),
    rowRO 0x20 0x20 .u8 (.num 0),
    rowRO 0x21 0x21 .u32 (.num 0),
    rowRO 0x22 0x22 .u32 (.num 0)]

/-- Objects of index 1140. -/
def rows1140 : List ObjRow :=
  [rowS 0x01 0x01 .u8 (.num 32) (.span 1 127),
    rowS 0x02 0x02 .u8 (.num 3) (.span 0 3),
    rowS 0x03 0x03 .u8 (.num 2) (.span 0 3),
    rowS 0x04 0x04 .u16 (.num 1000) (.zeroOr 100 60000),
    rowS 0x05 0x05 .u8 (.num 0) (.span 0 2)]

/-- Objects of index 1150. -/
def rows1150 : List ObjRow :=
  [rowS 0x01 0x01 .bool (.num 0) (.span 0 1),
    rowS 0x02 0x02 .u8 (.num 0) (.span 0 1),
    rowS 0x03 0x03 .u8 (.num 0) (.span 0 2),
    rowS 0x04 0x04 .u8 (.num 0) (.span 0 1),
    rowS 0x05 0x05 .u8 (.num 0) (.span 0 1),
    rowS 0x06 0x06 .u8 (.num 0) (.span 0 127),
    rowS 0x07 0x08 .u8 (.num 128) (.span 0 255),
    rowS 0x09 0x09 .i8 (.num 0) (.span (-7) 0),
    rowS 0x0A 0x0A .i8 (.num 1) (.span (-3) 4),
    rowS 0x0B 0x0B .i8 (.num 0) (.span (-7) 5),
    rowS 0x0C 0x0C .u8 (.num 3) (.span 2 10),
    rowS 0x0D 0x0E .i32 (.num 0) .any]
  ++ [rowRO 0x10 0x10 .u8 (.num 1),
    rowRO 0x11 0x11 .i64 (.num 0),
    rowRO 0x12 0x12 .i64 (.num 0),
    rowRO 0x13 0x13 .u64 (.num 0)]

/-- Objects of index 1200. -/
def rows1200 : List ObjRow :=
  [rowRO 0x01 0x01 .u8 (.num 0),
    rowX 0x02 0x02 .bool none (some 2) (.num 0) (.oneOf [1]),
    rowRO 0x03 0x03 .u32 (.num 0),
    rowRO 0x04 0x04 .u32 (.num 0),
    rowRO 0x05 0x05 .u8 (.num 0),
    rowRO 0x06 0x06 .u32 (.num 0),
    rowRO 0x07 0x07 .u32 (.num 0),
    rowX 0x08 0x08 .bool none (some 2) (.num 0) (.oneOf [1]),
    rowX 0x10 0x10 .domain (some 2) none (.blob []) .any,
    rowX 0x11 0x11 .domain none (some 2) (.blob []) (.len 0 8388608 1),
    rowRO 0x12 0x12 .u32 (.num 0),
    rowRO 0x13 0x13 .u32 (.num 0)]
  ++ [rowX 0x14 0x14 .domain (some 0) (some 2) (.blob []) (.zeroOrLen 64 64)]

/-- Objects of index 1210. -/
def rows1210 : List ObjRow :=
  [rowRO 0x01 0x01 .u8 (.num 0),
    rowRO 0x05 0x05 .u32 (.num 0),
    rowX 0x10 0x10 .domain none (some 2) (.blob []) (.len 0 4194304 1),
    rowX 0x11 0x11 .bool none (some 2) (.num 0) (.oneOf [1])]

/-- Objects of index 1300. -/
def rows1300 : List ObjRow :=
  [rowX 0x01 0x01 .u8 (some 1) (some 1) (.num 255) (.oneOf [0, 2, 3, 4, 5, 6]),
    rowRO 0x02 0x02 .u8 (.num 0),
    rowS 0x03 0x03 .u8 (.num 2) (.oneOf [2, 3, 4]),
    rowS 0x04 0x04 .u8 (.num 2) (.oneOf [2, 3, 4]),
    rowS 0x05 0x05 .u8 (.num 1) (.span 0 7),
    rowS 0x06 0x06 .u8 (.num 0) (.span 0 1),
    rowX 0x07 0x07 .u64 (some 2) (some 2) (.num 0) .any,
    rowS 0x08 0x08 .u32 (.num 0) (.zeroOr 10 86400),
    rowX 0x09 0x09 .u8 none (some 2) (.num 0) (.oneOf [1, 2]),
    rowRO 0x10 0x10 .u8 (.num 0),
    rowRO 0x11 0x11 .u8 (.num 0),
    rowRO 0x12 0x12 .u8 (.num 0)]
  ++ [rowRO 0x13 0x13 .u64 (.num 0),
    rowRO 0x14 0x14 .u16 (.num 850),
    rowRO 0x15 0x15 .u8 (.num 0),
    rowRO 0x16 0x16 .u32 (.num 0)]

/-- Objects of index 1400. -/
def rows1400 : List ObjRow :=
  [rowS 0x01 0x01 .u8 (.num 0) (.span 0 1),
    rowS 0x02 0x02 .u8 (.num 0) (.span 0 3),
    rowS 0x03 0x03 .u8 (.num 0) (.span 0 3),
    rowS 0x04 0x04 .u8 (.num 3) (.span 0 16),
    rowS 0x05 0x05 .u8 (.num 7) (.span 0 32),
    rowS 0x06 0x06 .u32 (.num 100) (.span 1 1000000),
    rowS 0x07 0x07 .u32 (.num 1000000) (.span 1000 1000000000),
    rowS 0x08 0x08 .u32 (.num 10000) (.span 100 500000),
    rowS 0x09 0x09 .u32 (.num 86400) (.span 60 2592000),
    rowS 0x0A 0x0A .u16 (.num 32768) .any,
    rowS 0x0B 0x0B .i32 (.num 800) .nonzero,
    rowS 0x0C 0x0C .u8 (.num 0) (.span 0 2)]
  ++ [rowS 0x0E 0x0E .u8 (.num 0) (.span 0 1),
    rowS 0x0F 0x0F .i32 (.num 0) .any,
    rowS 0x10 0x10 .u16 (.num 100) (.span 1 900),
    rowX 0x12 0x12 .time80 none (some 2) (.blob (List.replicate 10 0)) .any,
    rowX 0x13 0x13 .i16 (some 2) (some 2) (.num 37) .any,
    rowRO 0x20 0x20 .u8 (.num 0),
    rowRO 0x21 0x21 .u8 (.num 0),
    rowRO 0x22 0x22 .time80 (.blob (List.replicate 10 0)),
    rowRO 0x23 0x23 .i64 (.num 0),
    rowRO 0x24 0x24 .i64 (.num 0),
    rowRO 0x25 0x25 .u16 (.num 0),
    rowRO 0x26 0x26 .u8 (.num 0)]
  ++ [rowRO 0x27 0x27 .u32 (.num 0),
    rowRO 0x28 0x28 .u32 (.num 0),
    rowRO 0x2A 0x2B .i32 (.num 0)]

/-- Objects of index 1420 and its 7 further instances. -/
def rows1420 : List ObjRow :=
  [rowS 0x01 0x01 .bool (.num 0) (.span 0 1),
    rowS 0x02 0x02 .u8 (.num 0) (.span 0 2),
    rowS 0x03 0x03 .u8 (.num 1) (.span 0 3),
    rowS 0x04 0x04 .u32 (.num 100000) (.span 1000 10000000),
    rowS 0x05 0x05 .i32 (.num 0) .any,
    rowRO 0x10 0x10 .u32 (.num 0),
    rowRO 0x11 0x11 .u32 (.num 0),
    rowRO 0x12 0x12 .u32 (.num 0),
    rowRO 0x13 0x13 .u32 (.num 0)]

/-- Objects of index 1430. -/
def rows1430 : List ObjRow :=
  [rowS 0x01 0x01 .u32 (.num 1000) (.span 100 100000),
    rowRO 0x10 0x11 .u32 (.num 0)]

/-- Objects of index 1438. -/
def rows1438 : List ObjRow :=
  [rowS 0x01 0x01 .u16 (.num 600) (.span 10 3600),
    rowS 0x02 0x02 .u16 (.num 100) (.span 10 500),
    rowRO 0x10 0x10 .u16 (.num 0),
    rowRO 0x11 0x11 .u32 (.num 0)]

/-- Objects of index 1440. -/
def rows1440 : List ObjRow :=
  [rowS 0x01 0x01 .u8 (.num 0) (.span 0 13),
    rowS 0x02 0x02 .u32 (.num 1000) (.span 1 100000),
    rowRO 0x10 0x10 .u64 (.num 0),
    rowRO 0x11 0x11 .u32 (.num 0)]

/-- Objects of index 1450. -/
def rows1450 : List ObjRow :=
  [rowS 0x01 0x01 .u8 (.num 0) (.span 0 2),
    rowS 0x02 0x02 .u8 (.num 0) (.span 0 15),
    rowS 0x03 0x03 .u8 (.num 8) (.span 0 15),
    rowS 0x04 0x04 .i32 (.num 0) .any,
    rowRO 0x10 0x10 .u8 (.num 0),
    rowRO 0x11 0x11 .u8 (.num 255),
    rowRO 0x12 0x12 .i64 (.num 0),
    rowRO 0x13 0x13 .u16 (.num 0),
    rowRO 0x17 0x17 .u32 (.num 0),
    rowRO 0x18 0x18 .u32 (.num 0)]

/-- Objects of index 1500. -/
def rows1500 : List ObjRow :=
  [rowX 0x01 0x01 .u8 (some 2) (some 2) (.num 0) (.span 0 1),
    rowRO 0x02 0x02 .u8 (.num 0),
    rowRO 0x03 0x03 .u32 (.num 0),
    rowRO 0x11 0x11 .u32 (.num 0),
    rowRO 0x12 0x12 .u32 (.num 0),
    rowRO 0x13 0x13 .u32 (.num 0)]

/-- Objects of index 1510. -/
def rows1510 : List ObjRow :=
  [rowS 0x01 0x01 .u8 (.num 0) (.span 0 1),
    rowS 0x02 0x02 .u8 (.num 1) (.span 0 1),
    rowS 0x03 0x03 .u8 (.num 1) (.span 0 1),
    rowS 0x04 0x04 .u8 (.num 1) (.span 0 1),
    rowX 0x11 0x14 .u8 (some 2) (some 2) (.num 1) (.span 0 1)]

/-- Objects of index 1520. -/
def rows1520 : List ObjRow :=
  [rowX 0x01 0x01 .u16 (some 2) (some 2) (.num 0) (.mask 0xFF1F),
    rowRO 0x02 0x02 .u16 (.num 0),
    rowRO 0x10 0x10 .u32 (.num 0)]

/-- Objects of index 1600. -/
def rows1600 : List ObjRow :=
  [rowS 0x01 0x01 .u8 (.num 3) (.span 0 3),
    rowS 0x02 0x02 .u8 (.num 0) (.span 0 2),
    rowS 0x03 0x03 .u8 (.num 3) (.span 0 3),
    rowS 0x04 0x04 .u8 (.num 2) (.span 1 2),
    rowS 0x05 0x05 .u8 (.num 12) (.span 8 16),
    rowS 0x06 0x06 .u16 (.num 100) (.span 0 10000),
    rowS 0x07 0x07 .u8 (.num 11) (.span 8 16),
    rowS 0x08 0x08 .u16 (.num 30) (.span 5 240),
    rowS 0x09 0x09 .u16 (.num 100) (.span 20 400),
    rowS 0x0A 0x0A .u8 (.num 32) (.span 16 64),
    rowS 0x0B 0x0B .u16 (.num 24) (.span 1 168),
    rowS 0x0C 0x0C .u16 (.num 10) (.span 1 3600)]
  ++ [rowX 0x0D 0x0D .bool none (some 2) (.num 0) (.oneOf [1]),
    rowRO 0x11 0x11 .u32 (.num 0)]

/-- Objects of index 1610 and its 1 further instances. -/
def rows1610 : List ObjRow :=
  [rowRO 0x10 0x10 .u8 (.num 0),
    rowRO 0x11 0x11 .u8 (.num 0),
    rowRO 0x12 0x12 .u8 (.num 0),
    rowRO 0x13 0x13 .u8 (.num 0),
    rowRO 0x14 0x14 .u32 (.num 0),
    rowRO 0x15 0x15 .u32 (.num 0),
    rowRO 0x16 0x16 .u32 (.num 0),
    rowRO 0x17 0x17 .u32 (.num 0),
    rowRO 0x18 0x18 .u32 (.num 0),
    rowRO 0x19 0x19 .u32 (.num 0),
    rowRO 0x1A 0x1A .u32 (.num 0),
    rowRO 0x1B 0x1B .i16 (.num 0)]

/-- Objects of index 1620. -/
def rows1620 : List ObjRow :=
  [rowRO 0x10 0x10 .u16 (.num 128),
    rowRO 0x11 0x11 .u16 (.num 0),
    rowRO 0x12 0x12 .u32 (.num 0),
    rowRO 0x13 0x13 .u32 (.num 0),
    rowRO 0x14 0x14 .u32 (.num 0)]

/-- Objects of index 1700. -/
def rows1700 : List ObjRow :=
  [rowX 0x02 0x02 .bool none (some 1) (.num 0) (.oneOf [1]),
    rowS 0x05 0x05 .bool (.num 0) (.span 0 1),
    rowRO 0x10 0x10 .u32 (.num 0),
    rowRO 0x12 0x12 .u32 (.num 0),
    rowRO 0x13 0x13 .u32 (.num 0),
    rowRO 0x14 0x14 .u32 (.num 0),
    rowX 0x20 0x20 .u16 none (some 2) (.num 0) (.mask 0x7FFF),
    rowRO 0x21 0x21 .u8 (.num 0),
    rowRO 0x30 0x3E .u64 (.num 0),
    rowRO 0x40 0x4E .u32 (.num 0),
    rowX 0x50 0x50 .bool none (some 3) (.num 0) (.oneOf [1]),
    rowRO 0x51 0x51 .u8 (.num 0)]
  ++ [rowRO 0x60 0x60 .u32 (.num 0),
    rowRO 0x61 0x61 .u8 (.num 0),
    rowRO 0x62 0x62 .u32 (.num 0),
    rowRO 0x63 0x63 .u32 (.num 0),
    rowRO 0x64 0x64 .u32 (.num 0)]

/-- Objects of index 1800. -/
def rows1800 : List ObjRow :=
  [rowS 0x01 0x01 .u8 (.num 1) (.span 0 4),
    rowS 0x02 0x02 .u32 (.num 1000) (.span 10 3600000),
    rowX 0x03 0x03 .bool none (some 2) (.num 0) (.oneOf [1]),
    rowS 0x04 0x05 .u8 (.num 1) (.span 1 32),
    rowS 0x06 0x06 .u8 (.num 0) (.span 0 7),
    rowS 0x07 0x07 .u8 (.num 0) (.span 0 4),
    rowX 0x08 0x08 .bool none (some 2) (.num 0) (.oneOf [1]),
    rowRO 0x10 0x10 .u32 (.num 0),
    rowRO 0x11 0x11 .u32 (.num 0),
    rowRO 0x12 0x12 .u32 (.num 0),
    rowRO 0x13 0x13 .u8 (.num 0),
    rowRO 0x14 0x14 .u32 (.num 0)]

/-- Objects of index 1808. -/
def rows1808 : List ObjRow :=
  [rowS 0x01 0x04 .u64 (.num 6917533322608418816) .any]

/-- Objects of index 1810. -/
def rows1810 : List ObjRow :=
  [rowS 0x01 0x20 .u32 (.num 2617245696) .any]

/-- Objects of index 1811. -/
def rows1811 : List ObjRow :=
  [rowS 0x01 0x20 .u32 (.num 2617245696) .any]

/-- Objects of index 1812. -/
def rows1812 : List ObjRow :=
  [rowS 0x01 0x04 .u32 (.num 2617245696) .any]

/-- Objects of index 1820. -/
def rows1820 : List ObjRow :=
  [rowRO 0x01 0x20 .u32 (.num 0)]

/-- Objects of index 1821. -/
def rows1821 : List ObjRow :=
  [rowRO 0x01 0x20 .u32 (.num 0)]

/-- Objects of index 1822. -/
def rows1822 : List ObjRow :=
  [rowRO 0x01 0x04 .u32 (.num 0)]

/-- Objects of index 1830. -/
def rows1830 : List ObjRow :=
  [rowS 0x01 0x01 .bool (.num 1) (.span 0 1),
    rowS 0x02 0x02 .u32 (.num 400000) (.span 100000 4000000),
    rowS 0x03 0x03 .u32 (.num 100000) (.span 50000 1000000),
    rowS 0x04 0x04 .f32 (.num 998248754) .f32Any,
    rowS 0x05 0x05 .f32 (.num 3038446975) .f32Any,
    rowS 0x06 0x06 .f32 (.num 2895326493) .f32Any,
    rowS 0x07 0x07 .u8 (.num 5) (.span 1 100),
    rowS 0x08 0x08 .u8 (.num 1) (.span 0 7),
    rowS 0x09 0x09 .u8 (.num 0) (.span 0 3),
    rowRO 0x10 0x10 .i32 (.num 2147483648),
    rowRO 0x11 0x11 .u8 (.num 0),
    rowRO 0x12 0x13 .i32 (.num 0)]
  ++ [rowRO 0x14 0x14 .u32 (.num 0),
    rowRO 0x15 0x15 .u32 (.num 0),
    rowRO 0x16 0x16 .u8 (.num 0)]

/-- Objects of index 1840. -/
def rows1840 : List ObjRow :=
  [rowS 0x01 0x01 .u8 (.num 5) (.span 0 7),
    rowS 0x02 0x02 .u8 (.num 0) (.span 0 7)]

/-- Objects of index 1850. -/
def rows1850 : List ObjRow :=
  [rowS 0x01 0x01 .u16 (.num 600) (.span 10 3600),
    rowS 0x02 0x02 .u16 (.num 20) (.span 5 200),
    rowX 0x03 0x03 .bool none (some 2) (.num 0) (.oneOf [1]),
    rowRO 0x10 0x10 .u8 (.num 0),
    rowRO 0x11 0x11 .u32 (.num 0),
    (rowRO 0x12 0x12 .domain (.blob [])).upTo 128]

/-- Objects of index 2000. -/
def rows2000 : List ObjRow :=
  [rowRO 0x01 0x01 .u32 (.num 0),
    rowRO 0x02 0x02 .u32 (.num 0),
    rowS 0x03 0x03 .u8 (.num 0) (.span 0 1),
    rowS 0x04 0x04 .bool (.num 0) (.span 0 1),
    rowX 0x05 0x05 .bool none (some 2) (.num 0) (.oneOf [1]),
    rowS 0x06 0x06 .u32 (.num 0) (.zeroOr 1 4294967295),
    rowRO 0x07 0x07 .u32 (.num 0),
    rowRO 0x08 0x08 .u32 (.num 0),
    rowRO 0x09 0x09 .u32 (.num 0),
    rowRO 0x0A 0x0A .u32 (.num 33554432),
    rowRO 0x0B 0x0B .u32 (.num 0),
    rowRO 0x0C 0x0C .u32 (.num 0)]
  ++ [rowRO 0x0D 0x0D .u32 (.num 0),
    rowRO 0x0E 0x0E .u32 (.num 0),
    rowRO 0x10 0x17 .u32 (.num 0),
    rowRO 0x18 0x18 .u32 (.num 0),
    rowS 0x20 0x20 .u8 (.num 2) (.span 1 25),
    rowS 0x21 0x21 .u8 (.num 4) (.span 1 64),
    rowRO 0x22 0x22 .u32 (.num 0),
    rowRO 0x23 0x23 .u32 (.num 0)]

/-- Objects of index 2030. -/
def rows2030 : List ObjRow :=
  [rowS 0x01 0x01 .u16 (.num 0) .any,
    rowS 0x02 0x02 .u16 (.num 0) .any,
    rowLS 0x03 0x03 .u16 (.num 0) .any,
    rowS 0x04 0x04 .u16 (.num 100) (.span 0 10000),
    rowRO 0x10 0x10 .u8 (.num 0)]

/-- Objects of index 2032. -/
def rows2032 : List ObjRow :=
  [rowS 0x01 0x01 .u8 (.num 0) (.span 0 1),
    rowS 0x02 0x02 .u16 (.num 0) (.span 0 2000),
    rowS 0x03 0x03 .u16 (.num 0) (.span 0 2000),
    rowS 0x04 0x04 .u8 (.num 3) (.span 0 3),
    rowS 0x05 0x05 .u16 (.num 4) (.span 1 1000),
    rowRO 0x10 0x10 .u32 (.num 0),
    rowRO 0x11 0x11 .u32 (.num 0)]

/-- Objects of index 2110 and its 1 further instances. -/
def rows2110 : List ObjRow :=
  [rowS 0x01 0x01 .bool (.num 0) (.span 0 1),
    rowS 0x02 0x02 .u8 (.num 0) (.span 0 3),
    rowS 0x03 0x03 .u8 (.num 2) (.span 1 25),
    rowS 0x04 0x04 .u32 (.num 0) (.span 0 979999),
    rowS 0x05 0x05 .u32 (.num 1) (.span 1 131072),
    rowS 0x06 0x06 .u32 (.num 245000) (.span 1 980000),
    rowS 0x07 0x07 .f32 (.num 1069280762) (.f32 1068708659 1069966950),
    rowS 0x08 0x08 .u32 (.num 5000) (.span 20 20000),
    rowS 0x09 0x09 .u32 (.num 0) (.zeroOr 5000 1000000),
    rowS 0x0A 0x0A .u32 (.num 0) (.zeroOrStep 16 100000000),
    rowS 0x0B 0x0B .u16 (.num 4) (.span 1 4096),
    rowS 0x0C 0x0C .u32 (.num 0) (.step 16 0 4294967295)]
  ++ [rowRO 0x10 0x10 .u32 (.num 0),
    rowRO 0x11 0x11 .u32 (.num 0),
    rowRO 0x12 0x12 .u32 (.num 0),
    rowRO 0x13 0x13 .u32 (.num 0),
    rowRO 0x14 0x14 .u32 (.num 0),
    rowRO 0x15 0x15 .u16 (.num 0)]

/-- Objects of index 2120 and its 1 further instances. -/
def rows2120 : List ObjRow :=
  [rowS 0x01 0x01 .u8 (.num 1) (.span 0 1),
    rowS 0x02 0x02 .u16 (.num 200) (.span 10 800),
    rowS 0x03 0x03 .u8 (.num 0) (.span 0 15),
    rowS 0x04 0x04 .u8 (.num 1) (.span 0 2),
    rowS 0x05 0x05 .u32 (.num 500) (.span 0 10000),
    rowS 0x06 0x06 .u16 (.num 1840) (.span 1 2047)]

/-- Objects of index 2130 and its 1 further instances. -/
def rows2130 : List ObjRow :=
  [rowS 0x01 0x01 .u16 (.num 32768) .any,
    rowS 0x02 0x02 .u16 (.num 0) .any,
    rowS 0x03 0x03 .u16 (.num 1000) (.span 1 65535)]

/-- Objects of index 2140 and its 1 further instances. -/
def rows2140 : List ObjRow :=
  [rowS 0x01 0x01 .u8 (.num 0) (.span 0 1),
    rowS 0x02 0x02 .u8 (.num 0) (.span 0 15),
    rowS 0x03 0x03 .u32 (.num 20000) (.span 0 50000000),
    rowS 0x04 0x04 .u8 (.num 1) (.span 1 16),
    rowS 0x10 0x1F .u32 (.num 1) (.span 0 1048575),
    rowRO 0x20 0x20 .u8 (.num 0)]

/-- Objects of index 2150 and its 1 further instances. -/
def rows2150 : List ObjRow :=
  [rowS 0x01 0x01 .u32 (.num 200) (.span 0 10000),
    rowS 0x02 0x02 .u16 (.num 20) (.span 2 500),
    rowS 0x03 0x03 .u32 (.num 0) (.span 0 100000),
    rowS 0x04 0x04 .u8 (.num 8) (.span 1 255),
    rowRO 0x10 0x10 .i32 (.num 0),
    rowRO 0x11 0x11 .i16 (.num 0),
    rowRO 0x12 0x12 .u32 (.num 0),
    rowRO 0x13 0x13 .u32 (.num 0),
    rowRO 0x14 0x14 .u8 (.num 0)]

/-- Objects of index 2160 and its 1 further instances. -/
def rows2160 : List ObjRow :=
  [rowS 0x01 0x01 .bool (.num 1) (.span 0 1),
    rowS 0x02 0x02 .u16 (.num 0) .any,
    rowS 0x03 0x03 .u16 (.num 30) (.span 10 200),
    rowS 0x04 0x04 .u8 (.num 0) (.span 0 1),
    rowS 0x05 0x05 .u16 (.num 100) (.span 10 10000),
    rowS 0x06 0x06 .bool (.num 0) (.span 0 1),
    rowX 0x07 0x07 .bool none (some 1) (.num 0) (.oneOf [1]),
    rowS 0x08 0x08 .u32 (.num 0) .any,
    rowS 0x09 0x09 .u32 (.num 0) .any,
    rowS 0x0A 0x0A .u64 (.num 0) .any,
    rowS 0x0B 0x0B .u64 (.num 0) .any,
    rowS 0x0C 0x0C .u16 (.num 0) .any]
  ++ [rowS 0x0D 0x0D .u16 (.num 0) .any,
    rowRO 0x10 0x10 .u8 (.num 0),
    rowRO 0x11 0x11 .u64 (.num 0),
    rowRO 0x12 0x12 .u32 (.num 0),
    rowS 0x20 0x20 .domain (.blob (List.replicate 512 0)) (.len 512 512 1)]

/-- Objects of index 2170 and its 1 further instances. -/
def rows2170 : List ObjRow :=
  [rowS 0x01 0x01 .bool (.num 0) (.span 0 1),
    rowS 0x02 0x02 .u16 (.num 4) (.span 1 4096),
    rowS 0x03 0x03 .u32 (.num 0) (.step 16 0 99999984),
    rowS 0x04 0x04 .u16 (.num 20) (.span 10 2000)]

/-- Objects of index 2180 and its 1 further instances. -/
def rows2180 : List ObjRow :=
  [rowS 0x01 0x01 .u8 (.num 1) (.span 0 1),
    rowS 0x02 0x02 .u8 (.num 0) (.span 0 3),
    rowS 0x03 0x03 .u8 (.num 0) (.span 0 3),
    rowS 0x04 0x04 .u8 (.num 3) (.span 0 3),
    rowS 0x05 0x05 .u16 (.num 1) (.span 1 1000),
    rowS 0x06 0x06 .u16 (.num 896) (.span 256 1000),
    rowS 0x07 0x07 .u16 (.num 64) (.span 1 65535),
    rowS 0x08 0x08 .u16 (.num 1000) (.span 0 20000),
    rowRO 0x10 0x10 .u8 (.num 0),
    rowRO 0x11 0x11 .u32 (.num 0),
    rowRO 0x12 0x12 .u32 (.num 0),
    rowRO 0x13 0x13 .u32 (.num 0)]
  ++ [rowRO 0x14 0x14 .u16 (.num 0)]

/-- Objects of index 2190 and its 1 further instances. -/
def rows2190 : List ObjRow :=
  [rowS 0x01 0x01 .bool (.num 1) (.span 0 1),
    rowS 0x02 0x02 .u16 (.num 20) (.span 5 200),
    rowS 0x03 0x03 .u16 (.num 600) (.span 10 3600),
    rowS 0x04 0x04 .u16 (.num 256) (.span 16 4096),
    rowX 0x05 0x05 .bool none (some 2) (.num 0) (.oneOf [1]),
    rowS 0x06 0x06 .bool (.num 1) (.span 0 1),
    rowS 0x07 0x07 .u16 (.num 64) (.span 1 4096),
    rowS 0x08 0x08 .u8 (.num 40) (.span 20 60),
    rowRO 0x10 0x10 .i16 (.num 0),
    rowRO 0x11 0x11 .i16 (.num 0),
    rowRO 0x12 0x12 .u32 (.num 0),
    rowRO 0x13 0x13 .u16 (.num 0)]
  ++ [rowRO 0x14 0x14 .u32 (.num 0),
    rowRO 0x15 0x15 .u32 (.num 0),
    rowRO 0x20 0x20 .u16 (.num 0),
    rowRO 0x21 0x21 .u16 (.num 0),
    rowRO 0x22 0x22 .u16 (.num 0),
    rowRO 0x23 0x23 .u16 (.num 0),
    rowRO 0x24 0x24 .i16 (.num 0),
    rowRO 0x25 0x25 .i16 (.num 0),
    rowRO 0x26 0x26 .i16 (.num 0),
    rowRO 0x27 0x27 .i16 (.num 0),
    (rowRO 0x30 0x30 .domain (.blob [])).upTo 160]

/-- Objects of index 21A0 and its 1 further instances. -/
def rows21A0 : List ObjRow :=
  [rowS 0x01 0x01 .u8 (.num 0) (.span 0 3),
    rowS 0x02 0x02 .u8 (.num 0) (.span 0 3),
    rowS 0x03 0x03 .u8 (.num 3) (.span 0 7),
    rowS 0x04 0x04 .u8 (.num 3) (.span 0 7),
    rowS 0x05 0x05 .u16 (.num 2000) (.span 100 10000),
    rowS 0x06 0x06 .u32 (.num 0) (.span 0 100000),
    rowRO 0x10 0x10 .i16 (.num 0),
    rowRO 0x11 0x11 .i16 (.num 0),
    rowRO 0x12 0x12 .u16 (.num 0),
    rowRO 0x13 0x13 .u16 (.num 0),
    rowRO 0x14 0x14 .u32 (.num 0),
    rowRO 0x15 0x15 .u8 (.num 0)]

/-- Objects of index 2400. -/
def rows2400 : List ObjRow :=
  [rowS 0x01 0x01 .u32 (.num 600) (.zeroOr 60 86400),
    rowRO 0x02 0x02 .u8 (.num 16),
    rowRO 0x03 0x03 .u32 (.num 0),
    rowRO 0x04 0x04 .u32 (.num 0),
    rowRO 0x05 0x05 .u32 (.num 0),
    rowRO 0x06 0x06 .u32 (.num 0),
    rowRO 0x07 0x07 .u8 (.num 0),
    (rowRO 0x10 0x10 .domain (.blob [])).upTo 196]

/-- Objects of index 2410 and its 1 further instances. -/
def rows2410 : List ObjRow :=
  [rowS 0x01 0x01 .u8 (.num 10) (.span 1 64),
    rowS 0x02 0x02 .u8 (.num 0) (.span 0 8),
    rowS 0x03 0x06 .u16 (.num 16384) (.span 8192 32767),
    rowS 0x07 0x07 .u32 (.num 0) .any,
    rowS 0x08 0x08 .u32 (.num 0) .any,
    rowS 0x09 0x09 .u8 (.num 16) (.span 0 48),
    rowS 0x0A 0x0A .u8 (.num 16) (.span 1 255),
    rowS 0x0B 0x0B .u8 (.num 2) (.span 1 8),
    rowS 0x0C 0x0C .u8 (.num 8) (.span 4 16),
    rowS 0x0D 0x0D .u8 (.num 16) (.span 4 64),
    rowS 0x0E 0x0E .f32 (.num 1153549271) (.f32 1153138688 1154203648),
    rowS 0x0F 0x0F .f32 (.num 1061662228) (.f32 1056964608 1065353216)]
  ++ [rowRO 0x10 0x10 .u8 (.num 0),
    rowRO 0x11 0x11 .u16 (.num 0),
    rowRO 0x12 0x15 .u32 (.num 0),
    rowRO 0x16 0x16 .u32 (.num 0),
    rowRO 0x17 0x17 .u32 (.num 0),
    rowRO 0x18 0x18 .u32 (.num 0),
    rowRO 0x19 0x19 .u32 (.num 0),
    rowRO 0x1A 0x1A .f32 (.num 0)]

/-- Objects of index 2510 and its 1 further instances. -/
def rows2510 : List ObjRow :=
  [rowS 0x01 0x01 .u8 (.num 10) (.span 0 16),
    rowS 0x02 0x02 .u16 (.num 1) (.span 1 64),
    rowS 0x03 0x03 .u16 (.num 16) (.span 0 65535),
    rowS 0x04 0x04 .u32 (.num 233970) (.span 200000 280000),
    rowS 0x05 0x05 .i32 (.num 0) .any,
    rowS 0x06 0x06 .u8 (.num 8) (.span 0 64),
    rowS 0x07 0x07 .u32 (.num 0) .any,
    rowS 0x08 0x08 .u32 (.num 0) .any,
    rowS 0x09 0x09 .i32 (.num 0) .any,
    rowX 0x0A 0x0A .bool none (some 2) (.num 0) (.oneOf [1]),
    rowS 0x0B 0x0B .u16 (.num 16) (.span 1 1024),
    rowRO 0x10 0x10 .i32 (.num 0)]
  ++ [rowRO 0x11 0x11 .i32 (.num 0),
    rowRO 0x12 0x12 .i32 (.num 0),
    rowRO 0x13 0x13 .i32 (.num 0),
    rowRO 0x14 0x14 .u16 (.num 0),
    rowRO 0x15 0x15 .u32 (.num 0),
    rowRO 0x16 0x16 .u32 (.num 0),
    rowRO 0x30 0x30 .domain (.blob [])]

/-- Objects of index 2530 and its 1 further instances. -/
def rows2530 : List ObjRow :=
  [rowS 0x01 0x01 .u16 (.num 64) (.span 0 4096),
    rowS 0x02 0x02 .u8 (.num 32) (.span 4 48),
    rowS 0x03 0x03 .u8 (.num 16) (.span 2 46),
    rowS 0x04 0x04 .u8 (.num 128) (.span 16 255),
    rowS 0x05 0x05 .u8 (.num 4) (.span 1 255),
    rowS 0x06 0x06 .u16 (.num 16) (.span 1 4096),
    rowS 0x07 0x07 .f32 (.num 1088317030) (.f32 1065353216 1101004800),
    rowS 0x08 0x08 .f32 (.num 1061662228) (.f32 1036831949 1073741824),
    rowRO 0x10 0x13 .i32 (.num 0),
    rowRO 0x14 0x14 .u32 (.num 0),
    rowRO 0x15 0x15 .u32 (.num 0),
    rowRO 0x16 0x16 .u32 (.num 0)]
  ++ [rowRO 0x17 0x17 .u32 (.num 0),
    rowRO 0x18 0x18 .u32 (.num 0)]

/-- Objects of index 2550 and its 1 further instances. -/
def rows2550 : List ObjRow :=
  [rowS 0x01 0x01 .u8 (.num 4) (.span 0 12),
    rowRO 0x10 0x10 .u32 (.num 0),
    rowS 0x20 0x20 .domain (.blob []) (.len 0 512 8)]

/-- Objects of index 2610 and its 1 further instances. -/
def rows2610 : List ObjRow :=
  [rowS 0x01 0x01 .bool (.num 1) (.span 0 1),
    rowS 0x02 0x02 .u8 (.num 0) (.span 0 1),
    rowS 0x03 0x03 .u8 (.num 4) (.span 1 64),
    rowS 0x04 0x04 .u16 (.num 1) (.span 1 4096),
    rowS 0x05 0x05 .u8 (.num 13) (.span 0 47),
    rowS 0x06 0x06 .u16 (.num 32768) (.span 1 65535),
    rowS 0x07 0x07 .u8 (.num 0) (.zeroOr 4 30),
    rowS 0x08 0x08 .u32 (.num 0) (.span 0 100000000),
    rowS 0x09 0x09 .u8 (.num 4) (.span 0 12),
    rowLS 0x0A 0x0A .u8 (.num 0) (.span 0 3),
    rowS 0x0B 0x0B .u8 (.num 1) (.span 1 64),
    rowS 0x0C 0x0C .u8 (.num 0) (.span 0 3)]
  ++ [rowS 0x10 0x10 .u8 (.num 0) (.span 0 4),
    rowS 0x11 0x11 .u16 (.num 1) (.span 1 4096),
    rowS 0x12 0x12 .bool (.num 0) (.span 0 1),
    rowS 0x13 0x13 .u16 (.num 16) (.span 0 4096),
    rowS 0x14 0x14 .bool (.num 0) (.span 0 1),
    rowLS 0x18 0x18 .u8 (.num 0) (.span 0 31),
    rowLS 0x19 0x1C .u16 (.num 512) (.span 16 8192),
    rowLS 0x1D 0x1D .u16 (.num 0) (.zeroOr 1 32768),
    rowS 0x1E 0x1E .u8 (.num 10) (.span 1 16),
    rowS 0x1F 0x1F .u8 (.num 2) (.span 0 16),
    rowS 0x20 0x20 .u8 (.num 4) (.span 0 255),
    rowS 0x21 0x21 .u8 (.num 2) (.span 0 64)]
  ++ [rowS 0x22 0x22 .u16 (.num 64) (.span 1 1024),
    rowS 0x30 0x33 .domain (.blob []) (.zeroOrLen 96 608),
    rowRO 0x40 0x40 .u32 (.num 0),
    rowRO 0x41 0x41 .f32 (.num 0),
    rowRO 0x42 0x42 .u8 (.num 0),
    rowRO 0x43 0x43 .u8 (.num 0),
    rowRO 0x44 0x44 .u32 (.num 0),
    rowRO 0x45 0x45 .u32 (.num 0),
    rowRO 0x46 0x46 .u32 (.num 0)]

/-- Objects of index 2700. -/
def rows2700 : List ObjRow :=
  [rowS 0x01 0x01 .u8 (.num 0) (.span 0 255)]

/-- Objects of index 2710 and its 7 further instances. -/
def rows2710 : List ObjRow :=
  [rowS 0x01 0x01 .domain (.blob []) (.len 0 16384 4),
    rowS 0x02 0x02 .domain (.blob []) (.len 0 32768 4),
    rowS 0x03 0x03 .domain (.blob []) (.len 0 32768 4),
    rowS 0x10 0x13 .domain (.blob (List.replicate 32 0)) (.len 32 32 1),
    rowS 0x18 0x1B .domain (.blob []) (.len 0 256 4),
    rowRO 0x20 0x20 .u8 (.num 0),
    rowRO 0x21 0x21 .u32 (.num 0),
    rowRO 0x22 0x22 .u32 (.num 0),
    rowRO 0x23 0x23 .u32 (.num 0),
    rowRO 0x24 0x24 .u32 (.num 0),
    rowRO 0x25 0x25 .u32 (.num 0),
    rowRO 0x26 0x26 .u32 (.num 0)]
  ++ [rowRO 0x27 0x27 .u32 (.num 0),
    rowRO 0x28 0x28 .u32 (.num 0),
    rowRO 0x29 0x29 .u32 (.num 0),
    rowRO 0x2A 0x2A .u32 (.num 0),
    (rowX 0x30 0x30 .domain (some 2) none (.blob []) .any).upTo 32768,
    (rowX 0x31 0x31 .domain (some 2) none (.blob []) .any).upTo 32768]

/-- Objects of index 2800. -/
def rows2800 : List ObjRow :=
  [rowS 0x01 0x01 .u8 (.num 0) (.span 0 1),
    rowS 0x02 0x02 .u8 (.num 0) (.span 0 1),
    rowS 0x03 0x03 .u8 (.num 0) (.span 0 255),
    rowS 0x04 0x04 .u8 (.num 0) (.span 0 255),
    rowS 0x05 0x05 .u16 (.num 1000) (.span 100 65535),
    rowRO 0x10 0x10 .u32 (.num 0),
    rowRO 0x11 0x11 .u32 (.num 0)]

/-- Objects of index 2810 and its 1 further instances. -/
def rows2810 : List ObjRow :=
  [rowS 0x01 0x01 .u8 (.num 0) (.span 0 3),
    rowS 0x02 0x02 .u32 (.num 0) .any,
    rowS 0x03 0x03 .u32 (.num 0) (.span 0 131072),
    rowS 0x04 0x04 .u32 (.num 0) (.span 0 16384),
    rowRO 0x10 0x10 .u32 (.num 0),
    rowRO 0x11 0x11 .u32 (.num 0),
    rowRO 0x12 0x12 .u64 (.num 0),
    rowRO 0x13 0x13 .u64 (.num 0),
    rowRO 0x14 0x14 .u32 (.num 0)]

/-- Objects of index 2840 and its 7 further instances. -/
def rows2840 : List ObjRow :=
  [rowS 0x01 0x01 .bool (.num 0) (.span 0 1),
    rowS 0x02 0x02 .u8 (.num 0) (.span 0 1),
    rowS 0x03 0x03 .u8 (.num 1) (.span 0 127),
    rowS 0x04 0x04 .u8 (.num 31) (.span 0 31),
    rowS 0x05 0x05 .u8 (.num 0) (.zeroOr 0x80 0xBF),
    rowS 0x06 0x06 .u8 (.num 0) (.span 0 15),
    rowS 0x07 0x07 .u32 (.num 0) .any,
    rowS 0x08 0x08 .u32 (.num 1) (.span 1 131072),
    rowS 0x09 0x09 .u32 (.num 0) .any,
    rowS 0x0A 0x0A .u32 (.num 0) .any,
    rowS 0x0B 0x0B .u16 (.num 1) (.span 1 65535),
    rowS 0x0C 0x0C .u8 (.num 0) (.span 0 1)]
  ++ [rowS 0x0E 0x0E .u16 (.num 200) (.span 50 4000),
    rowS 0x0F 0x0F .u32 (.num 0) .any,
    rowS 0x10 0x10 .i16 (.num 0) .any,
    rowS 0x11 0x11 .u8 (.num 0) (.span 0 2),
    rowS 0x12 0x12 .u16 (.num 0) (.span 0 32767),
    rowS 0x13 0x13 .bool (.num 1) (.span 0 1),
    rowS 0x14 0x14 .u8 (.num 255) (.spanOr 0 15 255),
    rowX 0x18 0x18 .bool none (some 1) (.num 0) (.oneOf [1]),
    rowX 0x19 0x19 .bool none (some 1) (.num 0) (.oneOf [1]),
    rowRO 0x1A 0x1A .u32 (.num 0),
    rowRO 0x20 0x20 .u8 (.num 0),
    rowRO 0x21 0x21 .u32 (.num 0)]
  ++ [rowRO 0x22 0x22 .u32 (.num 0),
    rowRO 0x23 0x23 .u32 (.num 0),
    (rowRO 0x30 0x30 .domain (.blob [])).upTo 64,
    rowRO 0x31 0x31 .domain (.blob [])]

/-- Objects of index 2900. -/
def rows2900 : List ObjRow :=
  [rowS 0x01 0x01 .u16 (.num 8192) (.step 64 512 8192),
    rowS 0x02 0x02 .u32 (.num 1000000) (.span 0 10000000),
    rowS 0x03 0x03 .u16 (.num 2000) (.span 100 20000),
    rowS 0x04 0x04 .u32 (.num 1000) (.span 10 60000),
    rowS 0x05 0x05 .domain (.blob []) (.len 0 256 4)]

/-- Table 11.3, objects of a stream. -/
def rows2910 : List ObjRow :=
  [rowS 0x01 0x01 .u8 (.num 0) (.span 0 3),
    rowS 0x02 0x02 .u32 (.num 0) .any,
    rowS 0x03 0x03 .u32 (.num 0) .any,
    rowS 0x04 0x04 .u16 (.num 20842) (.span 1 65535),
    rowS 0x05 0x05 .bool (.num 0) (.span 0 1),
    rowS 0x06 0x06 .u8 (.num 2) (.span 0 7),
    rowS 0x07 0x07 .u8 (.num 0) (.span 0 63),
    rowRO 0x10 0x10 .u32 (.num 0),
    rowRO 0x11 0x11 .u32 (.num 0),
    rowRO 0x12 0x12 .u32 (.num 0),
    rowRO 0x13 0x13 .u32 (.num 0),
    rowRO 0x14 0x14 .u16 (.num 0)]

/-- Table 11.3, the further object of stream 0x07. -/
def rows2970 : List ObjRow :=
  [rowRO 0x15 0x15 .u32 (.num 0)]

/-- Objects of index 2A00. -/
def rows2A00 : List ObjRow :=
  [rowS 0x01 0x01 .u32 (.num 4096) (.span 256 1048576),
    rowS 0x02 0x02 .u8 (.num 4) (.span 1 64),
    rowS 0x03 0x03 .u8 (.num 4) (.span 1 64),
    rowS 0x04 0x04 .u16 (.num 300) (.span 50 3000),
    rowS 0x05 0x05 .u16 (.num 20) (.span 5 1000),
    rowS 0x06 0x06 .u16 (.num 64) (.span 16 1024),
    rowS 0x07 0x07 .u16 (.num 300) (.span 100 2000),
    rowX 0x08 0x08 .bool none (some 2) (.num 0) (.oneOf [1]),
    rowX 0x09 0x09 .bool none (some 2) (.num 0) (.oneOf [1]),
    rowS 0x0A 0x0A .u16 (.num 256) (.span 16 65535),
    rowS 0x0B 0x0B .u32 (.num 250) (.span 0 100000),
    rowS 0x0C 0x0C .u32 (.num 1000) (.span 16 100000)]
  ++ [rowS 0x0D 0x0D .u8 (.num 10) (.span 0 255),
    rowS 0x0E 0x0E .u8 (.num 0) (.span 0 15),
    rowRO 0x10 0x10 .u8 (.num 0),
    rowRO 0x11 0x11 .u8 (.num 0)]

/-- Objects of index 2A10 and its 1 further instances. -/
def rows2A10 : List ObjRow :=
  [rowS 0x01 0x01 .u32 (.num 0) (.zeroOr 1 100000),
    rowS 0x02 0x02 .u32 (.num 0) (.zeroOr 1 10000),
    rowRO 0x10 0x10 .u32 (.num 4294967295),
    rowRO 0x11 0x11 .f32 (.num 0),
    rowRO 0x12 0x12 .u64 (.num 0),
    rowRO 0x13 0x13 .u64 (.num 0),
    rowRO 0x14 0x14 .u64 (.num 0),
    rowRO 0x15 0x15 .u64 (.num 0),
    (rowRO 0x20 0x20 .domain (.blob [])).upTo 1040]

/-- Objects of index 2A30. -/
def rows2A30 : List ObjRow :=
  [rowS 0x01 0x01 .u32 (.num 0) .any,
    rowS 0x02 0x02 .bool (.num 0) (.span 0 1),
    rowRO 0x03 0x03 .u8 (.num 0),
    rowRO 0x04 0x04 .u32 (.num 0),
    rowRO 0x10 0x10 .u32 (.num 0),
    rowRO 0x11 0x11 .u8 (.num 0),
    rowRO 0x12 0x12 .u32 (.num 4294967295)]

/-- Objects of index 5000. -/
def rows5000 : List ObjRow :=
  [rowRO 0x01 0x01 .u32 (.num 0),
    rowRO 0x02 0x02 .u32 (.num 0),
    rowRO 0x10 0x10 .domain (.blob []),
    rowX 0x11 0x11 .bool none (some 2) (.num 0) (.oneOf [1])]

/-- The whole dictionary by index (Table 12.9). -/
def objGroups : List ObjGroup :=
  [⟨0x1000, 1, 0x0, rows1000⟩, ⟨0x1110, 2, 0x1, rows1110⟩, ⟨0x1120, 2, 0x1, rows1120⟩, ⟨0x1130, 1, 0x0, rows1130⟩, ⟨0x1140, 1, 0x0, rows1140⟩, ⟨0x1150, 1, 0x0, rows1150⟩, ⟨0x1200, 1, 0x0, rows1200⟩, ⟨0x1210, 1, 0x0, rows1210⟩, ⟨0x1300, 1, 0x0, rows1300⟩, ⟨0x1400, 1, 0x0, rows1400⟩]
  ++ [⟨0x1420, 8, 0x1, rows1420⟩, ⟨0x1430, 1, 0x0, rows1430⟩, ⟨0x1438, 1, 0x0, rows1438⟩, ⟨0x1440, 1, 0x0, rows1440⟩, ⟨0x1450, 1, 0x0, rows1450⟩, ⟨0x1500, 1, 0x0, rows1500⟩, ⟨0x1510, 1, 0x0, rows1510⟩, ⟨0x1520, 1, 0x0, rows1520⟩, ⟨0x1600, 1, 0x0, rows1600⟩, ⟨0x1610, 2, 0x1, rows1610⟩]
  ++ [⟨0x1620, 1, 0x0, rows1620⟩, ⟨0x1700, 1, 0x0, rows1700⟩, ⟨0x1800, 1, 0x0, rows1800⟩, ⟨0x1808, 1, 0x0, rows1808⟩, ⟨0x1810, 1, 0x0, rows1810⟩, ⟨0x1811, 1, 0x0, rows1811⟩, ⟨0x1812, 1, 0x0, rows1812⟩, ⟨0x1820, 1, 0x0, rows1820⟩, ⟨0x1821, 1, 0x0, rows1821⟩, ⟨0x1822, 1, 0x0, rows1822⟩]
  ++ [⟨0x1830, 1, 0x0, rows1830⟩, ⟨0x1840, 1, 0x0, rows1840⟩, ⟨0x1850, 1, 0x0, rows1850⟩, ⟨0x2000, 1, 0x0, rows2000⟩, ⟨0x2030, 1, 0x0, rows2030⟩, ⟨0x2032, 1, 0x0, rows2032⟩, ⟨0x2110, 2, 0x100, rows2110⟩, ⟨0x2120, 2, 0x100, rows2120⟩, ⟨0x2130, 2, 0x100, rows2130⟩, ⟨0x2140, 2, 0x100, rows2140⟩]
  ++ [⟨0x2150, 2, 0x100, rows2150⟩, ⟨0x2160, 2, 0x100, rows2160⟩, ⟨0x2170, 2, 0x100, rows2170⟩, ⟨0x2180, 2, 0x100, rows2180⟩, ⟨0x2190, 2, 0x100, rows2190⟩, ⟨0x21A0, 2, 0x100, rows21A0⟩, ⟨0x2400, 1, 0x0, rows2400⟩, ⟨0x2410, 2, 0x10, rows2410⟩, ⟨0x2510, 2, 0x10, rows2510⟩, ⟨0x2530, 2, 0x10, rows2530⟩]
  ++ [⟨0x2550, 2, 0x10, rows2550⟩, ⟨0x2610, 2, 0x10, rows2610⟩, ⟨0x2700, 1, 0x0, rows2700⟩, ⟨0x2710, 8, 0x10, rows2710⟩, ⟨0x2800, 1, 0x0, rows2800⟩, ⟨0x2810, 2, 0x10, rows2810⟩, ⟨0x2840, 8, 0x10, rows2840⟩, ⟨0x2900, 1, 0x0, rows2900⟩, ⟨0x2910, 6, 0x10, rows2910⟩, ⟨0x2970, 1, 0, rows2910 ++ rows2970⟩]
  ++ [⟨0x2980, 5, 0x10, rows2910⟩, ⟨0x2A00, 1, 0x0, rows2A00⟩, ⟨0x2A10, 2, 0x10, rows2A10⟩, ⟨0x2A30, 1, 0x0, rows2A30⟩, ⟨0x5000, 1, 0x0, rows5000⟩]

/-- Whether an index is one of a group's instances. -/
def ObjGroup.holds (g : ObjGroup) (idx : Nat) : Bool :=
  (List.range g.count).any (fun i => idx == g.base + i * g.stride)

/-- The highest sub-index present (R6). -/
def ObjGroup.highest (g : ObjGroup) : Nat := g.rows.foldl (fun m r => Nat.max m r.hi) 0

/-- What an index and sub-index name: sub-index 00 is a U8 holding the highest present (R6). -/
inductive ObjRef where
  | noObject
  | noSubindex
  | count (n : Nat)
  | row (r : ObjRow)
  deriving DecidableEq, Repr

/-- The group of an index. -/
def findGroup (idx : Nat) : Option ObjGroup := objGroups.find? (fun g => g.holds idx)

/-- The object named by an index and a sub-index (R312). -/
def findObj (idx sub : Nat) : ObjRef :=
  match findGroup idx with
  | none => .noObject
  | some g =>
    if sub == 0 then .count g.highest
    else match g.rows.find? (fun r => decide (r.lo ≤ sub) && decide (sub ≤ r.hi)) with
      | some r => .row r
      | none => .noSubindex

/-- The key of an object in `State.od`. -/
def objKey (idx sub : Nat) : Nat := idx * 256 + sub

/-- The row of a key, if it names an object. -/
def rowOf (key : Nat) : Option ObjRow :=
  match findObj (key / 256) (key % 256) with
  | .row r => some r
  | _ => none

/-- The default of an object (R312); zero where a key names none. -/
def defaultOf (key : Nat) : Val :=
  match rowOf key with
  | some r => r.dflt
  | none => .num 0

/-- The bytes a value of the type takes on the wire (Table 12.1); none for a length that the message gives. -/
def Ty.width : Ty → Option Nat
  | .bool | .i8 | .u8 => some 1
  | .i16 | .u16 => some 2
  | .i32 | .u32 | .f32 => some 4
  | .i64 | .u64 => some 8
  | .time80 => some 10
  | .str | .domain => none

/-- Whether the type is two's complement. -/
def Ty.signed : Ty → Bool
  | .i8 | .i16 | .i32 | .i64 => true
  | _ => false

/-- The type code of Table 12.1. -/
def Ty.code : Ty → Nat
  | .bool => 0x01
  | .i8 => 0x02
  | .i16 => 0x03
  | .i32 => 0x04
  | .u8 => 0x05
  | .u16 => 0x06
  | .u32 => 0x07
  | .f32 => 0x08
  | .str => 0x09
  | .domain => 0x0F
  | .i64 => 0x15
  | .u64 => 0x1B
  | .time80 => 0x40

/-- Whether the value is held as a byte block. -/
def Ty.isBlob : Ty → Bool
  | .str | .domain | .time80 => true
  | _ => false

end Sys2Proof.Machine
end

