-- ==== Sys2Proof/Machine/Ops.lean ====
section
/-! DEFINITION. The named operations over the state that every family uses: sparse maps, the values of the
dictionary in force, the values a route runs on while a commit takes effect (R30, R60), free values, messages,
device time, the safe outputs (R105, Table 3.9) and the routes' objects. -/

namespace Sys2Proof.Machine

open Sys2Proof

/-! ### Sparse maps -/

/-- The entry of a map at a number. -/
def mapGet {α : Type} : Map α → Nat → Option α
  | [], _ => none
  | (j, v) :: t, k => if j = k then some v else mapGet t k

/-- Sets the entry of a map, keeping the numbers rising. -/
def mapSet {α : Type} : Map α → Nat → α → Map α
  | [], k, v => [(k, v)]
  | (j, w) :: t, k, v =>
    if k < j then (k, v) :: (j, w) :: t else if k = j then (k, v) :: t else (j, w) :: mapSet t k v

/-- Removes the entry of a map. -/
def mapDel {α : Type} (m : Map α) (k : Nat) : Map α := m.filter (fun e => e.1 != k)

/-- Whether the numbers of a map rise strictly. -/
def mapRising {α : Type} : Map α → Bool
  | [] => true
  | [_] => true
  | (j, _) :: (k, w) :: t => decide (j < k) && mapRising ((k, w) :: t)

/-! ### Values -/

/-- The number of a value. -/
def Val.toNat : Val → Nat
  | .num n => n
  | .blob b => beNat b

/-- The bytes of a value held as a block. -/
def Val.toBytes : Val → Bytes
  | .num _ => []
  | .blob b => b

/-- Reads a dictionary at a key; an unlisted key has its table's default (R312). -/
def dictGet (d : Dict) (k : Nat) : Val := (mapGet d k).getD (defaultOf k)

/-- Writes a dictionary at a key, dropping an entry equal to the default. -/
def dictSet (d : Dict) (k : Nat) (v : Val) : Dict := if v = defaultOf k then mapDel d k else mapSet d k v

/-- A number of a dictionary. -/
def dictNum (d : Dict) (idx sub : Nat) : Nat := (dictGet d (objKey idx sub)).toNat

/-- A signed number of `w` bits of a dictionary. -/
def dictInt (d : Dict) (idx sub w : Nat) : Int := toSigned (dictNum d idx sub) w

/-- A block of a dictionary. -/
def dictBlob (d : Dict) (idx sub : Nat) : Bytes := (dictGet d (objKey idx sub)).toBytes

/-- The value in force of an object. -/
def State.val (s : State) (k : Nat) : Val := dictGet s.od k

/-- The value in force of an object as a number. -/
def State.num (s : State) (idx sub : Nat) : Nat := dictNum s.od idx sub

/-- The value in force of an object as a signed number of `w` bits. -/
def State.int (s : State) (idx sub w : Nat) : Int := dictInt s.od idx sub w

/-- Whether the value in force of an object is not zero. -/
def State.on (s : State) (idx sub : Nat) : Bool := s.num idx sub != 0

/-- The block in force of an object. -/
def State.blob (s : State) (idx sub : Nat) : Bytes := dictBlob s.od idx sub

/-- Sets the value in force of an object. -/
def State.setVal (s : State) (k : Nat) (v : Val) : State := { s with od := dictSet s.od k v }

/-- Sets the value in force of an object to a number. -/
def State.put (s : State) (idx sub n : Nat) : State := s.setVal (objKey idx sub) (.num n)

/-- Sets the value in force of an object to a signed number of `w` bits, saturated (R15). -/
def State.putI (s : State) (idx sub w : Nat) (x : Int) : State := s.put idx sub (ofSigned (sat x w) w)

/-- Sets the value in force of an object to a block. -/
def State.putB (s : State) (idx sub : Nat) (b : Bytes) : State := s.setVal (objKey idx sub) (.blob b)

/-- Adds to a count of 32 bits that wraps. -/
def State.bump (s : State) (idx sub k : Nat) : State := s.put idx sub (incWrap (s.num idx sub) k 32)

/-- Sets or clears one bit of an object. -/
def State.putBit (s : State) (idx sub k : Nat) (b : Bool) : State :=
  s.put idx sub (setBit (s.num idx sub) k b)

/-! ### Free values and messages -/

/-- Draws a free value: a value of which nothing is known, and the state with the counter advanced. -/
def State.draw (s : State) : Nat × State := (Config.freeValue s.free, { s with free := s.free + 1 })

/-- Appends a message leaving a port. -/
def State.emit (s : State) (m : OutMsg) : State := { s with out := s.out ++ [m] }

/-- The rates that the codes of OD 1140.02 and OD 1140.03 name, in kbit/s. -/
def canNominal (code : Nat) : Nat := [125, 250, 500, 1000].getD code 1000
def canData (code : Nat) : Nat := [1000, 2000, 4000, 5000].getD code 5000

/-- Sends a CAN FD frame, with bit rate switching when the data rate exceeds the nominal rate (R330). -/
def State.canSend (s : State) (cob : Nat) (b : Bytes) : State :=
  s.emit (.can cob (decide (canNominal (s.num 0x1140 0x02) < canData (s.num 0x1140 0x03))) b)

/-! ### Routes -/

/-- 0 for route A, 1 for route B. -/
def routeNum : Route → Nat
  | .a => 0
  | .b => 1

/-- The other route. -/
def otherRoute : Route → Route
  | .a => .b
  | .b => .a

/-- The index of a route's object 0x100 apart (chapters 2 to 4). -/
def at100 (base : Nat) (r : Route) : Nat := base + 0x100 * routeNum r

/-- The index of a route's object 0x10 apart (chapters 5 to 8, 10). -/
def at10 (base : Nat) (r : Route) : Nat := base + 0x10 * routeNum r

/-- One route of the state. -/
def State.route (s : State) : Route → RouteState
  | .a => s.routeA
  | .b => s.routeB

/-- Replaces one route of the state. -/
def State.setRoute (s : State) (r : Route) (x : RouteState) : State :=
  match r with
  | .a => { s with routeA := x }
  | .b => { s with routeB := x }

/-- Updates one route of the state. -/
def State.modRoute (s : State) (r : Route) (f : RouteState → RouteState) : State := s.setRoute r (f (s.route r))

/-- Updates the optics of a route. -/
def State.modOptics (s : State) (r : Route) (f : Optics → Optics) : State :=
  s.modRoute r (fun x => { x with optics := f x.optics })

/-- Updates the CRX of a route. -/
def State.modCrx (s : State) (r : Route) (f : Crx → Crx) : State := s.modRoute r (fun x => { x with crx := f x.crx })

/-- Updates the Rayleigh processing of a route. -/
def State.modRay (s : State) (r : Route) (f : Rayleigh → Rayleigh) : State :=
  s.modRoute r (fun x => { x with ray := f x.ray })

/-- Updates the filter chain of a route. -/
def State.modFdc (s : State) (r : Route) (f : Fdc → Fdc) : State := s.modRoute r (fun x => { x with fdc := f x.fdc })

/-- Updates the temperature paths of a route. -/
def State.modThermal (s : State) (r : Route) (f : Thermal → Thermal) : State :=
  s.modRoute r (fun x => { x with thermal := f x.thermal })

/-- Updates the Comb of a route. -/
def State.modComb (s : State) (r : Route) (f : Comb → Comb) : State :=
  s.modRoute r (fun x => { x with comb := f x.comb })

/-! ### The configuration a route runs on -/

/-- Whether a key names an object that carries S. -/
def isDraftObj (k : Nat) : Bool :=
  match rowOf k with
  | some o => o.draft
  | none => false

/-- Whether a pending configuration has already taken effect on a route (R60). -/
def PendingConfig.took (p : PendingConfig) : Route → Bool
  | .a => !p.waitA
  | .b => !p.waitB

/-- The dictionary a route runs on: the admitted configuration once it has taken effect on the route, the
configuration in force before. -/
def State.cfgOf (s : State) (r : Route) (k : Nat) : Val :=
  match s.control.pending with
  | some p => if p.took r && isDraftObj k then dictGet p.values k else s.val k
  | none => s.val k

/-- A number of the configuration a route runs on. -/
def State.cfg (s : State) (r : Route) (idx sub : Nat) : Nat := (s.cfgOf r (objKey idx sub)).toNat

/-- A signed number of the configuration a route runs on. -/
def State.cfgI (s : State) (r : Route) (idx sub w : Nat) : Int := toSigned (s.cfg r idx sub) w

/-- A block of the configuration a route runs on. -/
def State.cfgB (s : State) (r : Route) (idx sub : Nat) : Bytes := (s.cfgOf r (objKey idx sub)).toBytes

/-- Whether Loop Guard is configured (OD 2000.03). -/
def State.loopGuard (s : State) : Bool := s.cfg .a 0x2000 0x03 == 1

/-- The route whose objects govern a route: route A for both ends under Loop Guard (R46). -/
def State.gov (s : State) (r : Route) : Route := if s.loopGuard then .a else r

/-- Whether a route is enabled (R46). -/
def State.enabled (s : State) (r : Route) : Bool :=
  s.cfg (s.gov r) (at100 0x2110 (s.gov r)) 0x01 == 1

/-- A number of the governing route's objects, 0x100 apart. -/
def State.g100 (s : State) (r : Route) (base sub : Nat) : Nat := s.cfg r (at100 base (s.gov r)) sub

/-- A number of the governing route's objects, 0x10 apart. -/
def State.g10 (s : State) (r : Route) (base sub : Nat) : Nat := s.cfg r (at10 base (s.gov r)) sub

/-- A number of the route's own objects, 0x100 apart. -/
def State.r100 (s : State) (r : Route) (base sub : Nat) : Nat := s.cfg r (at100 base r) sub

/-- A number of the route's own objects, 0x10 apart. -/
def State.r10 (s : State) (r : Route) (base sub : Nat) : Nat := s.cfg r (at10 base r) sub

/-! ### Mode and time -/

/-- The current mode, OD 1300.02 (R34). -/
def State.mode (s : State) : Nat := s.num 0x1300 0x02

/-- Whether the mode launches probes: SENTINEL, SENSE or SURVEY. -/
def State.sensing (s : State) : Bool := s.mode == 3 || s.mode == 4 || s.mode == 5

/-- Device time in 2^-16 ns (R343). -/
def State.now16 (s : State) : Int := (s.time.ns * 65536 + s.time.frac / 2 ^ 32 : Nat)

/-- Device time in whole ns. -/
def State.nowNs (s : State) : Nat := s.time.ns

/-- Whether a block is gated (OD 1520.02, Table 16.7). -/
def State.gated (s : State) (b : Nat) : Bool := bit (s.num 0x1520 0x02) b

/-- The present cycle of the sample clock, on which launches, frames and deadlines count (R24, R38); one cycle is 1 ns of them. -/
def State.cyc (s : State) : Nat := s.time.cycles

/-- y_d in 2^-16 ppb. -/
def State.rate (s : State) : Int := s.int 0x1400 0x24 64

/-- The increment of one cycle in 2^-48 ns (R343). -/
def increment (yd : Int) : Int := 2 ^ 48 + rhuDiv (yd * 2 ^ 32) 1000000000

/-- Device time in 2^-48 ns. -/
def TimeUnit.t48 (t : TimeUnit) : Int := (t.ns * 2 ^ 48 + t.frac : Nat)

/-- Sets device time from 2^-48 ns; the count of ns has 64 bits. -/
def TimeUnit.set48 (t : TimeUnit) (x : Int) : TimeUnit :=
  { t with ns := (x / 2 ^ 48 % 2 ^ 64).toNat, frac := (x % 2 ^ 48).toNat }

/-- Notes the present cycle with its device time and the increment so far, before device time is stepped or its rate changes. The last
4,096 changes are held (assumption log 44). -/
def TimeUnit.mark (t : TimeUnit) (inc : Int) : TimeUnit :=
  { t with marks := ((t.cycles, t.t48, inc) :: t.marks).take 4096 }

/-- The device time in 2^-48 ns of a cycle before the last change: back from the change that followed it. -/
def pastTime : List (Nat × Int × Int) → Nat → Option Int → Option Int
  | [], _, x => x
  | m :: l, c, x => if c < m.1 then pastTime l c (some (m.2.1 - ((m.1 - c : Nat) : Int) * m.2.2)) else x

/-- The device time of a cycle in 2^-48 ns (R343); a cycle to come has it at the present rate. -/
def State.timeAt48 (s : State) (c : Nat) : Int :=
  (pastTime s.time.marks c none).getD (s.time.t48 + ((c : Int) - (s.time.cycles : Int)) * increment s.rate)

/-- The TIME80 of a cycle in 2^-16 ns, truncated (R343). -/
def State.stampOf (s : State) (c : Nat) : Int := s.timeAt48 c / 2 ^ 32

/-- The instant in 2^-16 of a cycle at which device time was t (2^-48 ns), from the changes since: the newest that agrees. -/
def pastCycle : List (Nat × Int × Int) → Int → Option Int
  | [], _ => none
  | m :: l, t => if t < m.2.1 then some ((pastCycle l t).getD ((m.1 : Int) * 65536 - (m.2.1 - t) * 65536 / m.2.2)) else none

/-- The instant on the sample clock, in 2^-16 of a cycle, of an instant of device time in 2^-16 ns. -/
def State.cycleAt (s : State) (t : Int) : Int :=
  let back := s.time.t48 - t * 2 ^ 32
  let x := (s.time.cycles : Int) * 65536 - back * 65536 / increment s.rate
  match s.time.marks with
  | m :: _ => if x < (m.1 : Int) * 65536 then (pastCycle s.time.marks (t * 2 ^ 32)).getD x else x
  | [] => x

/-- The ten bytes of a TIME80 from an instant in 2^-16 ns (R17). -/
def time80 (t : Int) : Bytes := beBytes 8 (t / 65536 % 2 ^ 64).toNat ++ beBytes 2 (t % 65536).toNat

/-- The instant of a TIME80 in 2^-16 ns. -/
def ofTime80 (b : Bytes) : Int := (beField b 0 8 * 65536 + beField b 8 2 : Nat)

/-! ### Safe outputs (Tables 3.9, 16.8, R105, R464) -/

/-- The outputs held safe: OPT_SAFE_N, EDFA_EN and DTSP low, MOD DACs muted, the pump and Raman lanes clamped
to zero. -/
def safePins (p : Pins) : Pins :=
  { p with
    optSafeN := false, edfaA := false, edfaB := false, modMutedA := true, modMutedB := true,
    dtspA := false, dtspB := false, dtspHeldA := true, dtspHeldB := true, clampA := true, clampB := true, clampR := true,
    cdac := ((p.cdac.set 2 0).set 3 0).set 4 0 }

/-- OD 2030.10, formed from the outputs (Table 3.9). -/
def safeOutputBits (p : Pins) : Nat :=
  b2n (!p.optSafeN) * 64 + b2n (!p.edfaA) * 32 + b2n (!p.edfaB) * 16 + b2n p.modMutedA * 8 + b2n p.modMutedB * 4
    + b2n (p.clampA && p.clampB && p.clampR) * 2 + b2n (p.dtspHeldA && p.dtspHeldB)

/-- Asserts the safe request (R105): every launch ends and the outputs are safe. -/
def State.assertSafe (s : State) : State :=
  { s with pins := safePins s.pins, power := { s.power with safeRequest := true } }

/-- FAULT_N follows its causes (R464): steps 1 and 2 of bring-up, SAFE, neither Keeper, scan, and, when
OD 1700.05 is set, a degradation. The ball is low while a cause holds. -/
def State.faultCause (s : State) : Bool :=
  (match s.power.bringUp with | some k => decide (k < 3) | none => false)
  || s.mode == 7 || s.power.dead || s.integrity.scan
  || (s.on 0x1700 0x05 && (field (s.num 0x1700 0x10) 15 9 != 0 || bit (s.num 0x2400 0x03) 31))

/-- Drives FAULT_N from its causes. -/
def State.driveFault (s : State) : State := { s with pins := { s.pins with faultN := !s.faultCause } }

/-! ### Keepers -/

/-- Whether a Keeper serves the dictionary: one holds authority, neither R33 nor scan has halted it, and the
control domain is not held in local reset (R428). -/
def State.keeperServes (s : State) : Bool :=
  s.arbiter.holder.isSome && !s.power.dead && !s.integrity.scan && !s.power.resetLow && s.power.supplyOk
    && !(s.power.domains.get 0).localReset

/-- A block is in use again: a gate of it that a failed handshake left open has its next opportunity when the use ends (R429). -/
def State.useBlock (s : State) (g : AutoGate) : State :=
  { s with power := { s.power with gatesOpen := s.power.gatesOpen.filter (fun x => x != g) } }

/-- Whether NET port n is up. -/
def netUp (s : State) : NetPort → Bool
  | .net0 => s.num 0x1110 0x10 == 1
  | .net1 => s.num 0x1111 0x10 == 1

end Sys2Proof.Machine
end

