-- ==== Sys2Proof/Machine/Schedule.lean ====
section
/-! DEFINITION. The schedules of 02_shot_schedule.md: shot period, slot plans, positions and launch offsets of
the SENSE, SENTINEL and survey schedules (R46 to R53, R75, R166, R176), and the synthesis of the probe waveform
(R80 to R82). A schedule is computed from a reading of the configuration, so that admission and the running
route use the same definitions. -/

namespace Sys2Proof.Machine

open Sys2Proof

/-- The schedules an image holds (R67). -/
inductive SchedKind where
  | sense | sentinel | survey
  deriving DecidableEq, Repr

/-- A reading of the configuration: index and sub-index to number. -/
abbrev CfgRead := Nat → Nat → Nat

/-- One route's schedule: plan, groups `g`, slots per group `sl`, bin duration, pitch between its positions in
bins, the SENSE pitch, first position, position step in SENSE positions, count, reach, T_p, RT, guard, T_min,
the SENSE shot period, the shot period, shots per frame, and whether the request breaks R49. -/
structure Sched where
  plan : Nat
  g : Nat
  sl : Nat
  tbin : Nat
  pitch : Nat
  sensePitch : Nat
  first : Nat
  step : Nat
  count : Nat
  reach : Nat
  tp : Nat
  rt : Nat
  guard : Nat
  tmin : Nat
  tSense : Nat
  t : Nat
  f : Nat
  badT : Bool
  deriving DecidableEq, Repr

/-- G of a slot plan (Table 2.2). -/
def planGroups (plan : Nat) : Nat :=
  match plan with
  | 0 => 4
  | 1 => 2
  | _ => 1

/-- S of a slot plan (Table 2.2). -/
def planSlots (plan : Nat) : Nat :=
  match plan with
  | 1 => 2
  | 2 => 4
  | _ => 1

/-- The slots of a group (Table 2.2); plan W has its one chirp on the carrier. -/
def groupSlots (plan group : Nat) : List Nat :=
  match plan with
  | 0 => [group]
  | 1 => [group, group + 2]
  | 2 => [0, 1, 2, 3]
  | _ => [0]

/-- RT of R48. -/
def roundTrip (reach tbin : Nat) : Nat := reach * tbin

/-- guard of R48. -/
def guardOf (rt req : Nat) : Nat := Nat.max (Nat.max 5000 (cdiv rt 50)) req

/-- T_min of R48. -/
def tMin (rt tp guard g : Nat) : Nat := up16 (Nat.max (Nat.max (rt + tp + guard) (g * (tp + 200))) (g * 10000))

/-- Whether a shot period request breaks R49. -/
def badRequest (req tmin : Nat) : Bool := req != 0 && (decide (req < tmin) || req % 16 != 0)

/-- The schedule of a kind for a route, under a reading of the configuration; the objects are those of the
governing route (R46, R48, R49, R75, R166). -/
def mkSched (get : CfgRead) (k : SchedKind) (r : Route) : Sched :=
  let r := if get 0x2000 0x03 == 1 then Route.a else r
  let o := at100 0x2110 r
  let plan := get o 0x02
  let g := planGroups plan
  let tbin := if plan = 3 then 1 else 4
  let tp := get o 0x08
  let rt := roundTrip (get o 0x06) tbin
  let guard := guardOf rt (get o 0x09)
  let tmin := tMin rt tp guard g
  let req := get o 0x0A
  let bad := badRequest req tmin
  let tS := if req = 0 || bad then tmin else req
  let n := get o 0x05
  let sp := get o 0x03
  let base : Sched :=
    { plan := plan, g := g, sl := planSlots plan, tbin := tbin, pitch := sp, sensePitch := sp, first := get o 0x04,
      step := 1, count := n, reach := get o 0x06, tp := tp, rt := rt, guard := guard, tmin := tmin, tSense := tS,
      t := tS, f := get o 0x0B, badT := bad }
  match k with
  | .sense => base
  | .sentinel =>
    let m := get 0x2000 0x20
    { base with g := 1, sl := 1, pitch := sp * m, step := m, count := cdiv n m, t := tS * get 0x2000 0x21 }
  | .survey => { base with t := tS * get 0x2A00 0x02 }

/-- The route frame period F × T. -/
def Sched.frame (c : Sched) : Nat := c.f * c.t

/-- The slots a group of the schedule drives; SENTINEL uses slot 0 alone, or the chirp of plan W (R75). -/
def Sched.slots (c : Sched) (k : SchedKind) (group : Nat) : List Nat :=
  match k with
  | .sentinel => [0]
  | _ => groupSlots c.plan group

/-- The position numbers of a route's schedule, in SENSE numbering (R75). -/
def Sched.positions (c : Sched) : List Nat := (List.range c.count).map (fun j => c.first + j * c.step)

/-- P of R176, 0 without a registered loop. -/
def loopP (get : CfgRead) : Nat :=
  if get 0x2A30 0x02 = 0 then 0
  else
    let c := mkSched get .sense .a
    get 0x2A30 0x01 / (c.sensePitch * c.tbin)

/-- The origin adjust a of R176, 0 without a registered loop. -/
def loopA (get : CfgRead) : Nat :=
  if get 0x2A30 0x02 = 0 then 0
  else
    let c := mkSched get .sense .a
    get 0x2A30 0x01 - loopP get * c.sensePitch * c.tbin

/-- The position numbers that an end processes: under Loop Guard route B has the B-positions P - q (R176). -/
def endPositions (get : CfgRead) (k : SchedKind) (r : Route) : List Nat :=
  let c := mkSched get k r
  match r with
  | .a => c.positions
  | .b => if get 0x2000 0x03 == 1 then (c.positions.map (fun q => loopP get - q)).reverse else c.positions

/-- Whether a route is enabled under a reading of the configuration (R46). -/
def routeEnabled (get : CfgRead) (r : Route) : Bool :=
  get (at100 0x2110 (if get 0x2000 0x03 == 1 then Route.a else r)) 0x01 == 1

/-- The enabled routes. -/
def enabledRoutes (get : CfgRead) : List Route := [Route.a, Route.b].filter (routeEnabled get)

/-- Whether the configuration is a loop commissioning configuration (R28, R185). -/
def commissioning (get : CfgRead) : Bool := get 0x2000 0x03 == 1 && get 0x2A30 0x02 == 0

/-- The reading a route runs on. -/
def State.read (s : State) (r : Route) : CfgRead := fun i j => s.cfg r i j

/-- The schedule kind of the mode: SENTINEL and SURVEY have their own, every other mode SENSE. -/
def State.kind (s : State) : SchedKind :=
  match s.mode with
  | 3 => .sentinel
  | 5 => .survey
  | _ => .sense

/-- The schedule a route runs in the current mode. -/
def State.sched (s : State) (r : Route) : Sched := mkSched (s.read r) s.kind r

/-- The launch offset of a group after t_s: R52, and half a shot period more for route B under Loop Guard
(R53). -/
def launchOffset (c : Sched) (loopB : Bool) (group : Nat) : Nat :=
  (if loopB then c.t / 2 else 0) + group * (c.t / c.g)

/-- The first instant, no earlier than `now`, on the grid of frame boundaries (R50). -/
def firstBoundary (now phase period : Nat) : Nat :=
  let p := Nat.max period 1
  let x := (now + (p - phase % p)) % p
  if x = 0 then now else now + (p - x)

/-! ### Probe waveform (R80 to R82) -/

/-- The frequency of a slot in Hz (R51, R80). -/
def slotFreq (plan slot : Nat) : Int :=
  if plan = 3 then 0
  else match slot with
    | 0 => -375000000
    | 1 => -125000000
    | 2 => 125000000
    | _ => 375000000

/-- The edge length of the window in samples (R82). -/
def edgeLen (wtype taper np : Nat) : Nat :=
  match wtype with
  | 0 => 0
  | 1 => 2 * taper
  | _ => np / 2

/-- w[n] of R82: the raised cosine on the edges, from cos(π (2n + 1) / (2 N_t)). -/
def window (wtype taper np n : Nat) : Int :=
  let nt := edgeLen wtype taper np
  let m := if np - nt ≤ n then np - 1 - n else n
  if m < nt then rhu (32768 * (2 ^ 96 - cos96 (2 * m + 1) (4 * nt))) 97 else 32768

/-- fw_j[0] of R80. -/
def fwStart (f d b : Int) : Int := rhuDiv ((f - d * b / 2) * 2 ^ 32) 2000000000

/-- cw of R80. -/
def fwStep (d b : Int) (np : Nat) : Int := rhuDiv (d * b * 2 ^ 32) (np * 2000000000)

/-- acc_j[n] of R80 in closed form: the sum of the first n frequency words, modulo 2^32. -/
def phaseAcc (fw cw : Int) (n : Nat) : Nat :=
  (((n : Int) * fw + cw * ((n : Int) * (n - 1) / 2)) % 2 ^ 32).toNat

/-- What the waveform of a group is formed from: the first frequency word of each slot and their step (R80), the samples,
the window with its taper, and the amplitude of a slot (R81, R83). -/
structure Chirp where
  fw : List Int
  cw : Int
  np : Nat
  shape : Nat
  taper : Nat
  amp : Int
  deriving DecidableEq, Repr

/-- The chirp of a group. -/
def chirpOf (get : CfgRead) (k : SchedKind) (r : Route) (group : Nat) : Chirp :=
  let gr := if get 0x2000 0x03 == 1 then Route.a else r
  let c := mkSched get k r
  let o := at100 0x2120 gr
  let np := 2 * c.tp
  let b : Int := if get o 0x01 = 0 then 0 else (get o 0x02 : Int) * 1000000
  let d : Int := if bit (get o 0x03) group then -1 else 1
  { fw := (c.slots k group).map (fun j => fwStart (slotFreq c.plan j) d b), cw := fwStep d b np, np := np
    shape := get o 0x04, taper := get o 0x05, amp := ((get o 0x06 / c.sl : Nat) : Int) }

/-- The MOD DAC codes of sample n (R81). -/
def Chirp.code (c : Chirp) (n : Nat) : Int × Int :=
  let ks := c.fw.map (fun f => phaseAcc f c.cw n / 2 ^ 20)
  let vi := sumI (ks.map cosTab)
  let vq := sumI (ks.map (fun x => cosTab ((x + 3072) % 4096)))
  let w := window c.shape c.taper c.np n
  (sat (rhu (rhu (w * vi) 15 * c.amp) 15) 12, sat (rhu (rhu (w * vq) 15 * c.amp) 15) 12)

/-- The codes of a whole group waveform. -/
def waveform (get : CfgRead) (k : SchedKind) (r : Route) (group : Nat) : List (Int × Int) :=
  let c := chirpOf get k r group
  (List.range c.np).map c.code

end Sys2Proof.Machine
end

