-- ==== Sys2Proof/Machine/DramOps.lean ====
section
/-! DEFINITION. The DRAM channels as shared operations (14_memory.md): their data space and its division (R370, R371), where a burst
lies (R372), the requests of a channel and the order in which they are served (R373), open rows (R374), neighbour
refresh (R381) and the repayment of the refresh debt (R379). -/

namespace Sys2Proof.Machine

open Sys2Proof

/-! ### Channels, ranks and rows (R370 to R372) -/

/-- Whether a clock status bit is set (Table 16.12). -/
def State.clkBit (s : State) (b : Nat) : Bool := bit (s.num 0x1500 0x03) b

/-- Element i of the memory geometry in force: channels fitted, data rate, density, ranks, grain. -/
def State.geo (s : State) (i : Nat) : Nat := s.control.geometry.getD i 0

/-- Updates a DRAM channel. -/
def State.modDram (s : State) (ch : Fin 2) (f : Dram → Dram) : State := { s with dram := s.dram.set ch (f (s.dram.get ch)) }

/-- The index of a channel's objects. -/
def chIdx (ch : Fin 2) : Nat := 0x1610 + ch.val

/-- A channel's state, OD 1610.10. -/
def State.chState (s : State) (ch : Fin 2) : Nat := s.num (0x1610 + ch.val) 0x10

/-- Whether a channel is in service: it holds data and refreshes, retraining or not; both stop with PLL-M (R421). -/
def State.chServing (s : State) (ch : Fin 2) : Bool := s.clkBit 7 && (s.chState ch == 2 || s.chState ch == 3)

/-- The other channel. -/
def otherCh (ch : Fin 2) : Fin 2 := ch + 1

/-- Ranks per channel in force. -/
def State.ranks (s : State) : Nat := Nat.max (s.geo 3) 1

/-- Bytes of a channel. -/
def State.chBytes (s : State) : Nat := 2 ^ (30 + s.geo 2)

/-- Rows per rank: rpr of R372. -/
def State.rpr (s : State) : Nat := s.chBytes / (s.ranks * 8 * 4096)

/-- Bursts of the data space of a channel (R370). -/
def State.chBursts (s : State) : Nat := s.chBytes / 4096 * 62

/-- The usable capacity of a channel in bytes: its data space below the reserve of 64 MiB (R370). -/
def State.usableBytes (s : State) : Nat := 64 * s.chBursts - 2 ^ 26

/-- The channel and the address in its data space of an interleaved address, with grain 2^g bytes and both channels in service (R371). -/
def interleave (g a : Nat) : Fin 2 × Nat := (Fin.ofNat 2 (a / 2 ^ g), a / (2 * 2 ^ g) * 2 ^ g + a % 2 ^ g)

/-- The interleaved address that a data-space address of a channel holds, with both in service. -/
def deinterleave (g : Nat) (ch : Fin 2) (ca : Nat) : Nat := ca / 2 ^ g * (2 * 2 ^ g) + ch.val * 2 ^ g + ca % 2 ^ g

/-- Whether both channels are fitted and neither is retired. -/
def State.bothChannels (s : State) : Bool := s.geo 0 == 3 && s.chState 0 != 4 && s.chState 1 != 4

/-- The channel in service where there is one. -/
def State.loneChannel (s : State) : Fin 2 := if bit (s.geo 0) 0 && s.chState 0 != 4 then 0 else 1

/-- The channel and data-space address of an interleaved address in the state: with one channel in service, the address itself there (R371). -/
def State.interleaved (s : State) (a : Nat) : Fin 2 × Nat :=
  if s.bothChannels then interleave (s.geo 4) a else (s.loneChannel, a)

/-- The burst of a data-space address and the byte in it (R372). -/
def burstOf (ca : Nat) : Nat × Nat := (ca / 64, ca % 64)

/-- The row of a channel that holds burst b of its data space, counted over all rows, and the burst within the row (R372). -/
def rowOfBurst (b : Nat) : Nat × Nat := (b / 62, b % 62)

/-- Rank, bank and row of burst b of a channel's data space (R372). -/
def State.burstPlace (s : State) (b : Nat) : Nat × Nat × Nat :=
  let r := (rowOfBurst b).1
  (r / 8 / Nat.max s.rpr 1, r % 8 ^^^ r / 8 % 8, r / 8 % Nat.max s.rpr 1)

/-! ### The division of the usable capacity (R371) -/

/-- Values of an entry of a Comb line at one position: 2S channels of I and Q, or one (Table 10.1). -/
def combEntry (get : CfgRead) (r : Route) : Nat :=
  if get (at10 0x2810 r) 0x01 = 1 then 4 * (mkSched get .sense r).sl else 1

/-- The bytes of a line: padded to a multiple of 64; 0 without a Comb (R270). -/
def combLineBytes (get : CfgRead) (r : Route) : Nat :=
  if get (at10 0x2810 r) 0x01 = 0 then 0 else 64 * cdiv (2 * combEntry get r * get (at10 0x2810 r) 0x03) 64

/-- The depth of a Comb in lines (R272). -/
def combDepth (get : CfgRead) (r : Route) : Nat :=
  if combLineBytes get r = 0 then 0 else get (at10 0x2810 r) 0x04 * 2 ^ 20 / combLineBytes get r

/-- The bytes of the Comb of a route. -/
def combBytesOf (get : CfgRead) (r : Route) : Nat := if get (at10 0x2810 r) 0x01 = 0 then 0 else get (at10 0x2810 r) 0x04 * 2 ^ 20

/-- The bytes of the tracker records of a route, two of 32 bytes for every position and group (R203). -/
def trackerBytesOf (get : CfgRead) (r : Route) : Nat :=
  let c := mkSched get .sense r
  if !routeEnabled get r || get (at10 0x2530 (if get 0x2000 0x03 == 1 then .a else r)) 0x01 == 0 then 0 else 64 * c.count * c.g

/-- The configuration in force as the layout of the DRAM reads it. -/
def State.layout (s : State) : CfgRead := fun i j => s.num i j

/-- The sizes of the parts of the interleaved part that precede the output backlog: the Combs and the tracker records of routes A and B. -/
def partSizes (get : CfgRead) : List Nat := [combBytesOf get .a, combBytesOf get .b, trackerBytesOf get .a, trackerBytesOf get .b]

/-- The interleaved address of a byte of a part: 0 and 1 the Combs, 2 and 3 the tracker records, 4 the backlog. Where each part begins is free
(R371 names the parts and not their order). -/
def State.partAddress (s : State) (part off : Nat) : Nat := Config.partBase (partSizes s.layout) part + off

/-- The place in a Comb of line n. -/
def State.combOffset (s : State) (r : Route) (n : Nat) : Nat :=
  let d := Machine.combDepth s.layout r
  n % Nat.max (if (s.route r).comb.halved then d / 2 else d) 1 * combLineBytes s.layout r

/-- The place of the record of a position and group that the role names (Table 7.3), where the position is one of the route. -/
def State.trackerOffset (s : State) (r : Route) (pos group role : Nat) : Option Nat :=
  let c := mkSched s.layout .sense r
  ((endPositions s.layout .sense r).findIdx? (fun p => p == pos)).map (fun i => (i * c.g + group) * 64 + 32 * role)

/-! ### Open rows and neighbour refresh (R374, R381) -/

/-- An activate of a row: the row it replaces is closed, and with probability 2^-e a neighbour refresh of it is queued; a full queue of 8
drops it. The draw is a free value. -/
def State.activate (s : State) (ch : Fin 2) (place : Nat × Nat × Nat) : State :=
  let (v, s) := s.draw
  let s := (s.emit (.activate ch place.1 place.2.1 place.2.2)).modDram ch (fun d => { d with
    openRows := d.openRows.filter (fun e => !(e.1 == place.1 && e.2.1 == place.2.1)) ++ [place] })
  if v % 2 ^ s.num 0x1600 0x07 != 0 then s
  else if 8 ≤ (s.dram.get ch).neighbours.length then s.bump (chIdx ch) 0x16 1
  else s.modDram ch (fun d => { d with neighbours := d.neighbours ++ [(place, s.cyc)] })

/-- An access to a row: an activate unless the row is open; a close time of 0 closes it again (R374). -/
def State.accessRow (s : State) (ch : Fin 2) (place : Nat × Nat × Nat) : State :=
  let s := if (s.dram.get ch).openRows.contains place then s else s.activate ch place
  if s.num 0x1600 0x06 == 0 then s.modDram ch (fun d => { d with openRows := d.openRows.filter (fun e => e != place) }) else s

/-! ### Requests (R373, R376) -/

/-- A request enters the queue of a channel in service. -/
def State.request1 (s : State) (ch : Fin 2) (b cls : Nat) (w : Work) (deadline : Option Nat) : State :=
  if s.chServing ch then
    s.modDram ch (fun d => { d with queue := d.queue ++ [{ cls := cls, place := s.burstPlace b, work := w, deadline := deadline }] })
  else s

/-- One request for every burst of a span of the interleaved part (R369). -/
def State.requestSpan (s : State) (a n cls : Nat) (w : Work) (deadline : Option Nat) : State :=
  (List.range (cdiv (a % 64 + n) 64)).foldl (fun (s : State) i =>
    let x := s.interleaved (a / 64 * 64 + 64 * i)
    s.request1 x.1 (burstOf x.2).1 cls w deadline) s

/-- One request for every burst of a span of the local part of a channel. -/
def State.requestLocal (s : State) (ch : Fin 2) (a n cls : Nat) (w : Work) : State :=
  (List.range (cdiv (a % 64 + n) 64)).foldl (fun (s : State) i => s.request1 ch (a / 64 + i) cls w none) s

/-- Reads or writes bytes of a frame of the backlog, class 1. Where a frame lies in the backlog is free by stream, route and the last 64
counters (R295); from the decision to retire a channel on the backlog runs on the other (R384). -/
def State.requestFrame (s : State) (stream route fcount off n : Nat) (deadline : Option Nat) : State :=
  let a := s.partAddress 4 (Config.frameOffset stream route (fcount % 64) + off)
  let w := Work.frame stream route fcount
  if (s.dram.get 0).retiring then s.requestLocal 1 a n 1 w
  else if (s.dram.get 1).retiring then s.requestLocal 0 a n 1 w
  else s.requestSpan a n 1 w deadline

/-- The write of a Comb line, class 2. -/
def State.requestLine (s : State) (r : Route) (n : Nat) : State :=
  s.requestSpan (s.partAddress (routeNum r) (s.combOffset r n)) (combLineBytes s.layout r) 2 (.comb r) none

/-- The read of a part of a Comb line for a capture, class 3. -/
def State.requestCopy (s : State) (k : Fin 8) (r : Route) (n off bytes : Nat) : State :=
  s.requestSpan (s.partAddress (routeNum r) (s.combOffset r n + off)) bytes 3 (.capture k) none

/-- The read of the reference and the write of the candidate of a tracked update, class 1. -/
def State.requestTrack (s : State) (r : Route) (pos group : Nat) (deadline : Nat) : State :=
  match s.trackerOffset r pos group 0 with
  | none => s
  | some o => s.requestSpan (s.partAddress (2 + routeNum r) o) 64 1 (.tracker r pos) (some deadline)

/-! ### The scheduler (R373, R379) -/

/-- The row cycle of an all-bank refresh, tRFCab, in ns (R377). -/
def State.tRfc (s : State) : Nat := if s.geo 2 = 0 then 280 else 380

/-- Reports the greater debt of the ranks, OD 1610.13. -/
def State.reportDebt (s : State) (ch : Fin 2) : State :=
  s.put (chIdx ch) 0x13 (Nat.max ((s.dram.get ch).debt.get 0) ((s.dram.get ch).debt.get 1))

/-- Issues refreshes to a rank back to back: every row of it is closed first, and no activate goes to it until the last completes. -/
def State.issueRefresh (s : State) (ch : Fin 2) (rank : Fin 2) (n : Nat) : State :=
  if n = 0 then s
  else
    let from' := fun (d : Dram) => Nat.max s.cyc (d.busy.get rank) + (if d.openRows.any (fun e => e.1 == rank.val) then 18 else 0)
    (s.emit (.refresh ch rank.val n)).modDram ch (fun d => { d with
      openRows := d.openRows.filter (fun e => e.1 != rank.val), busy := d.busy.set rank (from' d + n * s.tRfc) })

/-- Whether a request of a rank waits, of the classes given. -/
def Dram.waits (d : Dram) (rank : Fin 2) (p : Nat → Bool) : Bool := d.queue.any (fun q => q.place.1 == rank.val && p q.cls)

/-- The requests that may be served at a cycle: of the 128 in flight, those of a rank that does not refresh; a neighbour refresh older than
10 us goes before any further activate in its rank (Table 14.1, class 0). -/
def Dram.ready (d : Dram) (now : Nat) : List DramReq :=
  (d.queue.take 128).filter (fun q =>
    decide (d.busy.get (Fin.ofNat 2 q.place.1) ≤ now)
      && (d.openRows.contains q.place || !d.neighbours.any (fun n => n.1.1 == q.place.1 && decide (n.2 + 10000 < now))))

/-- The request that the scheduler serves, and whether it goes ahead of an older one: the lowest class, in it the oldest, but a request to an
open row before an older one of the class that needs another row of that bank, at most 16 times in a row. -/
def Dram.pick (d : Dram) (now : Nat) : Option (DramReq × Bool) :=
  let l := d.ready now
  let c := l.foldl (fun n q => Nat.min n q.cls) 4
  match l.filter (fun q => q.cls == c) with
  | [] => none
  | h :: t =>
    if d.openRows.contains h.place || decide (16 ≤ d.hits) then some (h, false)
    else match t.find? (fun q => q.place.1 == h.place.1 && q.place.2.1 == h.place.2.1 && d.openRows.contains q.place) with
      | some q => some (q, true)
      | none => some (h, false)

/-- The scheduler of a channel serves one request; a channel that retrains serves none (R383). -/
def State.serveDram (s : State) (ch : Fin 2) : State :=
  if s.chState ch != 2 || !s.clkBit 7 then s
  else match (s.dram.get ch).pick s.cyc with
    | none => s
    | some (q, ahead) =>
      (s.modDram ch (fun d => { d with queue := d.queue.erase q, hits := if ahead then d.hits + 1 else 0 })).accessRow ch q.place

/-- A rank without a queued request repays its debt one refresh at a time (R379). -/
def State.repayDebt (s : State) (ch : Fin 2) (rank : Fin 2) : State :=
  let d := s.dram.get ch
  let n := d.debt.get rank
  if n = 0 || !s.chServing ch || d.waits rank (fun _ => true) || decide (s.cyc < d.busy.get rank) then s
  else ((s.issueRefresh ch rank 1).modDram ch (fun d => { d with debt := d.debt.set rank (n - 1) })).reportDebt ch

/-- What the memory controller does in a cycle: debts are repaid, and each channel serves a request (DESIGN CHOICE, assumption log 32: a
request a cycle, since the timing of the bursts is left out). -/
def State.runDram (s : State) : State :=
  let go := fun (s : State) (ch : Fin 2) => ((s.repayDebt ch 0).repayDebt ch 1).serveDram ch
  go (go s 0) 1

end Sys2Proof.Machine
end

