-- ==== Sys2Proof/Machine/Pannier.lean ====
section
/-! DEFINITION. The Pannier codec of 11_streams_codec.md: predictors, the code of a sample, the choice of a
block's coding, and the coded payload (R307 to R309). -/

namespace Sys2Proof.Machine

open Sys2Proof

/-- A sample of a plane; a neighbour outside the plane reads 0 (R308). -/
def planeAt (x : List (List Int)) (r c : Int) : Int :=
  if r < 0 || c < 0 then 0 else (x.getD r.toNat []).getD c.toNat 0

/-- The predictor of a mode, wrapped to 16 bits (Table 11.9a). -/
def pannierPred (x : List (List Int)) (mode lag r c : Nat) : Int :=
  let at' := fun (i j : Int) => planeAt x ((r : Int) - i) ((c : Int) - j)
  match mode with
  | 1 => at' 0 1
  | 2 => at' 1 0
  | 3 => wrapS (at' 0 1 + at' 1 0 - at' 1 1) 16
  | 4 => at' lag 0
  | _ => 0

/-- The residue of a sample, folded to a natural (R309). -/
def pannierU (x : List (List Int)) (mode lag r c : Nat) : Nat :=
  let e := wrapS (planeAt x r c - pannierPred x mode lag r c) 16
  if 0 ≤ e then (2 * e).toNat else (-2 * e - 1).toNat

/-- The low `k` bits of `n`, most significant first. -/
def bitsMsb : Nat → Nat → List Bool
  | 0, _ => []
  | k + 1, n => n.testBit k :: bitsMsb k n

/-- The number of bits that code u with parameter K. -/
def pannierCost (k u : Nat) : Nat := if u / 2 ^ k < 24 then u / 2 ^ k + 1 + k else 40

/-- The bits that code u with parameter K (R309). -/
def pannierBits (k u : Nat) : List Bool :=
  let q := u / 2 ^ k
  if q < 24 then List.replicate q true ++ false :: bitsMsb k u else List.replicate 24 true ++ bitsMsb 16 u

/-- Packs bits into bytes, most significant first, padded with zeros; the fuel is a bound on the bytes. -/
def packBits : Nat → List Bool → Bytes
  | 0, _ => []
  | n + 1, l =>
    if l.isEmpty then []
    else
      let b := (l.take 8) ++ List.replicate (8 - (l.take 8).length) false
      byteOf (b.foldl (fun a x => 2 * a + b2n x) 0) :: packBits n (l.drop 8)

/-- One coding of a block: its size in bytes, mode, lag and K. -/
structure PannierChoice where
  size : Nat
  mode : Nat
  lag : Nat
  k : Nat

/-- The size of a block under a mode, lag and K. -/
def pannierSize (us : List Nat) (mode k : Nat) : Nat :=
  1 + (if mode = 4 then 1 else 0) + cdiv (sumN (us.map (pannierCost k))) 8

/-- The lag candidates of an effort level (Table 11.9). -/
def pannierLags (effort : Nat) : Nat := if effort = 0 then 0 else 2 ^ (effort - 1)

/-- The modes and lags evaluated, in order (R309). -/
def pannierModes (effort : Nat) : List (Nat × Nat) :=
  [(0, 0), (1, 0), (2, 0), (3, 0)] ++ (List.range (pannierLags effort)).map (fun i => (4, i + 2))

/-- The choice of fewest bytes, the earliest on ties (R309). -/
def pannierBest (x : List (List Int)) (effort r c0 n : Nat) : Option PannierChoice :=
  let cands := (pannierModes effort).flatMap (fun ml =>
    let us := (List.range n).map (fun i => pannierU x ml.1 ml.2 r (c0 + i))
    (List.range 16).map (fun k => PannierChoice.mk (pannierSize us ml.1 k) ml.1 ml.2 k))
  cands.foldl (fun b c => match b with
    | none => some c
    | some d => if c.size < d.size then some c else some d) none

/-- One block of a row (R308, R309). -/
def pannierBlock (x : List (List Int)) (effort r c0 n : Nat) : Bytes :=
  let raw : Bytes := byteOf (7 * 32) :: (List.range n).flatMap (fun i => beInt 2 (planeAt x r ((c0 + i : Nat) : Int)))
  match pannierBest x effort r c0 n with
  | none => raw
  | some c =>
    if 1 + 2 * n ≤ c.size then raw
    else
      let bits := (List.range n).flatMap (fun i => pannierBits c.k (pannierU x c.mode c.lag r (c0 + i)))
      byteOf (c.mode * 32 + c.k * 2) :: ((if c.mode = 4 then [byteOf c.lag] else []) ++ packBits bits.length bits)

/-- The coded payload of a plane of `cols` columns: header and blocks (R308). -/
def pannierEncode (x : List (List Int)) (cols effort : Nat) : Bytes :=
  beBytes 4 x.length ++ beBytes 4 cols ++ beBytes 4 (2 * x.length * cols) ++ beBytes 2 256 ++ beBytes 2 0
    ++ (List.range x.length).flatMap (fun r =>
      (List.range (cdiv cols 256)).flatMap (fun i =>
        pannierBlock x effort r (256 * i) (Nat.min 256 (cols - 256 * i))))

end Sys2Proof.Machine
end

