-- ==== Sys2Proof/Machine/StreamOps.lean ====
section
/-! DEFINITION. The stream engine's shared operations: routing, the Waybill, handing a frame over with the
test of its deadline (R77, R295, R302), event records, gathered frames and the event log (R305, R447). -/

namespace Sys2Proof.Machine

open Sys2Proof

/-- The index of a stream's routing objects (R294). -/
def streamIdx (stream : Nat) : Nat := 0x2900 + 0x10 * stream

/-- Link state, OD 112L.10 (Table 11.2). -/
def State.linkState (s : State) (l : Fin 2) : Nat := s.num (0x1120 + l.val) 0x10

/-- Whether a link trains at 10G: its rate in force is 1. -/
def State.linkRate (s : State) (l : Fin 2) : Nat := if s.num (0x1120 + l.val) 0x11 == 1 then 10 else 25

/-- The links a stream's frames leave on: its routing, or the link it has moved to; a dual-routed stream leaves out the
copies of a lost link while the other carries it (R294, R297). -/
def State.streamLinks (s : State) (stream : Nat) : List (Fin 2) :=
  match s.streams.moved.find? (fun m => m.1 == stream) with
  | some m => [m.2]
  | none =>
    match s.num (streamIdx stream) 0x01 with
    | 0 => [0]
    | 1 => [1]
    | 2 =>
      let l := ([0, 1] : List (Fin 2)).filter (fun x => !s.streams.suspended.contains (stream, x))
      if l.isEmpty then [0, 1] else l
    | _ => []

/-- The destination of a stream on a link. -/
def State.streamDest (s : State) (stream : Nat) (l : Fin 2) : W32 :=
  BitVec.ofNat 32 (s.num (streamIdx stream) (2 + l.val))

/-- Whether a link holds an ARP entry for an address (R298). -/
def State.arpKnown (s : State) (l : Fin 2) (ip : W32) : Bool :=
  s.streams.arp.any (fun e => e.link == l && e.ip == ip)

/-- The packet size P (OD 2900.01). -/
def State.packetSize (s : State) : Nat := s.num 0x2900 0x01

/-- The fragments of a frame of `n` bytes (R301). -/
def fragCount (n p : Nat) : Nat := cdiv n p

/-- The wire bytes of a frame of `n` bytes from fragment `i` on (R72, R301). -/
def wireFrom (n p i : Nat) : Nat := (n - i * p) + 78 * (fragCount n p - i)

/-- The wire bytes already queued on a link. -/
def State.queuedWire (s : State) (l : Fin 2) : Nat :=
  sumN (s.streams.backlog.map (fun f => match f.next.get l with
    | some i => wireFrom f.bytes.length s.packetSize i
    | none => 0))

/-- What a source hands over as a frame, before its Waybill. -/
structure FrameDesc where
  stream : Nat
  routeCode : Nat
  fcount : Nat
  tstart : Int
  period : Nat
  first : Nat
  count : Nat
  pitch : Nat
  quality : Nat
  cseq : Nat
  switchPos : Option Nat
  payload : Bytes
  coded : Bool
  deadline : Option Nat
  records : Nat

/-- Bytes 0 to 59 of the Waybill (Table 11.5). -/
def waybillHead (d : FrameDesc) : Bytes :=
  let rt := match d.switchPos with
    | some p => p * 16 + 8 + d.routeCode
    | none => d.routeCode
  [1, byteOf d.stream, byteOf rt, 0] ++ beBytes 8 d.fcount ++ time80 d.tstart ++ beBytes 4 d.period
    ++ beBytes 4 d.first ++ beBytes 4 d.count ++ beBytes 2 d.pitch ++ beBytes 2 (d.quality % 2 ^ 15)
    ++ beBytes 4 d.cseq ++ beBytes 4 d.payload.length ++ [byteOf (b2n d.coded)] ++ List.replicate 13 0

/-- The bytes of a frame: Waybill and payload as transmitted. -/
def frameBytes (d : FrameDesc) : Bytes :=
  let h := waybillHead d
  h ++ beBytes 4 (crc32c (h ++ d.payload)) ++ d.payload

/-- Whether a copy handed over now would end after the deadline on a link, or the link is not UP (R77,
R297). -/
def State.lateOn (s : State) (l : Fin 2) (n : Nat) (deadline : Option Nat) : Bool :=
  s.linkState l != 1 ||
    (match deadline with
     | none => false
     | some t => decide (t < s.cyc + cdiv (8 * (s.queuedWire l + wireFrom n s.packetSize 0)) (s.linkRate l)))

/-- Keeps the last 64 frames of a stream and route (R295). -/
def trimBacklog (b : List Frame) (stream route : Nat) : List Frame :=
  let k := (b.filter (fun f => f.stream == stream && f.route == route)).length - 64
  (b.foldl (fun (acc : Nat × List Frame) f =>
    if f.stream == stream && f.route == route && acc.1 < k then (acc.1 + 1, acc.2) else (acc.1, acc.2 ++ [f]))
    (0, [])).2

/-- A quality word with DEGRADED_MEM while a retired channel has taken part of the DRAM away (R384). -/
def State.withDegraded (s : State) (q : Nat) : Nat := if s.streams.degraded then setBit q 12 true else q

/-- Hands a frame over to the stream engine: a copy for each link that its stream uses, unless the link has no
ARP entry (R298) or the copy would be late (R77); the frame enters the backlog. A frame without a route that is dropped
leaves LATE_DROP to the next of its stream; a gathered event frame carries none (R305). Answers whether the frame was
dropped as late on every link it could leave on. A frame without a deadline that finds its link not UP is dropped and counted
with the late ones in OD 2000.18 and OD 29s0.11 (DESIGN CHOICE, assumption log 29); a frame counts once, however many of its copies are late. A stream routed to no link writes nothing
(R294, R295). -/
def State.handOver (s : State) (d : FrameDesc) : Bool × State :=
  let owes := d.routeCode == 3 && s.streams.lateDevice.contains d.stream
  let d := { d with
    quality := s.withDegraded d.quality ||| (if owes then 128 else 0) }
  let bytes := frameBytes d
  let links := s.streamLinks d.stream
  let known := links.filter (fun l => s.arpKnown l (s.streamDest d.stream l))
  let late := known.filter (fun l => s.lateOn l bytes.length d.deadline)
  let go := known.filter (fun l => !s.lateOn l bytes.length d.deadline)
  let nx : Vector (Option Nat) 2 := Vector.ofFn (fun l => if go.contains l then some 0 else none)
  let f : Frame :=
    { stream := d.stream, route := d.routeCode, fcount := d.fcount, deadline := d.deadline, bytes := bytes,
      next := nx, entered := Vector.replicate 2 none, replay := false, started := false,
      lost := go.isEmpty && !late.isEmpty, counted := !late.isEmpty, records := d.records }
  let i := streamIdx d.stream
  let s1 := s.bump i 0x13 (links.length - known.length)
  let s2 := if late.isEmpty then s1 else (s1.bump i 0x11 1).bump 0x2000 0x18 1
  let dev := s.streams.lateDevice.filter (fun x => x != d.stream)
  if links.isEmpty then (false, s)
  else
    let t := { s2 with streams := { s2.streams with
      backlog := trimBacklog (s2.streams.backlog ++ [f]) d.stream d.routeCode
      lateDevice := if d.routeCode != 3 || d.stream == 7 then s.streams.lateDevice else if f.lost then dev ++ [d.stream] else dev } }
    (f.lost, t.requestFrame d.stream d.routeCode d.fcount 0 bytes.length d.deadline)

/-- The flags of a time state (Table 13.2): TIME_UNLOCKED and HOLDOVER. -/
def stateFlags (n : Nat) : Nat :=
  match n with
  | 0 => 2 ^ 14
  | 1 => 2 ^ 14
  | 2 => 2 ^ 14
  | 4 => 2 ^ 4
  | 5 => 2 ^ 14 + 2 ^ 4
  | _ => 0

/-- The flags of the time state now. -/
def State.timeFlags (s : State) : Nat := stateFlags (s.num 0x1400 0x20)

/-- The time state at a cycle: the one left at the first change after it, newest first, or the present one. -/
def stateAt : List (Nat × Nat) → Nat → Nat → Nat
  | [], _, x => x
  | e :: l, c, x => if c < e.1 then stateAt l c e.2 else x

/-- The flags of the time state at a cycle (R350). -/
def State.timeFlagsAt (s : State) (c : Nat) : Nat := stateFlags (stateAt s.time.states c (s.num 0x1400 0x20))

/-- Codes a payload under R308 when its stream has Pannier enabled (R307); the coded size is OD 29s0.14. -/
def State.codePayload (s : State) (stream : Nat) (plane : List (List Int)) (cols : Nat) (raw : Bytes) :
    Bytes × Bool × State :=
  if s.on (streamIdx stream) 0x05 then
    let c := pannierEncode plane cols (s.num (streamIdx stream) 0x06)
    (c, true, s.put (streamIdx stream) 0x14 (256 * c.length / Nat.max raw.length 1 % 65536))
  else (raw, false, s)

/-- The sequence of the configuration a route runs on (CSEQ). -/
def State.cseq (s : State) (r : Route) : Nat :=
  match s.control.pending with
  | some p => if p.took r then p.seq else s.num 0x1200 0x03
  | none => s.num 0x1200 0x03

/-- The device frame counter of a stream without a route, and the state with it advanced. -/
def State.deviceCount (s : State) (stream : Fin 16) : Nat × State :=
  (s.streams.evCount.get stream,
    { s with streams := { s.streams with evCount := s.streams.evCount.set stream (s.streams.evCount.get stream + 1) } })

/-! ### Events -/

/-- An event record in its 32 bytes (Table 11.7). -/
def eventBytes (e : EventRec) : Bytes :=
  time80 e.time ++ [byteOf e.type, byteOf e.source, byteOf e.route] ++ beBytes 2 e.flags ++ beBytes 4 e.position
    ++ beInt 4 e.value ++ beInt 4 e.aux ++ [byteOf e.cmask] ++ beBytes 4 e.seq

/-- Whether a record is written to the event log (R447). -/
def isLogged (type : Nat) : Bool :=
  (decide (0x20 ≤ type) && decide (type ≤ 0x7F)) || type == 3 || type == 6 || type == 7

/-- Appends to the log ring of 16,384 records and reports it in OD 5000.01 and OD 5000.02. -/
def State.logRecord (s : State) (e : EventRec) : State :=
  if isLogged e.type then
    let l := s.streams.log ++ [e]
    let l := l.drop (l.length - 16384)
    let s := { s with streams := { s.streams with log := l } }
    (s.put 0x5000 0x01 l.length).put 0x5000 0x02 ((l.head?.map (·.seq)).getD 0)
  else s

/-- Whether the mode sends event frames (Table 1.3). -/
def State.eventsSent (s : State) : Bool := s.mode == 3 || s.mode == 4

/-- Hands the gathered frame over and opens the next from the records waiting (R305). -/
def State.closeGathered (s : State) : State :=
  let g := s.streams.gathered
  if g.isEmpty then s
  else
    let st := s.streams
    let nxt := st.queue.take 32
    let s := { s with streams := { st with
      gathered := nxt, queue := st.queue.drop 32, lastClose := some s.cyc,
      gatheredNs := if nxt.isEmpty then none else some s.cyc } }
    let (n, s) := s.deviceCount 7
    if s.eventsSent then
      (s.handOver
        { stream := 7, routeCode := 3, fcount := n, tstart := g.foldl (fun m e => min m e.time) ((g.head?.map (·.time)).getD 0),
          period := 0, first := 0, count := 0, pitch := 0, quality := 0, cseq := s.num 0x1200 0x03, switchPos := none,
          payload := g.flatMap eventBytes, coded := false, deadline := none, records := g.length }).2
    else s

/-- Whether a full gathered frame may close now: at most one is handed over per 1 ms (R305). -/
def State.mayClose (s : State) : Bool :=
  match s.streams.lastClose with
  | some t => decide (t + 1000000 ≤ s.cyc)
  | none => true

/-- Gives a record its number and takes it into the gathered frame or the queue; a full queue drops it
(R305). -/
def State.gather (s : State) (e : EventRec) : State :=
  let st := s.streams
  let e := { e with seq := st.seq }
  if st.queue.isEmpty && st.gathered.length < 32 then
    let s := { s with streams := { st with
      gathered := st.gathered ++ [e], seq := (st.seq + 1) % 2 ^ 32,
      gatheredNs := if st.gathered.isEmpty then some s.cyc else st.gatheredNs } }
    if s.streams.gathered.length == 32 && s.mayClose then s.closeGathered else s
  else if st.queue.length < 1024 then
    { s with streams := { st with queue := st.queue ++ [e], seq := (st.seq + 1) % 2 ^ 32 } }
  else s.bump 0x2970 0x15 1

/-- Issues a record of a source other than threshold and Forager records: it is logged, numbered and
gathered. -/
def State.issueRec (s : State) (e : EventRec) : State :=
  let e := { e with seq := s.streams.seq }
  (s.logRecord e).gather e

/-- A fault or status record made now (R446). -/
def State.faultRec (s : State) (type source route position : Nat) (value aux : Int) (cmask : Nat) : EventRec :=
  { time := s.now16, type := type, source := source, route := route, flags := 0, position := position,
    value := value, aux := aux, cmask := cmask, seq := 0 }

/-- The always-on domain latches a record, with its instant, until a Keeper next runs (R446). -/
def State.holdRec (s : State) (e : EventRec) : State := { s with streams := { s.streams with held := s.streams.held ++ [e] } }

/-- The records that the always-on domain latched are issued, oldest first, once a Keeper runs (R446). -/
def State.releaseHeld (s : State) : State :=
  s.streams.held.foldl State.issueRec { s with streams := { s.streams with held := [] } }

/-- Issues a fault or status record (R446): `value` and `aux` as its type defines. While no Keeper runs it is latched. -/
def State.issueAt (s : State) (type source route position : Nat) (value aux : Int) (cmask : Nat) : State :=
  let e := s.faultRec type source route position value aux cmask
  if s.power.dead then s.holdRec e else s.issueRec e

/-- Issues a device-wide fault or status record. -/
def State.issue (s : State) (type source : Nat) (value aux : Int) : State := s.issueAt type source 3 0 value aux 0

/-- Issues a record whose VALUE the manual does not state: R446 names the unit concerned and gives no number for
clocks, supplies, images and the like. -/
def State.issueOpen (s : State) (type source : Nat) (aux : Int) : State :=
  let (v, s) := s.draw
  s.issue type source (toSigned (v % 2 ^ 32) 32) aux

/-- Issues a record at a position whose VALUE and AUX the manual does not state. -/
def State.issueOpenAt (s : State) (type source route position : Nat) : State :=
  let (v, s) := s.draw
  let (a, s) := s.draw
  s.issueAt type source route position (toSigned (v % 2 ^ 32) 32) (toSigned (a % 2 ^ 32) 32) 0

/-- Issues a fault or status record of a route. -/
def State.issueR (s : State) (r : Route) (type source : Nat) (value aux : Int) : State :=
  s.issueAt type source (routeNum r) 0 value aux 0

end Sys2Proof.Machine
end

