-- ==== Sys2Proof/Machine/FdcOps.lean ====
section
/-! DEFINITION. The filter chain of 08_filter_chain.md as a machine on its tables: banks (R228 to R230), one input of
every position (R221), an output (R222), the frames it closes (R224, R226, R232), and the evaluation of the threshold
conditions (R235 to R237). -/

namespace Sys2Proof.Machine

open Sys2Proof

/-! ### Banks and tables -/

/-- Bank 0 when it is empty: a boxcar over the decimation (R228). -/
def boxcar (r : Nat) : Bank :=
  { l := r, dh := (r : Int) - 1, eshift := 0, bands := List.replicate 4 (List.replicate 5 0),
    taps := List.replicate r (rhuDiv 131072 (Nat.max r 1)) }

/-- A bank record as a bank (Table 8.2). -/
def parseBank (b : Bytes) : Bank :=
  let l := beField b 2 2
  { l := l, dh := (beField b 4 2 : Nat), eshift := (beField b 7 1 : Nat),
    bands := (List.range 4).map (fun i => (List.range 5).map (fun k => beFieldS b (16 + 20 * i + 4 * k) 4)),
    taps := (List.range l).map (fun t => beFieldS b (96 + 4 * t) 4) }

/-- A bank by its number: the boxcar for an empty bank 0, nothing for another empty bank (R228). -/
def bankOf (i r : Nat) (b : Bytes) : Option Bank :=
  if b.isEmpty then (if i = 0 then some (boxcar r) else none) else some (parseBank b)

/-- The tables of a route's chain on a schedule, from the values of a configuration (R219, R228, R232, R238). -/
def mkFdcParams (val : Nat → Val) (k : SchedKind) (r : Route) : FdcParams :=
  let get : CfgRead := fun i j => (val (objKey i j)).toNat
  let lg := get 0x2000 0x03 == 1
  let gr := if lg then Route.a else r
  let c := mkSched get k gr
  let o := at10 0x2610 gr
  let sen := k == .sentinel
  let per := if sen && lg then 2 else c.g
  let dec := if sen then get o 0x0B else get o 0x03
  let all := (List.range 4).map (fun i => bankOf i dec (val (objKey o (0x30 + i))).toBytes)
  let banks := if sen then all else all.map (fun b => b.filter (fun x => decide (x.l ≤ 2 * dec)))
  let lmax := if sen then ((all.getD (get o 0x0C) none).map (·.l)).getD 0
    else maxN (banks.map (fun b => (b.map (·.l)).getD 0))
  { sentinel := sen, fg := c.f * per, tin := c.t / Nat.max per 1, ft := c.frame, r := dec, q := get o 0x04, qb := get o 0x11,
    kind := get o 0x02, ss := get o 0x05, ms := get o 0x06, kleak := get o 0x07, kx := get o 0x09, nb := get o 0x10,
    minmax := get o 0x12 == 1, strainOn := get o 0x01 == 1, bandOn := get o 0x14 == 1,
    ns1 := cdiv lmax (Nat.max dec 1), ns2 := cdiv lmax (Nat.max dec 1) + get o 0x13,
    rise := get o 0x1E, fall := get o 0x1F, hold := get o 0x20, gap := get o 0x21, events := get o 0x22,
    first := c.first, step := c.step, count := c.count - get (at10 0x2410 gr) 0x01, pitch := c.pitch, banks := banks }

/-- The positions a chain works on. -/
def FdcParams.positions (p : FdcParams) : List Nat := (List.range p.count).map (fun j => p.first + j * p.step)

/-- A bank of the tables; an invalid one is the boxcar, which no request can name. -/
def FdcParams.bank (p : FdcParams) (i : Nat) : Bank := (p.banks.getD i none).getD (boxcar p.r)

/-- The zero record (R233). -/
def FdcRec.zero : FdcRec :=
  { be := List.replicate 4 0, mn := 0, mx := 0, floor := List.replicate 4 0, outs := 0, hold := 0, finit := false,
    ps0 := 0, ps1 := 0, int := 0, w1 := List.replicate 4 0, w2 := List.replicate 4 0 }

/-- A chain at its start: every record zero, on a bank (R233). `fresh` is false for the chain that takes over at a
staged commit. -/
def newCtx (p : FdcParams) (th : Thresholds) (base bank : Nat) (fresh : Bool) : FdcCtx :=
  { par := p, base := base, index := 0, stop := none, short := false, fresh := fresh, recs := [], block := [], bank0 := bank, swaps := [], queued := none,
    sNum := 0, sRows := [], sUnset := false, bNum := 0, bOuts := 0, bClip := false, bUnset := false, infos := [], inputs := [], ths := [(0, th)] }

/-! ### Coefficients and cross-fade (R230) -/

/-- Element k of a list of integers, 0 beyond its end. -/
def atI (l : List Int) (k : Nat) : Int := l.getD k 0

/-- The blend of two values at step k of a fade. -/
def fadeVal (kx k : Nat) (a n : Int) : Int := a + rhu ((n - a) * ((k : Int) + 1)) kx

/-- The blend of two banks at step k of a fade. -/
def fadeBank (kx k : Nat) (a n : Bank) : Bank :=
  let l := Nat.max a.l n.l
  { l := l, dh := fadeVal kx k a.dh n.dh, eshift := fadeVal kx k a.eshift n.eshift,
    bands := (List.range 4).map (fun i => (List.range 5).map (fun j =>
      fadeVal kx k (atI (a.bands.getD i []) j) (atI (n.bands.getD i []) j))),
    taps := (List.range l).map (fun t => fadeVal kx k (atI a.taps t) (atI n.taps t)) }

/-- The bank in force once every swap has ended. -/
def FdcCtx.target (c : FdcCtx) : Nat := (c.swaps.head?.map (·.2.2)).getD c.bank0

/-- set(β): the coefficient set of an input block. -/
def FdcCtx.set (c : FdcCtx) (beta : Nat) : Bank :=
  match c.swaps.find? (fun w => decide (w.1 ≤ beta)) with
  | some w =>
    if w.1 + 2 ^ c.par.kx ≤ beta then c.par.bank w.2.2
    else fadeBank c.par.kx (beta - w.1) (c.par.bank w.2.1) (c.par.bank w.2.2)
  | none => c.par.bank c.bank0

/-- Whether a fade still runs at input index n. -/
def FdcCtx.fadingAt (c : FdcCtx) (n : Nat) : Bool :=
  match c.swaps.head? with
  | some w => w.2.1 != w.2.2 && decide (n < (w.1 + 2 ^ c.par.kx) * c.par.r)
  | none => false

/-- The part of an output that inputs of the block before it give: Σ h[2R - 1 - t] x[t]. -/
def tailSum (b : Bank) (r : Nat) (xs : List Int) : Int :=
  sumI ((List.range xs.length).map (fun t => if 2 * r - 1 - t < b.l then atI b.taps (2 * r - 1 - t) * atI xs t else 0))

/-- Starts a swap at input i_s, a multiple of R, from bank `a` (the same bank as `n` for a change without a fade): what the block before has already given to the first output of the
fade is formed again with the blended set, since set(β) belongs to the block and not to the moment (R221, R230). -/
def FdcCtx.swap (c : FdcCtx) (is a n : Nat) : FdcCtx :=
  let r := Nat.max c.par.r 1
  let b0 := is / r
  let c := { c with swaps := ((b0, a, n) :: c.swaps).take 4 }
  let b := c.set b0
  if c.index = is then
    { c with recs := c.recs.map (fun e => (e.1, { e.2 with ps0 := tailSum b r ((mapGet c.block e.1).getD []) })) }
  else if c.index < is && is < c.index + r then
    { c with recs := c.recs.map (fun e => (e.1, { e.2 with ps1 := tailSum b r ((mapGet c.block e.1).getD []) })) }
  else c

/-! ### One input and one output of a position (R221, R222) -/

/-- fdc_input up to the output: the partial sums after input t of a block. -/
def fdcInput (p : FdcParams) (s0 s1 : Bank) (t : Nat) (x : Int) (st : FdcRec) : FdcRec :=
  let ps0 := st.ps0 + atI s0.taps (p.r - 1 - t) * x
  let ps1 := if 2 * p.r - 1 - t < s1.l then st.ps1 + atI s1.taps (2 * p.r - 1 - t) * x else st.ps1
  { st with ps0 := ps0, ps1 := ps1 }

/-- One biquad of fdc_output: the new states and the filtered value. -/
def biquad (co : List Int) (xb w1 w2 : Int) : Int × Int :=
  let w := sat (xb - rhu (atI co 3 * w1 + atI co 4 * w2) 16) 32
  (w, sat (rhu (atI co 0 * w + atI co 1 * w1 + atI co 2 * w2) 16) 32)

/-- fdc_output: the record after an output, the stream sample, and whether an energy saturated. `newBand` says that the
output is the first of its band-energy frame, from which the extremes count; every output adds to BE (R226). -/
def fdcOutput (p : FdcParams) (b : Bank) (newBand : Bool) (st : FdcRec) : FdcRec × Int × Bool :=
  let y := st.ps0
  let xb := sat (rhu y 17) 32
  let i0 := if 0 < p.kleak then st.int - rhu st.int p.kleak else st.int
  let i1 := if p.kind = 0 then st.int else sat (i0 + xb) 32
  let v := if p.kind = 0 then y else i1 * 2 ^ 17
  let out := sat (rhu (rhu v p.ss * (p.ms : Int)) 15) 16
  let wy := (List.range 4).map (fun i => biquad (b.bands.getD i []) xb (atI st.w1 i) (atI st.w2 i))
  let es := b.eshift.toNat
  let raw := (List.range 4).map (fun i =>
    let yb := (wy.getD i (0, 0)).2
    ((st.be.getD i 0 : Nat) : Int) + rhu (yb * yb) es)
  let on := fun (i : Nat) => decide (i < p.nb)
  ({ st with
      outs := Nat.min (st.outs + 1) 65535, int := i1, ps0 := st.ps1, ps1 := 0,
      w1 := (List.range 4).map (fun i => if on i then (wy.getD i (0, 0)).1 else atI st.w1 i),
      w2 := (List.range 4).map (fun i => if on i then atI st.w1 i else atI st.w2 i),
      be := (List.range 4).map (fun i => if on i then satU (atI raw i) 32 else st.be.getD i 0),
      mn := if newBand then out else min st.mn out, mx := if newBand then out else max st.mx out },
   out, (List.range 4).any (fun i => on i && decide ((2 : Int) ^ 32 ≤ atI raw i)))

/-! ### Threshold conditions (R235 to R237) -/

/-- The band level of R226. -/
def bandLevel (be n : Nat) : Nat :=
  let m := be / Nat.max n 1
  if m = 0 then 0 else (rhu (log2fix m) 16).toNat

/-- The value a condition carries at a position (Table 8.1). -/
def condValue (st : FdcRec) (lv : List Nat) (b : Nat) : Int :=
  if b < 4 then ((lv.getD b 0 : Nat) : Int) - atI st.floor b else max (Int.natAbs st.mn) (Int.natAbs st.mx)

/-- The conditions raised at a position as a mask. -/
def condMask (th : Thresholds) (st : FdcRec) (lv : List Nat) : Nat :=
  sumN ((List.range 5).map (fun b =>
    let raised := if b < 4 then decide (((th.margins.getD b 0 : Nat) : Int) ≤ condValue st lv b)
      else th.peak != 0 && decide ((th.peak : Int) ≤ condValue st lv 4)
    if bit th.enable b && raised then 2 ^ b else 0))

/-- The floors after a frame. -/
def newFloors (p : FdcParams) (st : FdcRec) (lv : List Nat) : List Int :=
  (List.range 4).map (fun b =>
    let f : Int := atI st.floor b
    let l : Int := ((lv.getD b 0 : Nat) : Int)
    if b < p.nb then (if st.finit then f + rhu (l - f) (if l < f then p.fall else p.rise) else l) else f)

/-- Evaluates one position at the close of a band-energy frame: its record and the mask it raises. A position that is not evaluated, with
OUTS at or below n_s2 after a re-priming, keeps its HOLD as it is (DESIGN CHOICE, assumption log 26: R235 does not say whether HOLD counts
down there). -/
def evalPos (p : FdcParams) (th : Thresholds) (st : FdcRec) (lv : List Nat) : FdcRec × Nat :=
  if st.outs ≤ p.ns2 then (st, 0)
  else
    let m := if st.finit && st.hold == 0 then condMask th st lv else 0
    ({ st with floor := newFloors p st lv, finit := true, hold := st.hold - 1 }, m)

/-- A run of positions that raise conditions: first and last place, and the places that raise with mask and values. -/
structure CondRun where
  first : Nat
  last : Nat
  hits : List (Nat × Nat × List Int)

/-- Forms the runs over the places in order, across at most `gap` places without a condition (R236). -/
def condRuns (gap : Nat) (hits : List (Nat × Nat × List Int)) : List CondRun :=
  (hits.foldl (fun (acc : List CondRun) h =>
    match acc with
    | [] => [⟨h.1, h.1, [h]⟩]
    | c :: t => if h.1 ≤ c.last + 1 + gap then ⟨c.first, h.1, c.hits ++ [h]⟩ :: t else ⟨h.1, h.1, [h]⟩ :: c :: t) []).reverse

/-- A threshold record before it is stamped: mask, primary condition, place, value, run length. -/
structure Hit where
  mask : Nat
  prim : Nat
  place : Nat
  value : Int
  len : Nat
  deriving DecidableEq, Repr

/-- The record of a run (R236). -/
def CondRun.hit (c : CondRun) : Hit :=
  let mask := c.hits.foldl (fun m h => m ||| h.2.1) 0
  let prim := ((List.range 5).find? (fun b => mask.testBit b)).getD 0
  let cand := c.hits.filter (fun h => h.2.1.testBit prim)
  let best := cand.foldl (fun (b : Option (Nat × Int)) h =>
    let v := atI h.2.2 prim
    match b with
    | none => some (h.1, v)
    | some (_, w) => if w < v then some (h.1, v) else b) none
  { mask := mask, prim := prim, place := (best.map (·.1)).getD c.first, value := (best.map (·.2)).getD 0, len := c.last + 1 - c.first }

/-- The order in which records are chosen (R237). -/
def Hit.before (a b : Hit) : Bool :=
  decide (a.prim < b.prim) || (a.prim == b.prim && (decide (b.value < a.value) || (a.value == b.value && decide (a.place ≤ b.place))))

/-- Insertion sort by the order of R237. -/
def sortHits : List Hit → List Hit
  | [] => []
  | h :: t =>
    let rec ins (x : Hit) : List Hit → List Hit
      | [] => [x]
      | y :: ys => if x.before y then x :: y :: ys else y :: ins x ys
    ins h (sortHits t)

/-! ### A whole input of a chain -/

/-- A stream frame closed by a chain: its stream (strain or band), its number, its rows or levels with extremes, the
inputs of its period, whether it is unsettled or clipped, its records, and how many were dropped. -/
structure Closed where
  band : Bool
  num : Nat
  rows : List (List Int)
  inputs : Map (List Int)
  unset : Bool
  clip : Bool
  hits : List Hit
  dropped : Nat

/-- The half-input nominal instant of an output, counted from input 0 (R224). -/
def FdcCtx.nominal2 (c : FdcCtx) (j : Nat) : Int := 2 * (((j * c.par.r + c.par.r : Nat) : Int) - 1) - (c.set j).dh

/-- The number of a stream frame that an output belongs to, none before the first frame boundary (R224). A swap to a bank with another D_h
moves the nominal instants of later outputs, so that a frame at the swap may hold more or fewer than n_o of them; the nominal instant
decides (DESIGN CHOICE, assumption log 26: the two sentences of R224 do not both hold there). -/
def FdcCtx.frameOf (c : FdcCtx) (q j : Nat) : Option Nat :=
  let n := c.nominal2 j
  if n < 0 then none else some (n / ((2 * q * c.par.fg : Nat) : Int)).toNat

/-- The records of a chain in the order of its positions. -/
def FdcCtx.list (c : FdcCtx) : List (Nat × FdcRec) := c.par.positions.map (fun p => (p, (mapGet c.recs p).getD FdcRec.zero))

/-- Closes the strain-rate frame in the making. -/
def FdcCtx.closeStrain (c : FdcCtx) : FdcCtx × Closed :=
  let n := c.par.q * c.par.fg
  ({ c with sRows := [], sUnset := false, inputs := c.inputs.map (fun e => (e.1, e.2.drop n)) },
   { band := false, num := c.sNum, rows := c.sRows, inputs := c.inputs.map (fun e => (e.1, e.2.take n)), unset := c.sUnset,
     clip := false, hits := [], dropped := 0 })

/-- The threshold objects under which a band-energy frame is judged: those that held in its last route frame (R30). -/
def FdcCtx.thresholdsFor (c : FdcCtx) (m : Nat) : Thresholds :=
  ((c.ths.find? (fun e => decide (e.1 < (m + 1) * c.par.qb * c.par.fg))).map (·.2)).getD ⟨0, [], 0⟩

/-- Closes the band-energy frame in the making: levels, extremes, and the threshold evaluation. -/
def FdcCtx.closeBand (c : FdcCtx) : FdcCtx × Closed :=
  let p := c.par
  let th := c.thresholdsFor c.bNum
  let ps := c.list
  let ev := ps.map (fun e =>
    let lv := (List.range p.nb).map (fun b => bandLevel (e.2.be.getD b 0) c.bOuts)
    let v := evalPos p th e.2 lv
    (e.1, v.1, v.2, (List.range 5).map (condValue e.2 lv), lv, e.2.mn, e.2.mx))
  let hits := ((List.range ev.length).zip ev).filterMap (fun ie =>
    if ie.2.2.2.1 = 0 then none else some (ie.1, ie.2.2.2.1, ie.2.2.2.2.1))
  let runs := condRuns p.gap hits
  let recs := ((List.range ev.length).zip ev).map (fun ie =>
    let held := runs.any (fun w => decide (w.first ≤ ie.1) && decide (ie.1 ≤ w.last))
    let st : FdcRec := ie.2.2.1
    (ie.2.1, { st with hold := if held then p.hold else st.hold, be := List.replicate 4 0 }))
  let all := sortHits (runs.map CondRun.hit)
  ({ c with recs := recs, bOuts := 0, bClip := false, bUnset := false },
   { band := true, num := c.bNum,
     rows := ev.map (fun e => e.2.2.2.2.1.map (fun (n : Nat) => (n : Int)) ++ [e.2.2.2.2.2.1, e.2.2.2.2.2.2]),
     inputs := [], unset := c.bUnset, clip := c.bClip, hits := all.take p.events, dropped := all.length - p.events })

/-- The end of output j: its samples enter the frames in the making, and a frame whose last output it was closes. -/
def FdcCtx.afterOutput (c : FdcCtx) (j : Nat) (row : List Int) (clip : Bool) (least : Nat) :
    FdcCtx × List Closed :=
  let p := c.par
  let last := fun (k : Nat) => match c.stop with
    | some n => decide ((2 * n : Int) ≤ c.nominal2 k)
    | none => false
  let fs := c.frameOf p.q j
  let fb := c.frameOf p.qb j
  let c := match fs with
    | some m => { c with sNum := m, sRows := c.sRows ++ [row], sUnset := c.sUnset || decide (least ≤ p.ns1) }
    | none => c
  let c := match fb with
    | some m => { c with bNum := m, bOuts := c.bOuts + 1, bClip := c.bClip || clip, bUnset := c.bUnset || decide (least ≤ p.ns2) }
    | none => c
  let whole := fun (q : Nat) (m : Nat) => match c.stop with
    | some n => c.short || decide ((m + 1) * q * p.fg ≤ n)
    | none => true
  let a := if fs.isSome && (c.frameOf p.q (j + 1) != fs || last (j + 1)) then
      let x := c.closeStrain
      (x.1, if whole p.q c.sNum then [x.2] else [])
    else (c, [])
  let c := a.1
  if fb.isSome && (c.frameOf p.qb (j + 1) != fb || last (j + 1)) then
    if whole p.qb c.bNum then
      let x := c.closeBand
      (x.1, a.2 ++ [x.2])
    else ({ c with bOuts := 0 }, a.2)
  else (c, a.2)

/-- One input of every position, in the order of the positions (R219, R221): the chain and the frames closed. -/
def FdcCtx.feed (c : FdcCtx) (xs : List Int) : FdcCtx × List Closed :=
  let p := c.par
  let r := Nat.max p.r 1
  let t := c.index % r
  let beta := c.index / r
  let s0 := c.set beta
  let s1 := c.set (beta + 1)
  let ps := c.list
  let block := (ps.zip xs).map (fun e => (e.1.1, (if t = 0 then [] else (mapGet c.block e.1.1).getD []) ++ [e.2]))
  let recs := (ps.zip xs).map (fun e => (e.1.1, fdcInput p s0 s1 t e.2 e.1.2))
  let inputs := (ps.zip xs).map (fun e => (e.1.1, (mapGet c.inputs e.1.1).getD [] ++ [e.2]))
  let c := { c with index := c.index + 1, recs := recs, block := block, inputs := inputs }
  if t + 1 = r then
    let n : Int := c.nominal2 beta
    let stopped := match c.stop with
      | some k => decide ((2 * k : Int) ≤ n)
      | none => false
    if stopped || (!c.fresh && decide ((n : Int) < 0)) then
      -- R233, R491: such an output belongs to another chain, or is not computed; the partial sums move on
      ({ c with recs := recs.map (fun (e : Nat × FdcRec) => (e.1, { e.2 with ps0 := e.2.ps1, ps1 := 0 })) }, [])
    else
      let newBand := c.bOuts == 0
      let outs : List (Nat × FdcRec × Int × Bool) := recs.map (fun e => (e.1, fdcOutput p s0 newBand e.2))
      let least := (outs.map (fun e => e.2.1.outs)).foldl Nat.min 65535
      let c := { c with recs := outs.map (fun (e : Nat × FdcRec × Int × Bool) => (e.1, e.2.1)) }
      c.afterOutput beta (outs.map (fun (e : Nat × FdcRec × Int × Bool) => e.2.2.1))
        (outs.any (fun (e : Nat × FdcRec × Int × Bool) => e.2.2.2)) least
  else (c, [])

/-- Whether a stopped chain has computed its last output: the next has its nominal instant at t_c or later (R491). -/
def FdcCtx.done (c : FdcCtx) : Bool :=
  match c.stop with
  | some n => decide ((2 * n : Int) ≤ c.nominal2 (c.index / Nat.max c.par.r 1))
  | none => false

/-- The frames that a chain cut short still holds close as they stand once its last output is computed (R63). -/
def FdcCtx.flush (c : FdcCtx) : FdcCtx × List Closed :=
  if !c.short || !c.done then (c, [])
  else
    let a := if c.sRows.isEmpty then (c, []) else (c.closeStrain.1, [c.closeStrain.2])
    if a.1.bOuts == 0 then a
    else
      let x := a.1.closeBand
      (x.1, a.2 ++ [x.2])

/-- The group delay of a bank in ns (R225). -/
def bankDelay (dh tin : Nat) : Nat := cdiv (dh * tin) 2

/-- The filter group delay of a chain's schedule (R225, R238). -/
def fdcDelay (val : Nat → Val) (k : SchedKind) (r : Route) : Nat :=
  let get : CfgRead := fun i j => (val (objKey i j)).toNat
  let gr := if get 0x2000 0x03 == 1 then Route.a else r
  let o := at10 0x2610 gr
  let p := mkFdcParams val k r
  if p.sentinel then bankDelay ((p.banks.getD (get o 0x0C) none).map (·.dh.toNat) |>.getD 0) p.tin
  else Nat.max (get o 0x08) (maxN (p.banks.map (fun b => bankDelay ((b.map (·.dh.toNat)).getD 0) p.tin)))

end Sys2Proof.Machine
end

