-- ==== Sys2Proof/Machine/FrameOps.lean ====
section
/-! DEFINITION. From a route's filter chain to stream frames: frame counters (R295), the frames a chain closes with
their Waybill fields and flags (R234, R304), bank swaps at frame boundaries (R230, R231), and the chains that take
over at route starts and staged commits (R233, R491). -/

namespace Sys2Proof.Machine

open Sys2Proof

/-! ### Frame counters and carried flags -/

/-- The input index of a chain at a frame boundary, from the route frames since the route start. -/
def FdcCtx.indexAt (c : FdcCtx) (frames : Nat) : Nat := (frames - c.base) * c.par.fg

/-- Updates one element of a list. -/
def listSet {α : Type} (l : List α) (i : Nat) (f : α → α) : List α :=
  (l.zip (List.range l.length)).map (fun e => if e.2 = i then f e.1 else e.1)

/-- The frame counter of a stream and route, and the state with it advanced. -/
def State.nextCount (s : State) (r : Route) (stream : Nat) : Nat × State :=
  ((s.route r).fcount.getD stream 0, s.modRoute r (fun x => { x with fcount := listSet x.fcount stream (· + 1) }))

/-- The governing route under a reading. -/
def govRead (get : CfgRead) (r : Route) : Route := if get 0x2000 0x03 == 1 then .a else r

/-- Whether Raman frames are produced on a route under a reading: SENSE, Raman enabled, the route that holds the frames. -/
def State.ramanUnder (s : State) (get : CfgRead) (r : Route) : Bool :=
  let g := govRead get r
  s.mode == 4 && get (at100 0x2110 g) 0x01 == 1 && get (at100 0x2170 g) 0x01 == 1 && g == r

/-- Whether Raman frames are produced on a route. -/
def State.ramanOn (s : State) (r : Route) : Bool := s.ramanUnder (s.read r) r

/-- Whether a route holds a quasi-static frame. -/
def State.quasiOn (s : State) (r : Route) : Bool :=
  s.mode == 4 && s.enabled r && s.cfg r (at10 0x2530 (s.gov r)) 0x01 != 0 && !(s.loopGuard && r == .b)

/-- Whether the source of a stream with a frame period runs on a route (R295): the filter chain in SENTINEL and SENSE, the
tracker, the Raman engine and the cores in SENSE alone, the trace in SURVEY. -/
def State.sourceRuns (s : State) (r : Route) (stream : Nat) : Bool :=
  match stream with
  | 1 | 2 | 3 => s.mode == 3 || s.mode == 4
  | 4 => s.quasiOn r
  | 5 | 6 => s.ramanOn r
  | 8 => s.mode == 4
  | 12 => s.mode == 5
  | _ => false

/-- Advances the counters of the streams of a route whose source runs across an interval that belongs to no frame (R62,
R91, R295). -/
def State.skipFrame (s : State) (r : Route) : State :=
  s.modRoute r (fun x => { x with fcount := (x.fcount.zip (List.range x.fcount.length)).map (fun e =>
    if s.sourceRuns r e.2 then e.1 + 1 else e.1) })

/-- Takes the flags that the next frame of a stream carries. -/
def State.takeCarry (s : State) (r : Route) (stream : Nat) : Nat × State :=
  ((s.route r).carry.getD stream 0, s.modRoute r (fun x => { x with carry := listSet x.carry stream (fun _ => 0) }))

/-- Adds flags to the next frame of a stream. -/
def State.addCarry (s : State) (r : Route) (stream flags : Nat) : State :=
  s.modRoute r (fun x => { x with carry := listSet x.carry stream (fun c => c ||| flags) })

/-- The frames of a stream that wait behind a late one are dropped with it, each counted (R39): they are handed over for
the other consumers alone. -/
def State.dropBehind (s : State) (r : Route) (stream : Nat) : State :=
  let n := ((s.route r).ready.filter (fun f => f.stream == stream && f.send)).length
  let s := s.modRoute r (fun x => { x with ready := x.ready.map (fun f =>
    if f.stream == stream then { f with send := false } else f) })
  if n = 0 then s else (s.bump (streamIdx stream) 0x11 n).bump 0x2000 0x18 n

/-- Appends a frame waiting for its hand-over. -/
def State.addReady (s : State) (r : Route) (f : ReadyFrame) : State :=
  s.modRoute r (fun x => { x with ready := x.ready ++ [f] })

/-! ### The chain of a route -/

/-- The threshold objects in force for a chain's route. -/
def State.thresholds (s : State) (r : Route) : Thresholds :=
  let o := at10 0x2610 (s.gov r)
  { enable := s.cfg r o 0x18, margins := (List.range 4).map (fun b => s.cfg r o (0x19 + b)), peak := s.cfg r o 0x1D }

/-- The stream of a route's strain-rate frames (R223). -/
def strainStream : Route → Nat
  | .a => 1
  | .b => 2

/-- The information of route frames k to k + q - 1 as one: launch of the first input, flags, position, and the first contributing shot with
the sequence and the bound in force at it (R77). -/
def mergeInfo (infos : Map FrameInfo) (k q : Nat) : FrameInfo :=
  let l := (List.range q).filterMap (fun i => mapGet infos (k + i))
  match l with
  | [] => { start := 0, first := none, flags := 0, cseq := 0, bound := 0, pos := 0 }
  | h :: _ =>
    let c := (l.find? (fun i => i.first.isSome)).getD h
    { h with first := c.first, cseq := c.cseq, bound := c.bound, flags := l.foldl (fun a i => a ||| i.flags) 0 }

/-- The payload of a band-energy frame: U16 levels, then the extremes when they are enabled (R227, R304). -/
def bandRow (p : FdcParams) (row : List Int) : List Int := if p.minmax then row else row.take p.nb

/-- A frame that a chain has closed, as a frame waiting for its hand-over (R225, R227, R234, R236). -/
def State.closeOne (s : State) (r : Route) (c : FdcCtx) (f : Closed) : State :=
  let p := c.par
  let q := if f.band then p.qb else p.q
  let i := mergeInfo c.infos (f.num * q) q
  let stream := if f.band then 3 else strainStream r
  let flags := i.flags ||| (if i.first.isNone then s.timeFlagsAt i.start else 0) ||| (if f.unset then 1 else 0) ||| (if f.clip then 2 ^ 10 else 0)
    ||| (if c.short && decide (c.stop.getD 0 < (f.num + 1) * q * p.fg) then 2 ^ 11 else 0) ||| (if s.streams.degraded then 2 ^ 12 else 0)
  let ts := i.first.getD i.start
  let (n, s) := s.nextCount r stream
  let rows := if f.band then f.rows.map (bandRow p) else f.rows
  let ev := f.hits.map (fun h =>
    ({ time := s.stampOf ts, type := 1, source := 0x10, route := routeNum r, flags := flags,
       position := p.first + h.place * p.step, value := h.value, aux := (h.len : Nat), cmask := h.mask, seq := 0 } : EventRec))
  let s := if f.dropped = 0 then s else s.bump (at10 0x2610 r) 0x44 f.dropped
  let s := if f.band then s else s.modComb r (fun x => { x with
    quals := (List.range q).foldl (fun m k => mapSet m (c.base + f.num * q + k) ((mapGet m (c.base + f.num * q + k)).getD 0 ||| flags)) x.quals })
  s.addReady r
    { stream := stream, routeCode := routeNum r, fcount := n, tstart := s.stampOf ts, period := q * p.ft, first := p.first,
      count := p.count, pitch := p.pitch, quality := flags, cseq := i.cseq, pos := i.pos,
      payload := rows.flatMap (fun x => x.flatMap (beInt 2)),
      plane := rows.map (fun x => x.map (fun v => wrapS v 16)), cols := if f.band then (p.nb + (if p.minmax then 2 else 0)) else p.count,
      deadline := ts + i.bound, send := !p.sentinel && (if f.band then p.bandOn else p.strainOn), events := ev,
      block := f.rows.flatMap id, inputs := f.inputs, closing := s.stampOf (i.start + q * p.ft) }

/-- Drops the route frames that no frame of the chain still holds. -/
def FdcCtx.prune (c : FdcCtx) : FdcCtx :=
  let k := Nat.min (c.sNum * c.par.q) (c.bNum * c.par.qb)
  { c with infos := c.infos.filter (fun e => decide (k ≤ e.1)) }

/-- The frames that a chain has closed, in order. -/
def State.closeAll (s : State) (r : Route) (c : FdcCtx) (l : List Closed) : State :=
  l.foldl (fun s f => s.closeOne r c f) s

/-- Enters a launch in the route frame of the chain's present input: flags, and the first contributing shot, the earliest whose effective
shot `enters` some position (R25, R58). -/
def FdcCtx.enter (c : FdcCtx) (l : Launch) (pos flags : Nat) (enters : Bool) : FdcCtx :=
  let k := c.index / Nat.max c.par.fg 1
  let i := (mapGet c.infos k).getD { start := l.ns, first := none, flags := 0, cseq := l.cseq, bound := l.bound, pos := pos }
  let i := if i.first.isNone && enters then { i with first := some l.ns, cseq := l.cseq, bound := l.bound } else i
  { c with infos := mapSet c.infos k { i with flags := i.flags ||| flags } }

/-- The end records of the fades whose last block the input just taken ends; a fade that a later swap cut short has none (R231). -/
def State.fadeEnds (s : State) (r : Route) (c : FdcCtx) (ns : Nat) : State :=
  let ended := fun (w : Nat × Nat × Nat) => w.2.1 != w.2.2 && (w.1 + 2 ^ c.par.kx) * c.par.r == c.index
    && !c.swaps.any (fun v => decide (w.1 < v.1) && decide (v.1 < w.1 + 2 ^ c.par.kx))
  (c.swaps.filter ended).foldl (fun s w =>
    s.issueRec { time := s.stampOf ns, type := 5, source := 0x10, route := routeNum r, flags := 0, position := 0,
                 value := (w.2.1 : Nat), aux := (w.2.2 : Nat), cmask := 2, seq := 0 }) s

/-- OD 2610.43 from a chain: FADE, QUEUED, QBANK and FROM (Table 8.6). -/
def State.reportFade (s : State) (r : Route) (c : FdcCtx) : State :=
  let frm := (c.swaps.head?.map (·.2.1)).getD 0
  s.put (at10 0x2610 r) 0x43 (b2n (c.fadingAt c.index) * 128 + b2n c.queued.isSome * 64 + (c.queued.getD 0) * 4 + frm)

/-- One input of a chain for a launch: the launch enters its route frame, the chain takes the values, and what closes
waits for its hand-over. A position that carries no gauge output under the tables of the launch, after a commit of a longer gauge, takes
zeros in a chain that still works on it (DESIGN CHOICE, assumption log 26). -/
def State.feedCtx (s : State) (r : Route) (c : FdcCtx) (l : Launch) (pos flags : Nat) (enters : Bool) (xs : List Int) :
    FdcCtx × State :=
  let x := (c.enter l pos flags enters).feed ((xs ++ List.replicate c.par.count 0).take c.par.count)
  (x.1.prune, (s.closeAll r x.1 x.2).fadeEnds r x.1 l.ns)

/-- The instant of an input of a chain at or after the first of its newest route frame, the zero inputs of R491 among them: they follow
each other at T_in. -/
def FdcCtx.inputNs (c : FdcCtx) (i : Nat) : Nat :=
  let e := c.infos.foldl (fun (a : Nat × Nat) e => if a.1 ≤ e.1 then (e.1, e.2.start) else a) (0, 0)
  e.2 + (i - e.1 * c.par.fg) * c.par.tin

/-- The zero inputs of R491: the input clock runs on until the last output is computed; a fade whose last block they end has its record
(R231). -/
def State.runZeros (r : Route) : Nat → FdcCtx → State → FdcCtx × State
  | 0, c, s => (c, s)
  | k + 1, c, s =>
    if c.done then (c, s)
    else
      let x := c.feed (List.replicate c.par.count 0)
      State.runZeros r k x.1 ((s.closeAll r x.1 x.2).fadeEnds r x.1 (c.inputNs c.index))

/-- Completes a stopped chain with zero inputs (R491). -/
def State.runOutCtx (s : State) (r : Route) (c : FdcCtx) : FdcCtx × State :=
  let x := State.runZeros r (4 * c.par.r + 1024) c s
  let y := x.1.flush
  (y.1, x.2.closeAll r y.1 y.2)

/-- A chain whose launches have ended holds no fade and no request: the queued bank, which OD 2610.0A names, is the bank in force, as the next
SENSE start takes it (DESIGN CHOICE, assumption log 26: R231 lets a queued request wait for a boundary after the fade, which does not come). -/
def State.endFade (s : State) (q : Route) (c : FdcCtx) : FdcCtx × State :=
  let s := match c.queued with
    | some n => s.put (at10 0x2610 q) 0x42 n
    | none => s
  ({ c with bank0 := c.target, swaps := [], queued := none }, s.put (at10 0x2610 q) 0x43 0)

/-- Whether a chain still awaits inputs before its last frame boundary. -/
def FdcCtx.before (c : FdcCtx) : Bool :=
  match c.stop with
  | some n => decide (c.index < n)
  | none => true

/-- Once the launches of a route have ended and none of its chains awaits a launch, every chain is completed with zero inputs, oldest
first (R233, R491). -/
def State.runOutAll (s : State) (q : Route) : State :=
  let f := (s.route q).fdc
  match f.cur with
  | none => s
  | some c =>
    if c.before || f.old.any FdcCtx.before then s
    else
      let s := f.old.foldl (fun s o => (s.runOutCtx q o).2) s
      let x := s.runOutCtx q c
      let y := x.2.endFade q x.1
      y.2.modFdc q (fun _ => { cur := some y.1, old := [] })

/-! ### Chains at route starts, stops and commits -/

/-- The schedule kind that the chain of a route serves now. -/
def State.chainOf (s : State) (r : Route) : Option FdcParams :=
  match s.kind with
  | .survey => none
  | k => if s.loopGuard && r == .b then none else some (mkFdcParams (s.cfgOf r) k r)

/-- The bank a chain starts on: the SENTINEL bank, or that of OD 2610.0A (R228, R230). Where launches ended during a fade with a request
queued, that is the bank of the request (DESIGN CHOICE, assumption log 26: R230 and R231 leave open which of the two is in force). -/
def State.startBank (s : State) (r : Route) (p : FdcParams) : Nat :=
  s.cfg r (at10 0x2610 (s.gov r)) (if p.sentinel then 0x0C else 0x0A)

/-- Starts the chain of a route from the reset state (R233). Under Loop Guard the chain of the loop is route A's, and a
start of one end alone leaves it as it is (R179). -/
def State.startFdc (s : State) (r : Route) : State :=
  if s.loopGuard && (s.route (otherRoute r)).optics.launching then s
  else
    let go := fun (s : State) (q : Route) =>
      match s.chainOf q with
      | none => s.modFdc q (fun _ => Fdc.reset)
      | some p =>
        let b := s.startBank q p
        (s.modFdc q (fun _ => { cur := some (newCtx p (s.thresholds q) 0 b true), old := [] })).put (at10 0x2610 q) 0x42
          (s.cfg q (at10 0x2610 q) 0x0A) |>.put (at10 0x2610 q) 0x43 0
    if s.loopGuard then go s .a else go s r

/-- Ends the chain of a route at the frame boundary t_c: its outputs before t_c are completed once the returns of its
launches are processed (R491). `q` is the route that holds the chain; `short` is the end of route B's frame in progress at a change of topology (R63). -/
def State.stopFdc (s : State) (q : Route) (short : Bool) : State :=
  match (s.route q).fdc.cur with
  | none => s
  | some c =>
    let n := if short then (s.route q).optics.launchSeq - c.base * c.par.fg else c.indexAt (s.route q).optics.frames
    if c.stop.isSome then s
    else (s.modFdc q (fun f => { f with cur := some { c with stop := some n, short := short } })).runOutAll q

/-- Whether the route or loop of a chain launches. -/
def State.chainLaunches (s : State) (q : Route) : Bool :=
  (s.route q).optics.launching || (s.loopGuard && (s.route (otherRoute q)).optics.launching)

/-- A staged commit takes effect on a route that goes on launching: the old chain completes its outputs, a zeroed one
takes over on the new tables (R233). -/
def State.swapFdc (s : State) (q : Route) : State :=
  match (s.route q).fdc.cur, s.chainOf q with
  | some c, some p =>
    if c.stop.isSome then s
    else
      let n := c.indexAt (s.route q).optics.frames
      let b := s.startBank q p
      (s.modFdc q (fun f => {
        cur := some (newCtx p (s.thresholds q) (s.route q).optics.frames b false)
        old := f.old ++ [{ c with stop := some n, queued := none }] })).put (at10 0x2610 q) 0x42 (s.cfg q (at10 0x2610 q) 0x0A)
        |>.put (at10 0x2610 q) 0x43 0
  | _, _ => s

/-- The threshold objects in force from the present frame boundary on (R30). -/
def State.noteThresholds (s : State) (q : Route) : State :=
  match (s.route q).fdc.cur with
  | none => s
  | some c =>
    let th := s.thresholds q
    if c.stop.isSome || (c.ths.head?.map (·.2)) == some th then s
    else s.modFdc q (fun f => { f with cur := some { c with ths := ((c.indexAt (s.route q).optics.frames, th) :: c.ths).take 8 } })

/-- A commit without a staged change at a boundary: it ends any fade, clears the queue and puts the committed bank in
force (R231). -/
def State.commitBank (s : State) (q : Route) : State :=
  let n := s.cfg q (at10 0x2610 q) 0x0A
  match (s.route q).fdc.cur with
  | none => s.put (at10 0x2610 q) 0x42 n
  | some c =>
    if c.par.sentinel || c.stop.isSome then s.put (at10 0x2610 q) 0x42 n
    else
      let is := c.indexAt (s.route q).optics.frames
      let c' := if c.swaps.isEmpty && c.bank0 == n then { c with queued := none } else { c.swap is n n with queued := none }
      ((s.modFdc q (fun f => { f with cur := some c' })).put (at10 0x2610 q) 0x42 n).reportFade q c'

/-- Starts a fade to a bank at the present frame boundary, with its record (R230, R231). -/
def State.beginFade (s : State) (q : Route) (c : FdcCtx) (n : Nat) : State :=
  let is := c.indexAt (s.route q).optics.frames
  let a := c.target
  let c' := { c.swap is a n with queued := none }
  let s := s.issueRec { time := s.stampOf (s.route q).optics.frameNs, type := 5, source := 0x10, route := routeNum q, flags := 0,
                        position := 0, value := (a : Nat), aux := (n : Nat), cmask := 1, seq := 0 }
  ((s.modFdc q (fun f => { f with cur := some c' })).put (at10 0x2610 q) 0x42 n).reportFade q c'

/-- A bank request at a frame boundary, or while no route launches (R230, R231). -/
def State.requestBank (s : State) (q : Route) (n : Nat) : State :=
  match (s.route q).fdc.cur with
  | none => s.put (at10 0x2610 q) 0x42 n
  | some c =>
    if c.par.sentinel || !s.chainLaunches q then s.put (at10 0x2610 q) 0x42 n
    else
      let is := c.indexAt (s.route q).optics.frames
      if c.fadingAt is then
        let c' := { c with queued := if c.target = n then none else some n }
        (s.modFdc q (fun f => { f with cur := some c' })).reportFade q c'
      else if c.target = n then
        let c' := { c with queued := none }
        (s.modFdc q (fun f => { f with cur := some c' })).reportFade q c'
      else s.beginFade q c n

/-- A queued bank takes effect at the first frame boundary at or after the fade completes (R231). -/
def State.queuedBank (s : State) (q : Route) : State :=
  match (s.route q).fdc.cur with
  | none => s
  | some c =>
    match c.queued with
    | none => s
    | some n =>
      if c.fadingAt (c.indexAt (s.route q).optics.frames) then s
      else if c.target = n then s.modFdc q (fun f => { f with cur := some { c with queued := none } })
      else s.beginFade q c n

/-! ### Frame counters of a route that sends no frames -/

/-- The shot periods of a Raman block: 2^k runs of K, and twice that under Loop Guard, where the ends alternate (R192). -/
def State.ramanShots (s : State) (r : Route) : Nat :=
  2 ^ (s.cfg r (at10 0x2510 (s.gov r)) 0x01 + b2n s.loopGuard) * Nat.max (s.g100 r 0x2170 0x02) 1

/-- The route frames of a frame of each stream with a frame period: strain, band energy, quasi-static and Raman
frames. -/
def State.streamMultiple (s : State) (r : Route) (stream : Nat) : Nat :=
  let o := at10 0x2610 (s.gov r)
  match stream with
  | 3 => s.cfg r o 0x11
  | 4 => s.cfg r (at10 0x2530 (s.gov r)) 0x06
  | 5 | 6 => s.ramanShots r / Nat.max (s.g100 r 0x2110 0x0B) 1
  | 8 | 12 => 1
  | _ => s.cfg r o 0x04

/-- One route frame passes without frames: the counter of each source that runs advances at its own period (R95, R100, R295,
R449). -/
def State.silentFrame (s : State) (r : Route) : State :=
  let n := (s.route r).optics.silent + 1
  let s := s.modOptics r (fun o => { o with silent := n })
  [strainStream r, 3, 4, 5, 6, 12].foldl (fun s st =>
    if s.sourceRuns r st && n % Nat.max (s.streamMultiple r st) 1 == 0 then (s.nextCount r st).2 else s) s

/-! ### Handing frames over -/

/-- LATE_DROP in the quality word. -/
def flLate : Nat := 128

/-- Hands a route frame over; when it is dropped as late, the next frame of the stream carries LATE_DROP (R39). Answers
whether it was dropped. -/
def State.handRoute (s : State) (r : Route) (d : FrameDesc) : Bool × State :=
  let x := s.handOver d
  (x.1, if x.1 then x.2.addCarry r d.stream flLate else x.2)

/-- Gives records of one source frame their numbers, logs what is logged, and hands them over as one frame of stream
0x07 under the deadline of their source frame (R261, R305). Answers the numbered records. -/
def State.handEvents (s : State) (r : Route) (recs : List EventRec) (quality : Nat) (period cseq : Nat) (pos : Nat) (deadline : Nat) :
    List EventRec × State :=
  if recs.isEmpty then ([], s)
  else
    let n := s.streams.seq
    let l := (recs.zip (List.range recs.length)).map (fun e => { e.1 with seq := (n + e.2) % 2 ^ 32 })
    let s := { s with streams := { s.streams with seq := (n + recs.length) % 2 ^ 32 } }
    let s := l.foldl State.logRecord s
    let (k, s) := s.nextCount r 7
    if s.eventsSent then
      let (c, s) := s.takeCarry r 7
      (l, (s.handRoute r
        { stream := 7, routeCode := routeNum r, fcount := k, tstart := l.foldl (fun m e => min m e.time) ((l.head?.map (·.time)).getD 0),
          period := period, first := 0, count := 0, pitch := 0, quality := quality ||| c, cseq := cseq, switchPos := some pos,
          payload := l.flatMap eventBytes, coded := false, deadline := some deadline, records := l.length }).2)
    else (l, s)

end Sys2Proof.Machine
end

