-- ==== Sys2Proof/Machine/Figures.lean ====
section
/-! DEFINITION. The figures of a configuration: the streams it produces with their largest frames and periods (R72,
R255, R294, R305, R306, R360), the delivery bound of each schedule (R37, R74), and the loads that admission compares
(R68 to R73). -/

namespace Sys2Proof.Machine

open Sys2Proof

/-! ### Sums of quotients -/

/-- A quotient of naturals with a positive denominator. -/
structure Frac where
  num : Nat
  den : Nat

/-- a / b, a zero divisor taken as 1. -/
def frac (a b : Nat) : Frac := ⟨a, Nat.max b 1⟩

/-- The sum of two quotients. -/
def Frac.add (a b : Frac) : Frac := ⟨a.num * b.den + b.num * a.den, a.den * b.den⟩

/-- The sum of a list of quotients. -/
def Frac.sum (l : List Frac) : Frac := l.foldl Frac.add ⟨0, 1⟩

/-- Whether a quotient is at most a natural. -/
def Frac.le (a : Frac) (n : Nat) : Bool := decide (a.num ≤ n * a.den)

/-- A quotient by `k`, rounded up. -/
def Frac.up (a : Frac) (k : Nat) : Nat := cdiv a.num (a.den * k)

/-! ### Readings -/

/-- Values of a configuration by key. -/
abbrev CfgVal := Nat → Val

/-- The number of an object. -/
def CfgVal.num (v : CfgVal) : CfgRead := fun i j => (v (objKey i j)).toNat

/-- The block of an object. -/
def CfgVal.blob (v : CfgVal) (i j : Nat) : Bytes := (v (objKey i j)).toBytes

/-- Whether the topology is Loop Guard. -/
def isLoop (get : CfgRead) : Bool := get 0x2000 0x03 == 1

/-- The route whose objects govern an end under a reading. -/
def govOf (get : CfgRead) (r : Route) : Route := if isLoop get then .a else r

/-- The routes with a filter chain: the enabled ones, route A alone under Loop Guard. -/
def chainRoutes (get : CfgRead) : List Route := if isLoop get then (enabledRoutes get).filter (· == .a) else enabledRoutes get

/-- The schedules an image holds, in the order of R67. -/
def heldSchedules (get : CfgRead) : List SchedKind :=
  if commissioning get then [.survey] else [.sense, .sentinel, .survey]

/-! ### Streams (R72) -/

/-- A stream that a schedule produces: its route, largest payload, frame period or shortest interval, and group delay
where it has a delivery bound. -/
structure Prod where
  stream : Nat
  route : Option Route
  b : Nat
  tf : Nat
  gd : Option Nat

/-- The codec block overhead of a stream that Pannier codes (R310). -/
def codecOver (get : CfgRead) (stream rows cols : Nat) : Nat :=
  if get (streamIdx stream) 0x05 == 1 then 16 + rows * cdiv cols 256 else 0

/-- A slot record of a core (Table 9.8). -/
structure SlotRec where
  enable : Bool
  kind : Nat
  route : Nat
  first : Nat
  count : Nat
  entry : Nat
  handler : Nat
  wbase : Nat
  wlen : Nat
  mailbox : Nat
  w : Nat
  esrc : Nat
  emax : Nat
  omax : Nat
  vmax : Nat
  reserved : Nat

/-- The slot record in its 32 bytes. -/
def slotRec (b : Bytes) : SlotRec :=
  { enable := beField b 0 1 == 1, kind := beField b 1 1, route := beField b 2 1, first := beField b 4 4, count := beField b 8 2,
    entry := beField b 10 2, handler := beField b 12 2, wbase := beField b 14 2, wlen := beField b 16 2,
    mailbox := beField b 18 2, w := beField b 20 4, esrc := beField b 24 1, emax := beField b 25 1, omax := beField b 26 2,
    vmax := beField b 28 2, reserved := beField b 3 1 + beField b 30 2 }

/-- Route 0 is A, any other B. -/
def routeOf (n : Nat) : Route := if n = 0 then .a else .b

/-- The enabled slots of the cores with their core and slot numbers. -/
def slotsOf (v : CfgVal) : List (Nat × Nat × SlotRec) :=
  (List.range 8).flatMap (fun c => (List.range 4).filterMap (fun k =>
    let r := slotRec (v.blob (0x2710 + 0x10 * c) (0x10 + k))
    if r.enable then some (c, k, r) else none))

/-- The period and group delay of a slot's input frames (Table 9.9). -/
def slotPeriod (v : CfgVal) (r : SlotRec) : Nat × Nat :=
  let get := v.num
  let q := govOf get (routeOf r.route)
  let o := at10 0x2610 q
  let c := mkSched get .sense q
  ((if r.kind = 0 then get o 0x11 else get o 0x04) * c.frame, fdcDelay v .sense q)

/-- The streams of a filter chain in SENSE. -/
def chainStreams (v : CfgVal) (r : Route) : List Prod :=
  let get := v.num
  let c := mkSched get .sense r
  let o := at10 0x2610 r
  let fp := c.frame
  let gd := fdcDelay v .sense r
  let n := c.count - get (at10 0x2410 r) 0x01
  let q := get o 0x04
  let no := q * c.f * c.g / Nat.max (get o 0x03) 1
  let tb := get o 0x11 * fp
  let cols := get o 0x10 + 2 * get o 0x12
  let pts := cdiv c.count (Nat.max (get (at10 0x2510 r) 0x02) 1)
  let blk := 2 ^ get (at10 0x2510 r) 0x01 * get (at100 0x2170 r) 0x02 * c.t * (if isLoop get then 2 else 1)
  let st := strainStream r
  [⟨7, some r, get o 0x22 * 32, tb, some gd⟩]
    ++ (if get o 0x01 == 1 then [⟨st, some r, 2 * no * n + codecOver get st no n, q * fp, some gd⟩] else [])
    ++ (if get o 0x14 == 1 then [⟨3, some r, 2 * cols * n + codecOver get 3 n cols, tb, some gd⟩] else [])
    ++ (if get (at10 0x2530 r) 0x01 != 0 then
          [⟨4, some r, 4 * c.count + 4 * cdiv c.count 32, get (at10 0x2530 r) 0x06 * fp, some 0⟩] else [])
    ++ (if get (at100 0x2170 r) 0x01 == 1 then [⟨5, some r, 2 * pts, blk, some 0⟩, ⟨6, some r, 4 * pts, blk, some 0⟩] else [])

/-- The streams of the Forager slots (R260, R261). -/
def foragerStreams (v : CfgVal) : List Prod :=
  (slotsOf v).flatMap (fun e =>
    let r := e.2.2
    let t := slotPeriod v r
    [⟨8, some (routeOf r.route), 8 + 4 * r.omax, t.1, some t.2⟩]
      ++ (if r.vmax = 0 then [] else [⟨7, some (routeOf r.route), 32 * r.vmax, t.1, some t.2⟩]))

/-- The time-stamp stream (R360). -/
def stampStream (get : CfgRead) : List Prod :=
  let total := sumN ((List.range 8).map (fun i =>
    if bit (get (0x1420 + i) 0x03) 0 then get (0x1420 + i) 0x04 else 0))
  if total = 0 then [] else [⟨10, none, 8192, Nat.min (get 0x1430 0x01 * 1000) (512 * 1000000000 / total), none⟩]

/-- The largest length of an object's value: that of its type, or the largest its table states (R306); where a table states none for a block,
its present length (DESIGN CHOICE, assumption log 18: OD 1200.10, OD 2510.30, OD 28s0.31, OD 5000.10). -/
def maxLength (o : ObjRow) (present : Nat) : Nat :=
  match o.ty.width with
  | some n => n
  | none =>
    match o.rng with
    | .len _ hi _ => hi
    | .zeroOrLen _ hi => hi
    | _ => present

/-- The largest telemetry payload (R306): 4 bytes an entry and its value, padded to a multiple of 4. -/
def telemetryBytes (v : CfgVal) : Nat :=
  let b := v.blob 0x2900 0x05
  sumN ((List.range (b.length / 4)).map (fun i =>
    let idx := beField b (4 * i) 2
    let sub := beField b (4 * i + 2) 1
    match findObj idx sub with
    | .row o => if o.rd.isSome then 4 + 4 * cdiv (maxLength o (v.blob idx sub).length) 4 else 4
    | .count _ => 8
    | _ => 4))

/-- The telemetry stream. -/
def telemetryStream (v : CfgVal) : Prod := ⟨11, none, telemetryBytes v, v.num 0x2900 0x04 * 1000000, none⟩

/-- The streams that a schedule produces. -/
def streamsOf (v : CfgVal) (k : SchedKind) : List Prod :=
  let get := v.num
  match k with
  | .survey =>
    (enabledRoutes get).map (fun r =>
      let c := mkSched get .survey r
      ⟨12, some r, Nat.max (8 + 2 * cdiv (c.reach + 1) (Nat.max (get 0x2A00 0x03) 1)) 1040, c.frame, some 0⟩) ++ [telemetryStream v]
  | .sentinel =>
    (chainRoutes get).map (fun r =>
      let o := at10 0x2610 r
      ⟨7, some r, get o 0x22 * 32, get o 0x11 * (mkSched get .sentinel r).frame, some (fdcDelay v .sentinel r)⟩)
      ++ [⟨7, none, 1024, 1000000, none⟩] ++ stampStream get ++ [telemetryStream v]
  | .sense =>
    (chainRoutes get).flatMap (chainStreams v) ++ foragerStreams v
      ++ (if (List.range 8).any (fun k => get (0x2840 + 0x10 * k) 0x01 == 1 && get (0x2840 + 0x10 * k) 0x13 == 1) then
            [⟨9, none, get 0x2900 0x03, 0, none⟩] else [])
      ++ [⟨7, none, 1024, 1000000, none⟩] ++ stampStream get ++ [telemetryStream v]

/-! ### Delivery bound (R37, R74) -/

/-- The longest round trip of a schedule: the last position of any route, the B-positions of route B under Loop Guard
included, or the reach in the survey schedule (R37, R167, R176). -/
def longestTrip (get : CfgRead) (k : SchedKind) : Nat :=
  maxN ((enabledRoutes get).map (fun r =>
    let c := mkSched get k r
    match k with
    | .survey => c.reach * c.tbin
    | _ => (if isLoop get && r == .b then loopP get - c.first else c.first + (c.count - 1) * c.step) * c.sensePitch * c.tbin))

/-- D of a schedule (R37), 0 for one the image does not hold. With no enabled route there is no longest trip, frame period
or group delay: those terms are 0 and D is the fixed term alone, 1,000,000 ns (DESIGN CHOICE, assumption log 18). -/
def deliveryBound (v : CfgVal) (k : SchedKind) : Nat :=
  let get := v.num
  if (heldSchedules get).contains k then
    longestTrip get k + maxN ((streamsOf v k).map (fun p => match p.gd with
      | some g => 2 * p.tf + g
      | none => 0)) + 1000000
  else 0

/-- The delivery bound that binds a launch of a route now (R77). -/
def State.bound (s : State) (r : Route) : Nat := deliveryBound (s.cfgOf r) s.kind

/-! ### Loads -/

/-- The wire rate of a stream in bit/s (R72, R300). -/
def Prod.rate (p : Prod) (size : Nat) : Frac :=
  if p.stream = 9 then ⟨p.b * 1000000, 1⟩
  else frac (8 * (p.b + 64 + 78 * cdiv (p.b + 64) (Nat.max size 1)) * 1000000000) p.tf

/-- The output backlog term of a stream in bytes/s (Table 2.4). -/
def Prod.backlog (p : Prod) : Frac :=
  if p.stream = 9 then ⟨p.b * 250000, 1⟩ else frac (2 * (p.b + 64) * 1000000000) p.tf

/-- The streams routed to at least one link (R294). -/
def routedStreams (v : CfgVal) (k : SchedKind) : List Prod :=
  (streamsOf v k).filter (fun p => v.num (streamIdx p.stream) 0x01 != 3)

/-- Whether a stream is routed to a link. -/
def onLink (get : CfgRead) (stream link : Nat) : Bool :=
  let l := get (streamIdx stream) 0x01
  l == link || l == 2

/-- The Comb and tracker terms of Table 2.4, SENSE only. -/
def combTerms (get : CfgRead) : List Frac :=
  (enabledRoutes get).flatMap (fun r =>
    let c := mkSched get .sense r
    let o := at10 0x2810 r
    let n := get o 0x03
    let m := get (at10 0x2530 (govOf get r)) 0x01
    (match get o 0x01 with
     | 0 => []
     | 1 => [frac (8 * c.sl * n * c.g * 1000000000) c.t]
     | _ => if isLoop get && r == .b then [] else [frac (2 * n * c.g * 1000000000) c.t])
      ++ (if m = 0 then [] else [frac (64 * c.count * c.g * 1000000000) (c.t * m)]))

/-- The guaranteed DRAM traffic of a schedule (R71, R167). -/
def dramGuaranteed (v : CfgVal) (k : SchedKind) : Frac :=
  let get := v.num
  let back := (routedStreams v k).map Prod.backlog
  match k with
  | .sense => Frac.sum (combTerms get ++ back)
  | .sentinel => Frac.sum back
  | .survey => Frac.sum (((routedStreams v k).filter (fun p => p.stream == 12)).map Prod.backlog)

/-- The capture copy traffic (R289), SENSE only. -/
def captureCopy (get : CfgRead) (k : SchedKind) : Nat :=
  match k with
  | .sense => sumN ((List.range 8).map (fun i =>
      if get (0x2840 + 0x10 * i) 0x01 == 1 then 2 * get (0x2840 + 0x10 * i) 0x0E * 1000000 else 0))
  | _ => 0

/-- The wire rate on a link (R72). -/
def dxRate (v : CfgVal) (k : SchedKind) (link : Nat) : Frac :=
  let get := v.num
  Frac.sum (((streamsOf v k).filter (fun p => onLink get p.stream link)).map (fun p => p.rate (get 0x2900 0x01)))

/-- The load of a route engine as the two sides of R68 (R167 for the survey). -/
def engineLoad (get : CfgRead) (k : SchedKind) (r : Route) : Nat × Nat :=
  let c := mkSched get k r
  let n := match k with
    | .survey => c.reach + 1
    | _ => c.count
  (n * c.g * 2 * c.sl * 10, 11 * c.t)

/-- The positions of a route dealt to a logical slice (R69): blocks of 64 places. -/
def dealt (count i slice : Nat) : Nat :=
  sumN ((List.range (cdiv count 64)).map (fun b => if (b + 8 * i) % 16 = slice then Nat.min 64 (count - 64 * b) else 0))

/-- The load of a logical slice (R69). -/
def sliceLoad (get : CfgRead) (k : SchedKind) (slice : Nat) : Nat :=
  match k with
  | .survey => 0
  | _ => sumN ((enabledRoutes get).map (fun r =>
      let c := mkSched get k r
      cdiv (dealt c.count (routeNum r) slice * c.g * (4 + 4 * c.sl) * 1000000000) (Nat.max c.t 1)))

/-- The position-state bytes (R70). -/
def sramBytes (get : CfgRead) (k : SchedKind) : Nat :=
  match k with
  | .survey => 0
  | _ => 96 * sumN ((enabledRoutes get).map (fun r => (mkSched get k r).count))

/-- The load of a Forager core (R73), SENSE only. -/
def foragerLoad (v : CfgVal) (k : SchedKind) (core : Nat) : Nat :=
  match k with
  | .sense => sumN (((slotsOf v).filter (fun e => e.1 == core)).map (fun e =>
      cdiv (e.2.2.w * 1000000000) (Nat.max (slotPeriod v e.2.2).1 1)))
  | _ => 0

/-- Whether a schedule is of continuity class (R65): E, the least F × G over the enabled routes, is at least 2; with no enabled
route it is. -/
def continuityOf (get : CfgRead) (k : SchedKind) : Bool :=
  (enabledRoutes get).all (fun r => let c := mkSched get k r; decide (2 ≤ c.f * c.g))

/-- Whether a configuration is of continuity class: every schedule it holds is (R65, R67). -/
def continuity (get : CfgRead) : Bool := (heldSchedules get).all (continuityOf get)

end Sys2Proof.Machine
end

