-- ==== Sys2Proof/Machine/CaptureOps.lean ====
section
/-! DEFINITION. The Comb and the capture slots as shared operations (10_capture.md): line bytes and depth (R270 to R272),
triggers (R277 to R280), what a capture reads (R281, R282), its end (R283) and its delivery (R284, R285). -/

namespace Sys2Proof.Machine

open Sys2Proof

/-! ### The Comb -/

/-- The index of a capture slot's objects. -/
def capIdx (k : Nat) : Nat := 0x2840 + 0x10 * k

/-- The line period t_L (R271). -/
def linePeriod (get : CfgRead) (r : Route) : Nat := let c := mkSched get .sense r; c.t / c.g

/-- The depth in force: half of it after a channel retirement (R286). -/
def State.combDepth (s : State) (r : Route) : Nat :=
  let d := Machine.combDepth (s.read r) r
  if (s.route r).comb.halved then d / 2 else d

/-- The lines of a window. -/
def windowLines (get : CfgRead) (k : Nat) : Nat := get (capIdx k) 0x09 + get (capIdx k) 0x0A + 1

/-- The bytes of a capture area: header and largest window data (OD 28s0.1A, R281). -/
def captureArea (get : CfgRead) (k : Nat) : Nat :=
  let i := capIdx k
  let r := if get i 0x02 = 0 then Route.a else Route.b
  if get i 0x0B ≤ 1 then 64 + windowLines get k * get i 0x08 * 2 * combEntry get r
  else 64 + cdiv (windowLines get k) (get i 0x0B) * get i 0x08 * 4

/-! ### Reading lines -/

/-- The address of a slot's area under a reading (R286, R287; assumption log 28). -/
def areaAddr (get : CfgRead) (k : Nat) : Nat :=
  Config.areaAddress (get 0x2810 0x04 :: get 0x2820 0x04 :: (List.range 8).map (captureArea get)) k

/-- The part of a line that a slot covers. -/
def CombLine.part (l : CombLine) (off n : Nat) : CombLine := { l with vals := (l.vals.drop off).take n }

/-- Line n as a capture of a slot reads it; a place of the ring never written holds free values. -/
def State.readLine (s : State) (c : Capture) (n : Nat) : CombLine × State :=
  let m := combEntry (s.read c.route) c.route
  let off := (c.first - s.cfg c.route (at10 0x2810 c.route) 0x02) * m
  match mapGet (s.route c.route).comb.lines n with
  | some l => if l.written || !l.vals.isEmpty then (l.part off (c.count * m), s)
    else
      ({ l with vals := (List.range (c.count * m)).map (fun i => wrapS (Config.freeValue (s.free + i) : Nat) 16) },
       { s with free := s.free + c.count * m })
  | none => ({ vals := [], written := false, frame := 0, bad := false }, s)

/-- The DRAM requests of a capture that reads its next line: the part of the line in the Comb, and the write of the entry that the line
completes in the slot's area, in the local part of a channel (R281, R286, Table 14.1). -/
def State.requestLineCopy (s : State) (k : Fin 8) (c : Capture) : State :=
  let get := s.read c.route
  let m := combEntry get c.route
  let n := 2 * m * c.count
  let s := s.requestCopy k c.route c.next (2 * m * (c.first - get (at10 0x2810 c.route) 0x02)) n
  let ch : Fin 2 := if s.bothChannels then Fin.ofNat 2 k.val else s.loneChannel
  let r := Nat.max c.red 1
  let size := if c.red ≤ 1 then n else 4 * c.count
  let entry := (c.next + c.pre - c.tline) / r
  if (c.next + c.pre - c.tline + 1) % r = 0 then s.requestLocal ch (areaAddr get k + 64 + entry * size) size 3 (.capture k) else s

/-- Reads lines of the window that the Comb now holds, in order, from the next one due; the number bounds the lines. A line not written, or with a
burst that reads uncorrectable, marks GAP (Table 14.3). -/
def State.readLines (s : State) (k : Fin 8) : Nat → Capture → Capture × State
  | 0, c => (c, s)
  | n + 1, c =>
    if c.tline + c.post < c.next || (s.route c.route).comb.next ≤ c.next then (c, s)
    else
      let x := (s.requestLineCopy k c).readLine c c.next
      x.2.readLines k n { c with
        next := c.next + 1, read := c.read + 1, lines := c.lines ++ [x.1]
        cflags := if x.1.written && !x.1.bad then c.cflags else c.cflags ||| 8 }

/-- Sets a capture slot. -/
def State.setSlot (s : State) (k : Fin 8) (x : CapSlot) : State := { s with capture := s.capture.set k x }

/-- The copy of a slot goes on at its copy rate, counted in bytes read since the acceptance; lines that the ring overwrote before they were
read are not copied, and the capture starts at the first line still held (R282). -/
def State.catchUp (s : State) (k : Fin 8) : State :=
  match (s.capture.get k).copying with
  | none => s
  | some c =>
    let oldest := (s.route c.route).comb.next - s.combDepth c.route
    let c := if c.next < oldest && decide (c.next ≤ c.tline + c.post) then { c with start := oldest, next := oldest, lines := [], cflags := c.cflags ||| 1 } else c
    let bytes := Nat.max (2 * c.count * combEntry (s.read c.route) c.route) 1
    let due := s.num (capIdx k) 0x0E * (s.cyc - c.accepted) / 1000 / bytes
    if !c.placed then s
    else
      let x := s.readLines k (Nat.min (due - c.read) (c.tline + c.post + 1 - c.next)) c
      x.2.setSlot k { x.2.capture.get k with copying := some x.1 }

/-- Sets the state code of a slot. -/
def State.slotState (s : State) (k : Fin 8) (n : Nat) : State := s.put (capIdx k) 0x20 n

/-! ### The end of a capture -/

/-- Cuts a list into runs of `n`; the fuel bounds their number. -/
def chunks {α : Type} (n : Nat) : Nat → List α → List (List α)
  | 0, _ => []
  | k + 1, l => if l.isEmpty then [] else l.take n :: chunks n k (l.drop n)

/-- The entries of r lines on the grid of the window: the first may hold fewer when the capture starts late (R281). -/
def Capture.entries (c : Capture) : List (List CombLine) :=
  let r := Nat.max c.red 1
  let lead := ((c.start : Int) - ((c.tline : Int) - (c.pre : Nat))).toNat % r
  if lead = 0 then chunks r c.lines.length c.lines
  else c.lines.take (r - lead) :: chunks r c.lines.length (c.lines.drop (r - lead))

/-- MIN and MAX of the written values of each position in an entry (R281). -/
def entryRow (n : Nat) (e : List CombLine) : List Int :=
  let w := e.filter (fun l => l.written)
  (List.range n).flatMap (fun j =>
    let v := w.map (fun l => l.vals.getD j 0)
    [v.foldl min 32767, v.foldl max (-32768)])

/-- The window data as rows (R281, R307). -/
def Capture.rows (c : Capture) : List (List Int) :=
  if c.red ≤ 1 then c.lines.map (fun l => l.vals) else c.entries.map (entryRow c.count)

/-- The lowest bit set. -/
def lowBit (n : Nat) : Nat := ((List.range 8).find? (fun b => n.testBit b)).getD 0

/-- Bytes 0 to 59 of a capture header (Table 10.3); `ftime` is the instant of the first line held. -/
def Capture.header (c : Capture) (k seq quality : Nat) (ftime : Int) : Bytes :=
  [1, byteOf k, byteOf (routeNum c.route), byteOf c.kind] ++ beBytes 4 seq ++ time80 c.ttime
    ++ [byteOf c.sources, byteOf (lowBit c.sources), byteOf c.cflags, 0] ++ beBytes 2 quality ++ beBytes 8 c.tline
    ++ time80 ftime ++ beBytes 2 c.red ++ beBytes 4 c.tL ++ beBytes 4 c.first
    ++ beBytes 4 c.count ++ beBytes 4 c.lines.length

/-- The quality of a capture: the flags of the route frames whose launches lie in the window, with a line written for them or not. -/
def State.captureQuality (s : State) (c : Capture) : Nat :=
  c.lines.foldl (fun q (l : CombLine) => q ||| (mapGet (s.route c.route).comb.quals l.frame).getD 0) 0

/-- Sends a completed capture on stream 0x09; only the window data is coded (R284, R307). Its frame carries beside the flags of the capture
those of the time state at its TSTART (R350), and LATE_DROP after a capture dropped late (R39). -/
def State.sendCapture (s : State) (c : Capture) (head : Bytes) (data : Bytes) (quality : Nat) : State :=
  let cols := (c.rows.head?.map List.length).getD 0
  let x := s.codePayload 9 c.rows cols data
  let (n, s) := x.2.2.nextCount c.route 9
  let (owed, s) := s.takeCarry c.route 9
  let quality := quality ||| owed ||| s.timeFlagsAt (s.cycleAt c.ttime / 65536).toNat
  (s.handOver
    { stream := 9, routeCode := routeNum c.route, fcount := n, tstart := c.ttime, period := 0, first := c.first, count := c.count,
      pitch := (mkSched (s.read c.route) .sense c.route).pitch, quality := quality, cseq := s.cseq c.route, switchPos := none,
      payload := head ++ x.1, coded := x.2.1, deadline := none, records := 0 }).2

/-- Completes the capture in progress of a slot with the lines read so far (R276, R282, R283); `cut` sets
TRUNCATED_END. A capture that ends before line 0 was written holds no line, and its FTIME is a free value. -/
def State.endCapture (s : State) (k : Fin 8) (cut : Bool) : State :=
  let s := s.catchUp k
  let x := s.capture.get k
  match x.copying with
  | none => s
  | some c =>
    let i := capIdx k
    let c := { c with cflags := if cut then c.cflags ||| 2 else c.cflags }
    let seq := (x.seq + 1) % 2 ^ 32
    let q := s.captureQuality c
    let data := c.rows.flatMap (fun r => r.flatMap (beInt 2))
    let (v, s) := s.draw
    let ftime : Int := if c.placed then s.stampOf (c.tC + c.start * c.tL) else ((v % 2 ^ 80 : Nat) : Int)
    let h := c.header k seq q ftime
    let head := h ++ beBytes 4 (crc32c (h ++ data))
    let send := s.num i 0x13 == 1
    let s := s.setSlot k { x with copying := none, seq := seq, held := some { header := head, data := data, area := captureArea (s.read c.route) k, addr := areaAddr (s.read c.route) k, retained := false } }
    let s := s.bump i 0x22 1
    let s := if c.cflags % 4 = 0 then s else s.bump i 0x23 1
    let s := s.slotState k (if s.num i 0x0C == 1 && !send then 1 else 3)
    let s := s.issueRec { time := c.ttime, type := 2, source := 0x30 + k.val, route := routeNum c.route, flags := q, position := c.first,
                          value := (c.lines.length : Nat), aux := toSigned seq 32, cmask := c.sources, seq := 0 }
    if send then s.sendCapture c head data q else s

/-- Ends every capture in progress that satisfies a condition, with TRUNCATED_END (R283). -/
def State.endCaptures (s : State) (p : Capture → Bool) : State :=
  (List.finRange 8).foldl (fun (s : State) (k : Fin 8) =>
    match (s.capture.get k).copying with
    | some c => if p c then s.endCapture k true else s
    | none => s) s

/-- The Comb of a route restarts empty (R273): captures in progress on it end; the data triggers of its slots are primed. The last valid
update of each position stays known (Table 10.1). -/
def State.restartComb (s : State) (r : Route) (halved : Bool) : State :=
  let s := s.endCaptures (fun c => c.route == r)
  let s := (List.finRange 8).foldl (fun (s : State) (k : Fin 8) =>
    if s.num (capIdx k) 0x02 == routeNum r then
      s.setSlot k { s.capture.get k with primedUp := true, primedDown := true, prev := none }
    else s) s
  let s := (s.put (at10 0x2810 r) 0x13 0)
  s.modComb r (fun c => { Comb.reset with halved := halved, last := c.last })

/-! ### Triggers (R277 to R280, R285) -/

/-- The last cycle whose device time, in whole ns, is not after an instant in 2^-16 ns with its fraction dropped (R278). -/
def State.wholeCycle (s : State) (t : Int) : Int :=
  let c := s.cycleAt t / 65536
  if 0 ≤ c + 1 && decide (s.timeAt48 (c + 1).toNat / 2 ^ 48 ≤ t / 65536) then c + 1 else c

/-- The trigger line of an instant in 2^-16 ns, with TRUNCATED_START for one before line 0 (R278). -/
def State.lineOf (s : State) (c : Comb) (tL : Nat) (t : Int) : Nat × Bool :=
  let x := s.wholeCycle t
  if !c.started || decide (x < c.tC) then (0, true) else (((x - c.tC) / (Nat.max tL 1 : Nat)).toNat, false)

/-- A trigger number for the SYNC bus (R285, R365): queued while the bus is in use; a full queue of 16 discards it. -/
def State.sendTrigger (s : State) (n : Nat) (t : Int) : State :=
  if s.num 0x1450 0x01 == 0 then s
  else if 16 ≤ s.sync.queue.length then s.bump 0x1450 0x17 1
  else { s with sync := { s.sync with queue := s.sync.queue ++ [(n, t)] } }

/-- The number of bits set. -/
def bitCount (n : Nat) : Nat := ((List.range 8).filter (fun b => n.testBit b)).length

/-- A trigger recognised while its slot captures: merged when its line is that of the capture, and otherwise ignored and counted, as many times
as `sources` has bits (R280). -/
def State.mergeTrigger (s : State) (k : Fin 8) (c : Capture) (sources : Nat) (t : Int) : State :=
  if (s.lineOf (s.route c.route).comb c.tL t).1 = c.tline then
    s.setSlot k { s.capture.get k with copying := some { c with sources := c.sources ||| sources, cflags := c.cflags ||| 4 } }
  else s.bump (capIdx k) 0x21 (bitCount sources)

/-- The line of the accepted trigger and the start of the window, known once line 0 has been written (R278, R281). -/
def State.place (s : State) (c : Capture) : Capture :=
  let comb := (s.route c.route).comb
  let n := s.lineOf comb c.tL c.ttime
  let start := Nat.max (n.1 - c.pre) (comb.next - s.combDepth c.route)
  { c with
    placed := true, tC := comb.tC, tline := n.1, start := start, next := start, early := []
    cflags := if n.2 || decide (n.1 < c.pre + start) then c.cflags ||| 1 else c.cflags }

/-- A capture whose trigger came before line 0 takes its place when that line is written; the triggers since then merge or are ignored. -/
def State.placeSlot (s : State) (k : Fin 8) : State :=
  match (s.capture.get k).copying with
  | none => s
  | some c =>
    if c.placed || !(s.route c.route).comb.started then s
    else
      let s := s.setSlot k { s.capture.get k with copying := some (s.place c) }
      c.early.foldl (fun (s : State) e => match (s.capture.get k).copying with
        | some d => s.mergeTrigger k d (2 ^ e.1) e.2
        | none => s) s

/-- The capture that an accepted trigger begins. -/
def State.newCapture (s : State) (k : Fin 8) (src : Nat) (t : Int) (accepted : Nat) : Capture :=
  let i := capIdx k
  let r := if s.num i 0x02 = 0 then Route.a else Route.b
  let c : Capture :=
    { src := src, accepted := accepted, placed := false, early := [], read := 0, route := r, kind := s.cfg r (at10 0x2810 r) 0x01
      first := s.num i 0x07, count := s.num i 0x08, pre := s.num i 0x09, post := s.num i 0x0A, red := s.num i 0x0B, tC := 0
      tL := linePeriod (s.read r) r, ttime := t, tline := 0, sources := 2 ^ src, cflags := 0, start := 0, next := 0, lines := [] }
  if (s.route r).comb.started then s.place c else c

/-- A slot accepts a trigger: it enters CAPTURING, the outputs of R285 follow, and the copy of the lines already held begins. -/
def State.acceptTrigger (s : State) (k : Fin 8) (src : Nat) (t : Int) : State :=
  let i := capIdx k
  let s := s.setSlot k { s.capture.get k with copying := some (s.newCapture k src t s.cyc) }
  let s := s.slotState k 2
  let s := if bit (s.num 0x2800 0x03) k then { s with pins := { s.pins with evtOut0 := true } } else s
  let s := if bit (s.num 0x2800 0x04) k then { s with pins := { s.pins with evtOut1 := true } } else s
  let out := s.num i 0x14
  if out < 16 then s.sendTrigger out t else s

/-- Whether a trigger recognised in the same 1 us recognition cycle as the accepted one comes before it: the earliest instant, then the
lowest source (R280). The cycles begin at multiples of 1,000 sample clocks (DESIGN CHOICE, assumption log 28). -/
def State.outranks (s : State) (c : Capture) (src : Nat) (t : Int) : Bool :=
  c.accepted / 1000 == s.cyc / 1000 && (decide (t < c.ttime) || (t == c.ttime && decide (src < c.src)))

/-- A trigger of the same recognition cycle takes the place of the accepted one, which then merges or is ignored; the SYNC message not yet sent
carries its instant. -/
def State.replaceTrigger (s : State) (k : Fin 8) (c : Capture) (src : Nat) (t : Int) : State :=
  let out := s.num (capIdx k) 0x14
  let s := { s with sync := { s.sync with queue := s.sync.queue.map (fun e => if e == (out, c.ttime) then (out, t) else e) } }
  let d := s.newCapture k src t c.accepted
  if c.placed then (s.setSlot k { s.capture.get k with copying := some d }).mergeTrigger k d c.sources c.ttime
  else s.setSlot k { s.capture.get k with copying := some { d with early := (c.src, c.ttime) :: c.early } }

/-- A trigger recognised by a slot: accepted when ARMED, merged when its line is that of the capture in progress, and
otherwise ignored and counted (R280). -/
def State.triggerSlot (s : State) (k : Fin 8) (src : Nat) (t : Int) : State :=
  let i := capIdx k
  if !bit (s.num i 0x03) src then s
  else if s.mode != 4 then s.bump i 0x21 1
  else
    match s.num i 0x20, (s.capture.get k).copying with
    | 1, _ => s.acceptTrigger k src t
    | 2, some c =>
      if s.outranks c src t then s.replaceTrigger k c src t
      else if c.placed then s.mergeTrigger k c (2 ^ src) t
      else s.setSlot k { s.capture.get k with copying := some { c with early := c.early ++ [(src, t)] } }
    | _, _ => s.bump i 0x21 1

/-- A trigger offered to every slot that satisfies a condition. -/
def State.triggerSlots (s : State) (src : Nat) (t : Int) (p : Nat → Bool) : State :=
  (List.finRange 8).foldl (fun (s : State) (k : Fin 8) => if p k.val then s.triggerSlot k src t else s) s

/-- A threshold record of a route triggers captures (source 4). -/
def State.triggerThreshold (s : State) (e : EventRec) : State :=
  s.triggerSlots 4 e.time (fun k => s.num (capIdx k) 0x02 == e.route && (e.cmask &&& s.num (capIdx k) 0x04) != 0)

/-- A Forager record of a route triggers captures (source 5). -/
def State.triggerForager (s : State) (e : EventRec) : State :=
  s.triggerSlots 5 e.time (fun k => s.num (capIdx k) 0x02 == e.route &&
    (s.num (capIdx k) 0x05 == 0 || s.num (capIdx k) 0x05 == e.type))

/-- A SYNC bus trigger of a number triggers captures (source 3). -/
def State.triggerSync (s : State) (n : Nat) (t : Int) : State := s.triggerSlots 3 t (fun k => s.num (capIdx k) 0x06 == n)

/-! ### The data trigger (R279) -/

/-- The crossing offset within a line period, in 2^-16 ns. -/
def crossing (lambda a b : Int) (tL : Nat) : Int := rhuDiv (((lambda - a).natAbs * tL * 65536 : Nat) : Int) (b - a).natAbs

/-- Evaluates the data trigger of a slot on the value of line n at its position, none where it is not evaluated. -/
def State.dataTrigger (s : State) (k : Fin 8) (r : Route) (n : Nat) (v : Option Int) : State :=
  let i := capIdx k
  let x := s.capture.get k
  let lam := s.int i 0x10 16
  let eta : Int := (s.num i 0x12 : Nat)
  let dir := s.num i 0x11
  match v with
  | none => s.setSlot k { x with prev := none }
  | some b =>
    let rise := match x.prev with
      | some a => decide (a < lam) && decide (lam ≤ b) && x.primedUp
      | none => false
    let fall := match x.prev with
      | some a => decide (lam < a) && decide (b ≤ lam) && x.primedDown
      | none => false
    let a := x.prev.getD 0
    let s := s.setSlot k { x with
      prev := some b, primedUp := (x.primedUp && !rise) || decide (b ≤ lam - eta)
      primedDown := (x.primedDown && !fall) || decide (lam + eta ≤ b) }
    if (rise && dir != 1) || (fall && dir != 0) then
      let c := (s.route r).comb
      let tL := linePeriod (s.read r) r
      s.triggerSlot k 6 (s.stampOf (c.tC + (n - 1) * tL) + crossing lam a b tL)
    else s

end Sys2Proof.Machine
end

