-- ==== Sys2Proof/Machine/RouteOps.lean ====
section
/-! DEFINITION. What every family shares about a running route: the control DAC lanes and switch outputs, the
route start of Table 3.5 and the warm start (R89), the route's safe subset (R105), the end of its launches, and
the registrations of power reduction in use (R96). -/

namespace Sys2Proof.Machine

open Sys2Proof

/-! ### Lanes and pins of a route -/

/-- The pump lane of a route (Table 3.3). -/
def pumpLane : Route → Fin 8
  | .a => 2
  | .b => 3

/-- The code at the pump lane of a route. -/
def State.pump (s : State) (r : Route) : Nat := s.pins.cdac.get (pumpLane r)

/-- Sets a control DAC lane. -/
def State.setLane (s : State) (l : Fin 8) (c : Nat) : State :=
  { s with pins := { s.pins with cdac := s.pins.cdac.set l c } }

/-- Sets the pump lane of a route, unclamped. -/
def State.setPump (s : State) (r : Route) (c : Nat) : State :=
  let s := s.setLane (pumpLane r) c
  match r with
  | .a => { s with pins := { s.pins with clampA := false } }
  | .b => { s with pins := { s.pins with clampB := false } }

/-- EDFA_EN of a route. -/
def State.edfa (s : State) : Route → Bool
  | .a => s.pins.edfaA
  | .b => s.pins.edfaB

/-- Step 4 of Table 3.5: EDFA_EN of a route goes high; its MOD DACs are unmuted with it (DESIGN CHOICE, assumption log 19). -/
def State.edfaOn (s : State) (r : Route) : State :=
  match r with
  | .a => { s with pins := { s.pins with edfaA := true, modMutedA := false } }
  | .b => { s with pins := { s.pins with edfaB := true, modMutedB := false } }

/-- Sets DTSP of a route. -/
def State.setDtsp (s : State) (r : Route) (b : Bool) : State :=
  match r with
  | .a => { s with pins := { s.pins with dtspA := b } }
  | .b => { s with pins := { s.pins with dtspB := b } }

/-- Step 2 of Table 3.5 releases a safe request (R106): OPT_SAFE_N rises, the hold on DTSP and the clamp of the Raman lane end with
the request. Table 3.5 names no step for those two nor for the MOD DACs, which stay muted until step 4 (DESIGN CHOICE, assumption log 19). -/
def State.releaseSafe (s : State) : State :=
  { s with
    pins := { s.pins with optSafeN := true, dtspHeldA := false, dtspHeldB := false, clampR := false }
    power := { s.power with safeRequest := false } }

/-- The switch outputs of a route. -/
def State.osw (s : State) : Route → Nat
  | .a => s.pins.oswA
  | .b => s.pins.oswB

/-- Drives the switch outputs of a route and reports the position in OD 2140.20. -/
def State.setOsw (s : State) (r : Route) (p : Nat) : State :=
  let s := s.put (at100 0x2140 r) 0x20 p
  match r with
  | .a => { s with pins := { s.pins with oswA := p } }
  | .b => { s with pins := { s.pins with oswB := p } }

/-- The route's safe subset of Table 3.9 on the outputs: its EDFA, MOD and DTSP outputs and its own pump lane; OPT_SAFE_N
is left as it is. -/
def routeSafePins (r : Route) (p : Pins) : Pins :=
  match r with
  | .a => { p with edfaA := false, modMutedA := true, dtspA := false, clampA := true, cdac := p.cdac.set 2 0 }
  | .b => { p with edfaB := false, modMutedB := true, dtspB := false, clampB := true, cdac := p.cdac.set 3 0 }

/-- The route's safe subset of Table 3.9. -/
def State.routeSafe (s : State) (r : Route) : State := { s with pins := routeSafePins r s.pins }

/-! ### Switch position (R90, R168) -/

/-- Entry i of the switch sequence as a position (Table 3.7). -/
def State.seqPos (s : State) (r : Route) (i : Nat) : Nat := field (s.g100 r 0x2140 (0x10 + i)) 19 16

/-- The route frames of entry i of the switch sequence. -/
def State.seqStay (s : State) (r : Route) (i : Nat) : Nat := field (s.g100 r 0x2140 (0x10 + i)) 15 0

/-- The switch position a route start takes; a survey run keeps the one it runs at (R168). -/
def State.wantedPos (s : State) (r : Route) : Nat :=
  if s.mode == 5 then (if s.survey.phase == 1 || s.survey.phase == 2 then s.osw r else s.cfg r 0x2A00 0x0E)
  else if s.g100 r 0x2140 0x01 == 1 then s.seqPos r (s.route (s.gov r)).optics.seqEntry
  else s.g100 r 0x2140 0x02

/-- Drives a route's switch outputs to a position; under Loop Guard those of both ends together, and an end whose outputs change
has its dwell at its next start (R89, R91). -/
def State.driveOsw (s : State) (r : Route) (p : Nat) : State :=
  let go := fun (s : State) (q : Route) =>
    let x := s.osw q != p
    (s.setOsw q p).modOptics q (fun o => { o with turned := o.turned || x })
  if s.loopGuard then go (go s .a) .b else go s r

/-! ### Power reduction (R96, R97) -/

/-- OD 2160.10. -/
def State.aprState (s : State) (r : Route) : Nat := s.num (at100 0x2160 r) 0x10

/-- Sets OD 2160.10. -/
def State.setApr (s : State) (r : Route) (n : Nat) : State := s.put (at100 0x2160 r) 0x10 n

/-- Whether power reduction is enabled on a route. -/
def State.aprOn (s : State) (r : Route) : Bool := s.r100 r 0x2160 0x01 == 1

/-- The APR pump code of a route. -/
def State.aprCode (s : State) (r : Route) : Nat := s.r100 r 0x2160 0x02

/-- The normal pump code of a route. -/
def State.normalCode (s : State) (r : Route) : Nat := s.r100 r 0x2130 0x02

/-- A registration of power reduction: window bins, references and pump codes. -/
structure Registration where
  firstBin : Nat
  lastBin : Nat
  pn : Nat
  pa : Nat
  codeN : Nat
  codeA : Nat
  deriving DecidableEq, Repr

/-- Record `pos` of OD 2160.20. -/
def regRecord (b : Bytes) (pos : Nat) : Registration :=
  let o := 32 * pos
  ⟨beField b o 4, beField b (o + 4) 4, beField b (o + 8) 8, beField b (o + 16) 8, beField b (o + 24) 2,
   beField b (o + 26) 2⟩

/-- The registration of OD 2160.08 to OD 2160.0D. -/
def regFixed (get : CfgRead) (r : Route) : Registration :=
  let o := at100 0x2160 r
  ⟨get o 0x08, get o 0x09, get o 0x0A, get o 0x0B, get o 0x0C, get o 0x0D⟩

/-- The registration of a configuration at a switch position (R96). -/
def registrationIn (val : Nat → Val) (r : Route) (pos : Nat) : Registration :=
  let get : CfgRead := fun i j => (val (objKey i j)).toNat
  if get (at100 0x2140 (govRead get r)) 0x01 == 1 then regRecord (val (objKey (at100 0x2160 r) 0x20)).toBytes pos else regFixed get r

/-- The greatest t with t^100 × 10^m ≤ p^100, by bits: floor(p × 10^(-m/100)). -/
def thetaAux (p m : Nat) : Nat → Nat → Nat
  | 0, t => t
  | k + 1, t => let u := t + 2 ^ k; thetaAux p m k (if u ^ 100 * 10 ^ m ≤ p ^ 100 then u else t)

/-- The threshold θ of R97 for a reference power and a margin in 0.1 dB. -/
def theta (p m : Nat) : Nat := thetaAux p m (bitlen p) 0

/-! ### Service of a route -/

/-- Whether a route is in LAUNCH_FAIL. -/
def State.launchFail (s : State) (r : Route) : Bool := s.on (at100 0x2150 r) 0x14

/-- Whether a route's own outputs are held safe: LAUNCH_FAIL, or the route is disabled (R95, R105). -/
def State.routeHeld (s : State) (r : Route) : Bool := s.launchFail r || !s.enabled r

/-- Begins a pump ramp from the present code (R87). -/
def State.beginRamp (s : State) (r : Route) (target : Nat) : State :=
  let c := s.pump r
  s.modOptics r (fun o => { o with ramp := some target, rampFrom := c, rampAt := s.cyc })

/-- The code of a lane `n` cycles into its ramp: it rises by the codes per ms of OD 2130.03, and falls in one step (R87). -/
def rampCode (start target rate n : Nat) : Nat := if start < target then Nat.min target (start + rate * n / 1000000) else target

/-- The outputs with the pump lane of a route at its code while it ramps. -/
def State.rampPins (s : State) (r : Route) (p : Pins) : Pins :=
  let o := (s.route r).optics
  match o.ramp with
  | none => p
  | some target => { p with cdac := p.cdac.set (pumpLane r) (rampCode o.rampFrom target (s.r100 r 0x2130 0x03) (s.cyc - o.rampAt)) }

/-- The outputs that follow their causes without any clock, as every command leaves them: the pump lanes that ramp (R87), the safe outputs under the safe
request and under what holds one route (R105, Table 3.9), and FAULT_N (R464). -/
def State.settle (s : State) : State :=
  let p := s.rampPins .b (s.rampPins .a s.pins)
  let p := if s.power.safeRequest then safePins p else p
  let p := if s.routeHeld .a then routeSafePins .a p else p
  let p := if s.routeHeld .b then routeSafePins .b p else p
  { s with pins := { p with faultN := !s.faultCause } }

/-- Whether the engine of a route is retired: its ENGINE latch (Table 17.6) without a passing BIST since (R454). -/
def State.engineRetired (s : State) (r : Route) : Bool :=
  bit (s.num 0x1700 0x10) (9 + routeNum r) && !bit s.integrity.bistPassed (1 + routeNum r)

/-- Whether an end is in service: enabled, launching, not failed (R95, R100, R181, R449). -/
def State.inService (s : State) (r : Route) : Bool :=
  let o := (s.route r).optics
  s.enabled r && !s.launchFail r && !s.engineRetired r && !o.engineOut && o.start != some .settle
    && o.start != some .dwell && o.start != some .ramp && s.aprState r != 3

/-- Whether some enabled route is in service, or none is enabled (R95, R449). -/
def State.someRoute (s : State) : Bool :=
  let ok := fun r => s.enabled r && !s.launchFail r && !s.engineRetired r && !(s.route r).optics.engineOut
  ok .a || ok .b || (!s.enabled .a && !s.enabled .b)

/-- Whether some enabled route has neither its ENGINE nor its LAUNCH bit set, or none is enabled (R463). -/
def State.routeClear (s : State) : Bool :=
  let ok := fun r => s.enabled r && field (s.num 0x1700 0x10) (9 + routeNum r) (9 + routeNum r) == 0
    && field (s.num 0x1700 0x10) (11 + routeNum r) (11 + routeNum r) == 0
  ok .a || ok .b || (!s.enabled .a && !s.enabled .b)

/-! ### Ending launches -/

/-- Ends the launches of a route; launches in flight stay to be processed. -/
def State.endLaunches (s : State) (r : Route) : State :=
  let s := s.setDtsp r false
  s.modOptics r (fun o => { o with
    launching := false, stopAt := false, ramp := none, start := none, probe := false, eligible := false, goodRun := 0, badRun := 0 })

/-- Ends the launches of a route and discards what is in flight: the returns of a route of its own that enters LAUNCH_FAIL or
RESTORE_ONLY are not processed (DESIGN CHOICE, assumption log 19: R95 and R100 do not say what becomes of them). -/
def State.dropRoute (s : State) (r : Route) : State :=
  let s := s.endLaunches r
  let s := s.modOptics r (fun o => { o with inFlight := [], moving := false, skipDue := false })
  let s := match r with
    | .a => { s with survey := { s.survey with endA := { s.survey.endA with dues := [] } } }
    | .b => { s with survey := { s.survey with endB := { s.survey.endB with dues := [] } } }
  s.modRay r (fun y => { y with handoff := none })

/-! ### Records reset at a route start

A route start of its own resets the position records of the route's positions (R149): bytes 0 to 59 of each, the
merge state and chain state kept under Loop Guard (R179); tracker and filter state follow their own rules. -/

/-- The record of a position at a route start: zero, but each GAP 0xFF (R149). An unlisted position holds it. -/
def freshRec : PosRec :=
  { zp := List.replicate 8 ⟨0, 0⟩, vh := List.replicate 4 0, plast := 0, conf := 0, lvl := 0,
    gap := List.replicate 4 0xFF, vset := false, lastg := 0, lseq := 0, why := List.replicate 4 [] }

/-- The Rayleigh state of a route at a route start (R149). -/
def resetRay (_ : Rayleigh) : Rayleigh :=
  { prevCoil := [], handoff := none, ring := [], updates := [], recs := [] }

/-! ### Route start (R89) -/

/-- Begins a survey run (R169): normal phase at both ends, sums at zero. -/
def State.surveyStart (s : State) : State :=
  let s := (s.put 0x2A00 0x10 1).put 0x2A00 0x11 0
  let fresh := fun r (e : SurveyEnd) => { SurveyEnd.reset with codes := (s.normalCode r, s.aprCode r), mapDue := e.mapDue, dues := e.dues }
  { s with survey := { s.survey with
      phase := 1, runs := s.survey.runs + 1, endA := fresh .a s.survey.endA, endB := fresh .b s.survey.endB } }

/-- The pump lane of an end whose APR phase a failed run cut short ramps back to the normal code while the end goes on launching in NORMAL
(R169; DESIGN CHOICE, assumption log 23: the manual ends the phase with the ramp and says nothing of a failed run). -/
def State.endAprPhase (s : State) (r : Route) : State :=
  let e := match r with
    | .a => s.survey.endA
    | .b => s.survey.endB
  let o := (s.route r).optics
  if e.ended && e.aprPhase && o.launching && o.ramp.isNone && s.aprState r == 0 && s.pump r != s.normalCode r then s.beginRamp r (s.normalCode r)
  else s

/-- Ends a survey run in state FAILED with a cause (R170). A run that still waits for the route starts goes on waiting, unless the device
leaves SURVEY, cause 1. -/
def State.surveyFail (s : State) (cause : Nat) : State :=
  if s.survey.phase == 1 || s.survey.phase == 2 then
    let s := (s.endAprPhase .a).endAprPhase .b
    { (s.put 0x2A00 0x10 3).put 0x2A00 0x11 cause with survey := { s.survey with phase := 0 } }
  else if s.survey.phase == 3 && cause != 1 then s
  else { s with survey := { s.survey with phase := 0 } }

/-- On entry to SURVEY the run starts once the route start of every enabled route has completed (R169); phase 3
waits for it. An end in LAUNCH_FAIL has no route start to wait for; a run that starts with such an end, or with one that power reduction
holds, fails at once with the cause of R170 (DESIGN CHOICE, assumption log 23). -/
def State.surveyIfReady (s : State) : State :=
  let failed := fun r => s.enabled r && s.launchFail r
  let held := fun r => s.enabled r && decide (2 ≤ s.aprState r)
  let ok := fun r => !s.enabled r || (s.route r).optics.start == some .done || failed r || held r
  if s.mode == 5 && s.survey.phase == 3 && ok .a && ok .b then
    let s := s.surveyStart
    if failed .a || failed .b then s.surveyFail 3 else if held .a || held .b then s.surveyFail 2 else s
  else s

/-- What a route start resets in the temperature paths (R192, R203, R210, R213): blocks, sums, fusion, the profile and the tracker's
priming; the first block and quasi-static frame begin at the first frame boundary. The start of one end of a loop whose other end
launches primes its tracker again and leaves what the loop gathers as it is (R202, R210; assumption log 24). -/
def startThermal (t : Thermal) (goesOn : Bool) (ns flags : Nat) : Thermal :=
  if goesOn then { t with primed := [], tc0 := [], trackSeq := none, trackDone := [] }
  else
    { Thermal.reset with
      kc := t.kc, kEnds := t.kEnds, tracks := t.tracks, coil := t.coil, calFrames := t.calFrames, calSum := t.calSum, calN := t.calN
      calUsed := t.calUsed, calUsedQ := t.calUsedQ, retired := t.retired, blockNs := ns, qNs := ns
      block := { RamanBlock.reset with flags := flags }, qFlags := flags }

/-- The merge at a route start (R179): zero at the start of the loop; the start of one end alone clears its MP bits. -/
def State.loopStart (s : State) (r : Route) : State :=
  if !s.loopGuard then s
  else if (s.route (otherRoute r)).optics.launching then
    { s with loop := { s.loop with recs := s.loop.recs.map (fun (e : Nat × MergeRec) => (e.1, match r with
      | .a => { e.2 with mpA := false }
      | .b => { e.2 with mpB := false })) } }
  else { s with loop := { recs := [], instant := 0, emitted := [], cutFrames := none } }

/-- The slots of the cores learn of a route start (ROUTE_START, R265). -/
def State.routeStarted (s : State) (r : Route) : State :=
  let n := routeNum (s.gov r)
  { s with cores := Vector.ofFn (fun (c : Fin 8) =>
      let x := s.cores.get c
      { x with slots := Vector.ofFn (fun (k : Fin 4) =>
          let y := x.slots.get k
          if beField (s.blob (0x2710 + 0x10 * c.val) (0x10 + k.val)) 2 1 == n then { y with routeStart := true } else y) }) }

/-- The first cycle, no earlier than `c`, at which device time has reached an instant of the grid of frame boundaries (R50, assumption
log 17). -/
def State.firstCycle (s : State) (c phase period : Nat) : Nat :=
  let d := s.timeAt48 c
  let t := firstBoundary (-(-d / 2 ^ 48)).toNat phase period
  c + (-(-((t : Int) * 2 ^ 48 - d) / increment s.rate)).toNat

/-- OD 1400.2A and OD 1400.2B (R366): the boundary at a cycle, in device time, against the grid, signed and halved about 0. -/
def State.reportAlign (s : State) (r : Route) (cy : Nat) : State :=
  let p := Nat.max (s.sched r).frame 1
  let x := ((s.timeAt48 cy / 2 ^ 48).toNat + (p - s.g100 r 0x2110 0x0C % p)) % p
  s.putI 0x1400 (0x2A + routeNum r) 32 (if p ≤ 2 * x then (x : Int) - p else x)

/-- The first frame boundary of a route start, no earlier than a cycle: on the grid of R50, or, for an end of a loop whose other end launches,
on the frames of that end, since R53 counts the launches of one end from those of the other (DESIGN CHOICE, assumption log 17). -/
def State.startBoundary (s : State) (r : Route) (c : Nat) : Nat :=
  let o := (s.route (otherRoute r)).optics
  let p := Nat.max (s.sched r).frame 1
  if s.loopGuard && o.launching then o.frameNs + cdiv (c - o.frameNs) p * p
  else s.firstCycle c (s.g100 r 0x2110 0x0C) (s.sched r).frame

/-- The frame counters advance by one across the interval since the launches of a route stopped (R62, R91): the frames before it have
been formed by now. -/
def State.skipInterval (s : State) (r : Route) : State :=
  let q := s.gov r
  if (s.route q).optics.skipDue then (s.skipFrame q).modOptics q (fun o => { o with skipDue := false }) else s

/-- Places the first frame boundary and begins launches: step 5 (R50, R89). The frames of the loop go on counting while its
other end launches. -/
def State.launchesBegin (s : State) (r : Route) : State :=
  let o := (s.route r).optics
  let s := if s.aprOn r && !o.warm then s.setApr r 1 else s.setApr r 0
  let s := ((s.skipInterval r).startFdc r).routeStarted r
  let ns := s.startBoundary r (Nat.max s.cyc o.holdUntil)
  let s := s.reportAlign r ns
  let cc := if o.configChange then 2 ^ 11 else 0
  let s := s.modThermal r (fun t => startThermal t (s.loopGuard && (s.route (otherRoute r)).optics.launching) ns cc)
  let s := s.restartComb r (s.route r).comb.halved
  let s := (s.modRoute r (fun x => { x with oldCfg := none })).loopStart r
  let goesOn := s.loopGuard && r == .a && (s.route (otherRoute r)).optics.launching
  State.surveyIfReady <| s.modOptics r (fun o => { o with
    start := some .done, launching := true, moving := false, ramp := none, holdUntil := 0, shot := 0, edgeSeen := false, missRun := 0,
    badRun := 0, goodRun := 0, eligible := false, inFlight := [], ramanRun := 0, launchSeq := 0, frameFlags := 0, frameFirst := none
    frames := if goesOn then o.frames else 0
    silent := 0, frameNs := ns })

/-- Step 4: EDFA_EN goes high and the pump lane ramps from 0, unless the route is at its normal level already. -/
def State.startRamp (s : State) (r : Route) : State :=
  if s.edfa r && s.aprState r == 0 && s.pump r == s.normalCode r then
    (s.modOptics r (fun o => { o with start := some .ramp })).launchesBegin r
  else
    let s := (s.edfaOn r).setPump r 0
    (s.modOptics r (fun o => { o with start := some .ramp })).beginRamp r (if s.aprOn r then s.aprCode r else s.normalCode r)

/-- Step 3 ends once the dwell and the range sweep have both ended (R128). -/
def State.startDwell (s : State) (r : Route) : State :=
  let o := (s.route r).optics
  if o.dwellDone && o.sweepDone then s.startRamp r else s.modOptics r (fun o => { o with start := some .dwell })

/-- The CRX at a route start (R116, R128): the range, the AGC counts, and, but for a warm start, VALID and what awaited
a boundary. -/
def State.startCrx (s : State) (r : Route) (warm : Bool) : State :=
  let o := at100 0x2180 r
  let s := s.put o 0x10 (if s.cfg r o 0x01 == 1 then s.cfg r o 0x03 else s.cfg r o 0x02)
  let s := if warm then s else (s.putBit (at100 0x2190 r) 0x13 0 false).putBit (at100 0x2190 r) 0x13 2 false
  s.modCrx r (fun c => { c with
    lowRun := 0, pendingStep := none, stepShot := 0, steps := [], oldSets := [], blindFrames := 0, blindStep := false,
    calStepNs := none, pendingSet := if warm then c.pendingSet else none })

/-- The laser ramps at a route start (R145), and the cut that no survey has located since (R182). -/
def State.resetLaser (s : State) (r : Route) : State :=
  let s := [0x12, 0x13, 0x14, 0x15].foldl (fun s sub => s.put (at10 0x2410 r) sub 0) s
  let s := s.modRoute r (fun x => { x with cutCount := [] })
  { s.put 0x2A30 0x12 0xFFFFFFFF with loop := { s.loop with cutFrames := none } }

/-- Starts a route at step 1 of Table 3.5; without a Keeper in authority no route starts (R33, R106), nor while a transition ends the
launches of the old mode (R439) or the data domain is held in local reset (R428). `keep` is false where the manual says the start is never warm. -/
def State.startRoute (s : State) (r : Route) (keep : Bool) : State :=
  if s.power.dead || s.power.transition.isSome || (s.power.domains.get 1).localReset then s
  else
  let pos := s.wantedPos r
  let moved := s.osw r != pos || (s.route r).optics.turned
  let warm := keep && s.pins.optSafeN && !moved && s.edfa r && s.aprState r == 0 && s.pump r == s.normalCode r
  let settling := (s.route (otherRoute r)).optics.start == some .settle
  let s := s.setLane 0 (s.r100 .a 0x2130 0x01)
  let s := s.setLane 1 (s.r100 .b 0x2130 0x01)
  let s := s.setLane 4 (s.cfg r 0x2030 0x01)
  let s := s.setLane 6 (s.cfg r 0x2030 0x02)
  let s := s.setLane 7 (s.cfg r 0x2030 0x03)
  let s := ((s.driveOsw r pos).useBlock (.crx r)).useBlock (.engine r)
  let s := (s.modRay r resetRay).resetLaser r
  let s := s.startCrx r warm
  let s := s.modOptics r (fun o => { o with
    warm := warm, turned := false, dwellDone := !moved, sweepDone := warm, launching := false, ramp := none, eligible := false,
    badRun := 0, goodRun := 0, missRun := 0, probe := false, inFlight := [], start := some .settle })
  if s.pins.optSafeN && !settling then s.startDwell r else s.releaseSafe

/-- Starts every enabled route, as entry to a mode that launches does; a sequence begins at its entry 0. -/
def State.startRoutes (s : State) : State :=
  let go := fun (s : State) r =>
    if s.enabled r && !s.launchFail r && !s.engineRetired r then
      (s.modOptics r (fun o => { o with seqEntry := 0, seqFrames := 0 })).startRoute r true
    else s
  go (go s .a) .b

end Sys2Proof.Machine
end

