-- ==== Sys2Proof/Machine/TimeOps.lean ====
section
/-! DEFINITION. The time unit as shared operations (13_time.md): the rate of device time (R343), the states of Table 13.2,
the reference in use (R347, R351), the loop (R349), and what a configuration changes (R345, R346, R353, R363). -/

namespace Sys2Proof.Machine

open Sys2Proof

/-- One second in 2^-16 ns. -/
def sec16 : Int := 65536000000000

/-- A latency in ps as 2^-16 ns (R355). -/
def ps16 (p : Int) : Int := rhuDiv (p * 65536) 1000

/-- Updates the time unit. -/
def State.modTime (s : State) (f : TimeUnit → TimeUnit) : State := { s with time := f s.time }

/-- The time state, OD 1400.20. -/
def State.timeState (s : State) : Nat := s.num 0x1400 0x20

/-- Whether the sample clock runs: PLL-A locked outside HIBERNATE. -/
def State.sampleClock (s : State) : Bool := bit (s.num 0x1500 0x03) 5 && s.mode != 0

/-! ### Device time (R343) -/

/-- The time unit after `n` cycles of the sample clock. -/
def State.ticks (s : State) (n : Nat) : State :=
  s.modTime (fun t => { t.set48 (t.t48 + (n : Int) * increment s.rate) with cycles := t.cycles + n })

/-- Steps device time to an instant in 2^-48 ns; the count of cycles goes on (R50, R344, R349). -/
def State.stepTime (s : State) (x : Int) : State := s.modTime (fun t => (t.mark (increment s.rate)).set48 x)

/-- Sets y_d (OD 1400.24), an s64 that saturates (R15). -/
def State.setRate (s : State) (yd : Int) : State := (s.modTime (fun t => t.mark (increment s.rate))).putI 0x1400 0x24 64 yd

/-! ### The TDC (R355, R357) -/

/-- A channel of the TDC (R355): TAP_A, TAP_B, TS6, TS7, TRIG_IN0, TRIG_IN1, PPS_IN, REFIN, SYNC_CLK, SYNC_DAT. -/
def State.tdcChannel (s : State) (ch : Nat) : TdcChannel := s.time.channels.getD ch { table0 := [], table1 := [], line1 := false }

/-- F of a tap on the line in use; 0 while the DLL is unlocked, with the mark of R357; a free value before the line's first
calibration. -/
def State.tapTime (s : State) (ch : Nat) (tap : Fin 128) : Int × State :=
  if !bit (s.num 0x1500 0x03) 9 then (0, s.putBit 0x1438 0x10 10 true)
  else
    let c := s.tdcChannel ch
    match (if c.line1 then c.table1 else c.table0)[tap.val]? with
    | some f => (f, s)
    | none => let (v, s) := s.draw; (((v % 65536 : Nat) : Int), s)

/-- The stamp of an edge in a cycle, on a channel, less an external latency in ps (R355). -/
def State.tdcStamp (s : State) (ch : Nat) (cycle : Nat) (tap : Fin 128) (latency : Int) : Int × State :=
  let x := s.tapTime ch tap
  (s.stampOf cycle + x.1 - Config.tdcLatency - ps16 latency, x.2)

/-- An edge of an input of the frequency counter, in the gate that runs (R361). -/
def State.countEdge (s : State) (input : Nat) (t : Int) : State :=
  if s.num 0x1440 0x01 != input then s
  else s.modTime (fun u => { u with gateEdges := match u.gateEdges with
    | none => some (1, t, t)
    | some g => some (g.1 + 1, g.2.1, t) })

/-! ### State and loop outputs (R349, R350) -/

/-- The holdover time in seconds, OD 1400.27. -/
def State.holdover (s : State) : Nat :=
  if s.timeState == 4 || s.timeState == 5 then (s.time.ns - s.time.holdNs) / 1000000000 else s.num 0x1400 0x27

/-- Enters a time state, with its record; the last 4,096 changes are held (assumption log 44). -/
def State.toTimeState (s : State) (n : Nat) : State :=
  if s.timeState == n then s
  else
    let s := s.modTime (fun t => { t with states := ((t.cycles, s.timeState) :: t.states).take 4096 })
    ((s.put 0x1400 0x27 s.holdover).put 0x1400 0x20 n).issue 0x37 0x28 n 0

/-- The OCXO code and y_d from the proportional part p and integ (R349). -/
def State.steer (s : State) (p : Int) : State :=
  let i := s.time.integ
  if s.num 0x1400 0x01 == 1 then
    let g := s.int 0x1400 0x0B 32
    let c0 : Int := (s.num 0x1400 0x0A : Nat)
    let q := if 0 < g then rhuDiv (-i) g else rhuDiv i (-g)
    let code := clampI 0 65535 (c0 + q)
    ((s.setLane 5 code.toNat).put 0x1400 0x25 code.toNat).setRate (-p - i - g * (code - c0))
  else s.setRate (-p - i)

/-- The code of lane 5 and y_d in WARMUP (R346). -/
def State.warmup (s : State) : State :=
  let c0 := s.num 0x1400 0x0A
  (((s.setLane 5 c0).put 0x1400 0x25 c0).setRate 0).toTimeState 1

/-! ### References (R347, R351) -/

/-- Whether a reference kind is present (OD 1400.26). -/
def State.present (s : State) (kind : Nat) : Bool :=
  let p := s.num 0x1400 0x26
  match kind with
  | 1 => bit p 0
  | 2 => bit p 2
  | 3 => bit p 3
  | _ => false

/-- The reference in use. -/
def State.refInUse (s : State) : Nat := s.num 0x1400 0x21

/-- Puts a reference in use: from FREE the unit acquires, otherwise the first θ decides (R351); with none left, LOCKED goes
to HOLDOVER with p = 0, ACQUIRING to FREE with integ kept. -/
def State.useReference (s : State) (kind : Nat) : State :=
  if kind == s.refInUse then s
  else
    let s := s.put 0x1400 0x21 kind
    let s := s.modTime (fun t => { t with lockRun := 0, farRun := 0, ppsTheta := none, ptpThetas := [], syncTheta := none })
    if s.timeState == 1 then s
    else if kind != 0 then
      if s.timeState == 0 then s.toTimeState 2 else s.modTime (fun t => { t with fresh := true })
    else if s.timeState == 3 then
      ((s.modTime (fun t => { t with holdNs := t.ns, fresh := false })).steer 0).toTimeState 4
    else if s.timeState == 2 then ((s.modTime (fun t => { t with fresh := false })).steer 0).toTimeState 0
    else s.modTime (fun t => { t with fresh := false })

/-- Chooses the reference in use; the first is taken back from a present second only after 60 s (`back`). -/
def State.chooseReference (s : State) (back : Bool) : State :=
  let a := s.num 0x1400 0x02
  let b := s.num 0x1400 0x03
  let cur := s.refInUse
  if cur != 0 && cur == b && s.present b && !back then s
  else if s.present a then s.useReference a
  else if s.present b then s.useReference b
  else s.useReference 0

/-- Sets a bit of the presence object and chooses again. -/
def State.setPresent (s : State) (b : Nat) (v : Bool) : State :=
  if bit (s.num 0x1400 0x26) b == v then s else (s.putBit 0x1400 0x26 b v).chooseReference false

/-- WARMUP ends, or does not begin, since OCXO_WARM shows warm (R346): the unit is FREE, or acquires a reference in use. -/
def State.endWarmup (s : State) : State :=
  let s := s.modTime (fun t => { t with warmDone := true })
  if s.timeState == 1 then s.toTimeState (if s.refInUse == 0 then 0 else 2) else s

/-! ### PTP and SYNC states -/

/-- The PTP port state, OD 1150.10. -/
def State.ptpState (s : State) : Nat := s.num 0x1150 0x10

/-- The SYNC state, OD 1450.10. -/
def State.syncState (s : State) : Nat := s.num 0x1450 0x10

/-! ### A configuration takes effect -/

/-- What a configuration changes in the time unit: WARMUP for a tuned oscillator that has not been warm, the references, the PTP port, which
a change of its settings starts anew (assumption log 13), the SYNC role, the gate of a counter that changes its input, and the queues of inputs that stream 0x0A no longer takes, whose
entries have no destination left (R359). -/
def State.commitTime (s : State) (old : Dict) : State :=
  let ch := fun (i j : Nat) => dictNum old i j != s.num i j
  let pol := s.num 0x1400 0x0C
  let warm := s.time.warm == (pol == 0)
  let tuned := s.num 0x1400 0x01 == 1
  let s := if tuned && pol != 2 && !s.time.warmDone then
      (if warm then (s.steer 0).endWarmup else s.warmup)
    else if s.timeState == 1 then s.toTimeState (if s.refInUse == 0 then 0 else 2)
    else if ch 0x1400 0x01 || ch 0x1400 0x0A || ch 0x1400 0x0B then s.steer 0
    else s
  let s := if [1, 2, 3, 4, 5, 6].any (ch 0x1150) then
      let s := { s with ptp := Ptp.reset }
      ((s.put 0x1150 0x10 (if s.num 0x1150 0x01 != 1 then 1 else if s.num 0x1150 0x03 == 2 then 6 else 4)).put 0x1150 0x13 0).setPresent 2 false
    else s
  let s := if ch 0x1450 0x01 then
      let s := { s with sync := SyncBus.reset }
      let s := s.modTime (fun t => { t with syncGood := 0, syncBad := 0 })
      ((s.put 0x1450 0x10 (if s.num 0x1450 0x01 == 0 then 0 else 1)).put 0x1450 0x11 0xFF).setPresent 3 false
    else s
  let s := if ch 0x1440 0x01 then s.modTime (fun t => { t with gateEdges := none }) else s
  let s := { s with inputs := Vector.ofFn (fun (i : Fin 8) =>
    if bit (s.num (0x1420 + i.val) 0x03) 0 then s.inputs.get i else { s.inputs.get i with queue := [] }) }
  s.chooseReference false

end Sys2Proof.Machine
end

