-- ==== Sys2Proof/Machine/CommitOps.lean ====
section
/-! DEFINITION. How an admitted configuration takes effect (R30, R60, R62, R63): route by route at frame
boundaries, or at once where no route launches; the L writes waiting for a boundary; what a change of the
configuration does to links, routes, cores and capture slots. -/

namespace Sys2Proof.Machine

open Sys2Proof

/-- The dictionary with every S object taken from a configuration. -/
def applyValues (od values : Dict) : Dict :=
  values.foldl (fun d e => dictSet d e.1 e.2) (od.filter (fun e => !isDraftObj e.1))

/-- The S objects of a dictionary. -/
def draftPart (od : Dict) : Dict := od.filter (fun e => isDraftObj e.1)

/-- The base of the draft: the configuration last admitted, with the L writes that wait for a boundary (R314, R315). -/
def State.base (s : State) : Dict :=
  s.control.lw.foldl (fun (d : Dict) e => dictSet d e.1 e.2)
    (match s.control.pending with
     | some p => p.values
     | none => draftPart s.od)

/-- The draft: the held copy, or the base while no one holds it (R314). -/
def State.draftNow (s : State) : Dict := if s.control.holder.isSome then s.control.draft else s.base

/-- Whether an admission is that of a commit. -/
def Admission.isCommit : Admission → Bool
  | .commit _ _ _ => true
  | .trial _ => false
  | .boot _ _ => false

/-- Whether an admission is that of bring-up. -/
def Admission.isBoot : Admission → Bool
  | .commit _ _ _ => false
  | .trial _ => false
  | .boot _ _ => true

/-- OD 1200.01, OD 1200.06 and OD 1200.07 from control memory. -/
def State.reportDraft (s : State) : State :=
  let c := s.control
  let admitting := c.admission.any Admission.isCommit
  let st := if admitting then 2 else if c.pending.isSome then 3 else if c.holder.isSome then 1 else 0
  let h := match c.holder with
    | none => 0
    | some .can => 0xFFFFFFFF
    | some (.session id) => id.toNat
  let s := (s.put 0x1200 0x01 st).put 0x1200 0x07 h
  s.put 0x1200 0x06 (match c.pending with | some p => p.seq | none => 0)

/-- Releases the draft: it returns to its base (R314). -/
def State.releaseDraft (s : State) : State :=
  { s with control := { s.control with holder := none, draft := [] } }.reportDraft

/-! ### Loading the cores and the capture slots -/

/-- The index of a core's objects. -/
def coreIdx (c : Nat) : Nat := 0x2710 + 0x10 * c

/-- The words of an image of a core's memory, most significant byte first, as a sparse memory; `dflt` is what an
unlisted word reads as. -/
def imageWords (dflt : W32) (b : Bytes) : WordMem :=
  (((beWords (b.length / 4) b).zip (List.range (b.length / 4))).filter (fun e => e.1 != dflt)).map (fun e => (e.2, e.1))

/-- HALT, what P reads where no image covers it (R265). -/
def haltWord : W32 := 0x5D000000

/-- A slot of a core after a load: its queue is empty, its input frame discarded, its next descriptor marked LOADED; the
flags that its next feature frame owes stay (R265). -/
def loadedSlot (y : FSlot) : FSlot :=
  { FSlot.reset with
    loaded := true, skipped := y.skipped || y.waiting.isSome, aborted := y.aborted, routeStart := y.routeStart, late := y.late
    reduced := y.reduced }

/-- The core after a load from its images: memories, registers and queues as at reset (R265). -/
def loadedCore (c : Core) (p x y : Bytes) : Core :=
  { Core.reset with
    p := imageWords haltWord p, x := imageWords 0 x, y := imageWords 0 y, retired := c.retired,
    lastEcc := c.lastEcc, xSnap := c.xSnap, ySnap := c.ySnap, slots := c.slots.map loadedSlot }

/-- Replaces a core. -/
def State.setCore (s : State) (c : Fin 8) (x : Core) : State := { s with cores := s.cores.set c x }

/-- Updates a core. -/
def State.modCore (s : State) (c : Fin 8) (f : Core → Core) : State := s.setCore c (f (s.cores.get c))

/-- Discards the input frames that wait on a core, each counted (R265). -/
def State.discardInputs (s : State) (c : Fin 8) : State :=
  let n := ((List.finRange 4).filter (fun k => ((s.cores.get c).slots.get k).waiting.isSome)).length
  s.bump (coreIdx c) 0x24 n

/-- Loads a core from the images in force; an invocation in progress runs to its HALT first (R265). -/
def State.loadCore (s : State) (c : Fin 8) : State :=
  let i := coreIdx c
  if (s.cores.get c).run != .gated then s.modCore c (fun x => { x with loadPending := true })
  else
    let s := (s.discardInputs c).modCore c (fun x => loadedCore x (s.blob i 0x01) (s.blob i 0x02) (s.blob i 0x03))
    ((s.put i 0x21 0).put i 0x2A 0).put i 0x20 8

/-- Whether any key of a list differs between two dictionaries. -/
def differs (a b : Dict) (keys : List Nat) : Bool := keys.any (fun k => dictGet a k != dictGet b k)

/-- The keys of an index with sub-indices `lo` to `hi`. -/
def keysOf (idx lo hi : Nat) : List Nat := (List.range (hi + 1 - lo)).map (fun i => objKey idx (lo + i))

/-- The objects whose change is a change of a route's schedule (R62). -/
def scheduleKeys (r : Route) : List Nat :=
  let o := at100 0x2110 r
  objKey 0x2000 0x03 :: (keysOf o 0x01 0x06 ++ keysOf o 0x08 0x0C)

/-- The objects whose change alters a route's probe as it stands at launch: waveform and optics (R62). -/
def probeKeys (r : Route) : List Nat := keysOf (at100 0x2120 r) 0x01 0x06

/-- The staged objects of the filter chain: those of Table 8.5 with S, and the gauge length, which sets the positions the chain works on
(DESIGN CHOICE, assumption log 26: R233 does not say what a change of OD 2410.01 alone does to the chain). -/
def chainKeys (r : Route) : List Nat :=
  let o := at10 0x2610 r
  objKey (at10 0x2410 r) 0x01 :: keysOf o 0x01 0x0C ++ keysOf o 0x10 0x14 ++ keysOf o 0x18 0x22 ++ keysOf o 0x30 0x33

/-- The objects of a core that a load follows (R265). -/
def coreKeys (c : Nat) : List Nat := keysOf (coreIdx c) 0x01 0x03 ++ keysOf (coreIdx c) 0x10 0x13 ++ keysOf (coreIdx c) 0x18 0x1B

/-- The configuration objects of a capture slot. -/
def capKeys (k : Nat) : List Nat := keysOf (capIdx k) 0x01 0x14

/-! ### Links -/

/-- The address in force of a link or port with static addressing. -/
def State.staticAddress (s : State) (idx : Nat) : State :=
  if s.num idx 0x04 == 0 then s.put idx 0x13 (s.num idx 0x05) else s

/-- Sends an ARP request for the destination of every routed stream on a link that is UP (R298), also of one that its routing
leaves on the other link, which moves here when that link is lost (R297). -/
def State.resolveLink (s : State) (l : Fin 2) : State :=
  if s.linkState l == 1 && !s.power.dead then
    (List.range 12).foldl (fun s i =>
      let st := i + 1
      if !(s.streamLinks st).isEmpty && s.streamDest st l != 0 then s.emit (.arpRequest l (s.streamDest st l)) else s) s
  else s

/-- A link after a commit: disabled it is DOWN; enabled from DOWN, or held at 10G by a fall-back, it trains at its
configured rate (R293); one that is UP at another rate trains again (DEDUCED, assumption log 29). -/
def State.commitLink (s : State) (l : Fin 2) : State :=
  let i := 0x1120 + l.val
  let s := s.staticAddress i
  let at10 := s.streams.at10.get l
  let s := { s with streams := { s.streams with at10 := s.streams.at10.set l false } }
  if s.num i 0x01 == 0 then s.put i 0x10 0
  else if s.num i 0x10 == 0 || at10 || (s.num i 0x10 == 1 && s.num i 0x11 != s.num i 0x02) then
    (s.put i 0x10 2).put i 0x11 (s.num i 0x02)
  else s

/-! ### Capture slots -/

/-- A capture slot when a configuration takes effect that changes it, or that finds it LOST: DISABLED, or ARMED; with a
capture held or in progress it follows its new mode (R276, R283, R286). -/
def State.commitSlot (s : State) (k : Fin 8) : State :=
  let i := capIdx k
  let busy := s.num i 0x20 == 2 || s.num i 0x20 == 3
  let s := s.endCapture k true
  let x := s.capture.get k
  let s := s.setSlot k { x with primedUp := true, primedDown := true, prev := none }
  if s.num i 0x01 == 0 then (s.setSlot k { CapSlot.reset with seq := x.seq }).slotState k 0
  else if busy && s.num i 0x0C == 0 then s.slotState k 3
  else s.slotState k 1

/-! ### BLANK (R120) -/

/-- BLANK has a level at the ball: an assertion is recognised once it has lasted the minimum width, and blanks the samples from its lead to
its lag; a shorter one is counted and ignored. -/
def State.blankTo (s : State) (level : Bool) : State :=
  let on := level != s.on 0x2032 0x01
  let p := { s.pins with blankLevel := level }
  let a := p.blankSince
  let b := s.cyc
  if on == p.blank then { s with pins := p }
  else if on then { s with pins := { p with blank := true, blankSeen := false, blankSince := b } }
  else if p.blankSeen || decide (s.num 0x2032 0x05 ≤ b - a) then
    { (if p.blankSeen then s else s.bump 0x2032 0x10 1) with pins := { p with
      blank := false, blankSeen := false
      blanked := p.blanked.filter (fun e => decide (b ≤ e.2 + 100000000)) ++ [(a - s.num 0x2032 0x02, b + s.num 0x2032 0x03)] } }
  else { s.bump 0x2032 0x11 1 with pins := { p with blank := false, blankSeen := false } }

/-- An assertion that has now lasted the minimum width is recognised and counted (R120). -/
def State.watchBlank (s : State) : State :=
  if s.pins.blank && !s.pins.blankSeen && decide (s.num 0x2032 0x05 ≤ s.cyc - s.pins.blankSince) then
    { s.bump 0x2032 0x10 1 with pins := { s.pins with blankSeen := true } }
  else s

/-! ### A configuration takes effect -/

/-- The effects on one core: a load when its objects change (R265). -/
def State.commitCores (s : State) (old new : Dict) : State :=
  (List.finRange 8).foldl (fun (s : State) (c : Fin 8) => if differs old new (coreKeys c) then s.loadCore c else s) s

/-- The effects on the capture slots whose objects change, and on those in LOST. -/
def State.commitSlots (s : State) (old new : Dict) : State :=
  (List.finRange 8).foldl (fun (s : State) (k : Fin 8) =>
    if differs old new (capKeys k) || s.num (capIdx k) 0x20 == 4 then s.commitSlot k else s) s

/-- The capture slots whose objects change and that the new configuration gives to a route take it with that route (R30, R60, R276). -/
def State.commitSlotsOf (s : State) (r : Route) (old new : Dict) : State :=
  (List.finRange 8).foldl (fun (s : State) (k : Fin 8) =>
    if differs old new (capKeys k) && dictNum new (capIdx k) 0x02 == routeNum r then
      ((capKeys k).foldl (fun (s : State) x => s.setVal x (dictGet new x)) s).commitSlot k
    else s) s

/-- The captures in progress on a route that a configuration cuts short end on the old tables, with the lines read so far (R283): those of a
Comb whose objects or lines change, and those of a slot whose objects change, which is STOPPED until it takes its new mode. -/
def State.cutCaptures (s : State) (r : Route) (old new : Dict) : State :=
  let comb := differs old new (keysOf (at10 0x2810 r) 0x01 0x04)
  (List.finRange 8).foldl (fun (s : State) (k : Fin 8) =>
    match (s.capture.get k).copying with
    | some c =>
      if c.route != r then s
      else if differs old new (capKeys k) then (s.endCapture k true).slotState k 3
      else if comb then s.endCapture k true else s
    | none => s) s

/-- The effect on the Comb of a route, where the configuration takes effect on it: one whose objects change restarts, and it has its whole depth
again on the areas that the commit places (R273, R286). -/
def State.commitComb (s : State) (r : Route) (old new : Dict) : State :=
  if differs old new (keysOf (at10 0x2810 r) 0x01 0x04) || (s.route r).comb.halved then s.restartComb r false else s

/-- AGC mode 0 coming in force with another range than the fixed one: the range steps to it with the first shot under the new tables
(R115; DEDUCED, assumption log 20); nothing else steps in mode 0. -/
def State.commitRange (s : State) (r : Route) : State :=
  let o := at100 0x2180 r
  let g := s.cfg r o 0x02
  if s.cfg r o 0x01 == 1 then s
  else s.modCrx r (fun c => { c with
    lowRun := 0, pendingStep := if s.num o 0x10 == g then none else some (g, (s.route r).optics.shot) })

/-- A route that stopped at its frame boundary t_c waits for its next start; the first boundary then lies no earlier than t_c + RT + guard of
the schedule it stopped under, and the frame counters advance by one across the interval (R62, R91). -/
def State.stopUntil (s : State) (r : Route) (tc : Nat) (c : Sched) : State :=
  (s.modOptics (s.gov r) (fun o => { o with skipDue := true })).modOptics r (fun o => { o with moving := true, holdUntil := tc + c.rt + c.guard })

/-- The control DAC lanes of a route take the codes that a commit brings, where no route start sets them (R30, R60, R86): lanes 0 and 1, 4, 6
and 7 their codes; the pump lane of a route that launches or ramps goes to the new code of the level it is at (Table 3.8), a higher one by
the ramp of R87 (DESIGN CHOICE, assumption log 19). -/
def State.commitLanes (s : State) (r : Route) (old : Dict) : State :=
  let s := s.setLane (if r == .a then 0 else 1) (s.r100 r 0x2130 0x01)
  let s := ((s.setLane 4 (s.cfg r 0x2030 0x01)).setLane 6 (s.cfg r 0x2030 0x02)).setLane 7 (s.cfg r 0x2030 0x03)
  let o := (s.route r).optics
  let e := match r with
    | .a => s.survey.endA
    | .b => s.survey.endB
  let oldN := dictNum old (at100 0x2130 r) 0x02
  let oldA := dictNum old (at100 0x2160 r) 0x02
  let low := match s.aprState r, o.ramp with
    | 2, _ => true
    | _, some t => t == oldA && oldA != oldN
    | 1, none => true
    | _, none => s.mode == 5 && e.ended && e.aprPhase
  let want := if low then s.aprCode r else s.normalCode r
  if s.aprState r == 3 || !(o.launching || o.start == some .ramp) || o.ramp.getD (s.pump r) == want then s else s.beginRamp r want

/-- The change a configuration makes to one launching route at its frame boundary: a change of schedule ends the
launches until t_c + RT + guard (R62); a route enabled or disabled starts or takes its safe subset; a change of the
chain resets it (R233). A route out of service, in LAUNCH_FAIL, RESTORE_ONLY or without its engine, has no launches to stop and starts when it
returns to service (R95, R100, R449), and none starts during a transition, at whose end the new mode starts it (R439). An L write that waits
is no change of the commit, whether it came before or after admission (R30). The first new frame carries CONFIG_CHANGE where the schedule, the position or the chain changes
(R62, R91, R233; assumption log 16). -/
def State.commitRoute (s : State) (r : Route) (tc : Nat) (old new : Dict) : State :=
  let rd : CfgRead := fun i j => dictNum new i j
  let ro : CfgRead := fun i j => dictNum old i j
  let q := if ro 0x2000 0x03 == 1 then Route.a else r
  let schedule := differs old new (scheduleKeys (if rd 0x2000 0x03 == 1 then Route.a else r))
  let own := q == r && !(rd 0x2000 0x03 == 1 && r == .b)
  let base := s.control.lw.foldl (fun (d : Dict) e => dictSet d e.1 e.2) old
  let chain := own && (chainKeys r).any (fun k => dictGet new k != dictGet old k && dictGet new k != dictGet base k)
  let s := s.modOptics r (fun o => { o with configChange := o.configChange || schedule || chain })
  let s := s.modRoute r (fun x => { x with oldCfg := some (x.optics.launchSeq, old) })
  let s := (((s.commitRange r).commitComb r old new).commitSlotsOf r old new).commitLanes r old
  let short := dictNum old 0x2000 0x03 != dictNum new 0x2000 0x03 && q == .b
  let able := s.sensing && !s.launchFail r && !s.engineRetired r && s.aprState r != 3 && s.power.transition.isNone
  if routeEnabled ro r && !routeEnabled rd r then (((s.stopFdc q short).endLaunches r).modOptics r (fun o => { o with moving := false })).routeSafe r
  else if !routeEnabled ro r && routeEnabled rd r then
    if able then s.startRoute r true else s
  else if schedule && able && routeEnabled rd r then
    ((s.stopFdc q short).endLaunches r).stopUntil r tc (mkSched ro s.kind q)
  else if chain then s.swapFdc r
  else if own then s.commitBank r
  else s

/-- Under a loop commissioning configuration the device runs SURVEY, READY and MAINTENANCE alone (R28): where one takes effect in SENTINEL or
SENSE, the launches of both ends stop with it, and a transition to READY follows once their returns are processed (DESIGN CHOICE,
assumption log 36: R28 does not say how the device leaves the mode). -/
def State.leaveSensing (s : State) : State :=
  if !commissioning (s.read .a) || !(s.mode == 3 || s.mode == 4) then s
  else
    let go := fun (s : State) (r : Route) => ((s.stopFdc r false).endLaunches r).modOptics r (fun o => { o with moving := false })
    let s := (go (go s .a) .b).put 0x1300 0x10 1
    { s with power := { s.power with transition := some (s.power.transition.getD ⟨2, true, true⟩) } }

/-- The whole configuration is in force: the dictionary takes it, OD 1200.03 its sequence, and what is
device-wide follows. -/
def State.finishConfig (s : State) (p : PendingConfig) : State :=
  let old := draftPart s.od
  let s := { s with od := applyValues s.od p.values, control := { s.control with pending := none } }
  let s := s.put 0x1200 0x03 p.seq
  let same := fun (st : Nat) => dictGet old (objKey (streamIdx st) 0x01) == dictGet p.values (objKey (streamIdx st) 0x01)
  let s := { s with streams := { s.streams with
    degraded := false, moved := s.streams.moved.filter (fun m => same m.1)
    returning := s.streams.returning.filter same, suspended := s.streams.suspended.filter (fun m => same m.1) } }
  let s := ((s.blankTo s.pins.blankLevel).commitLink 0).commitLink 1
  let s := s.staticAddress 0x1110
  let s := s.staticAddress 0x1111
  let s := (s.resolveLink 0).resolveLink 1
  let s := { s with rows := { s.rows with skipped := s.rows.retired.filter (fun e => e.1 == 0) } }
  let s := s.commitCores old p.values
  let s := s.commitSlots old p.values
  (s.commitTime old).reportDraft.leaveSensing

/-- The configuration takes effect on one route; when no other enabled route waits it is wholly in force (R60). -/
def State.takeOn (s : State) (r : Route) : State :=
  match s.control.pending with
  | none => s
  | some p =>
    let p' := match r with
      | .a => { p with waitA := false }
      | .b => { p with waitB := false }
    let old := draftPart s.od
    let s := s.cutCaptures r old p.values
    let s := { s with control := { s.control with pending := some p' } }
    let o := (s.route r).optics
    let s := s.commitRoute r (if o.launching then o.frameNs else s.cyc) old p.values
    if !p'.waitA && !p'.waitB then s.finishConfig p' else s

/-- Whether a route has frame boundaries to come: it is enabled in a mode that launches probes (R56). -/
def State.hasBoundaries (s : State) (r : Route) : Bool := s.sensing && s.enabled r

/-- The boundary t_c at which both routes take a configuration together (R62, R63): that of route A where it launches, of route B where route
A has none or launches nothing for the loop, else the present cycle. -/
def State.commonBoundary (s : State) : Nat :=
  let a := s.routeA.optics
  let b := s.routeB.optics
  if a.launching then a.frameNs else if b.launching && (s.loopGuard || !s.hasBoundaries .a) then b.frameNs else s.cyc

/-- The configuration takes effect on every route at once (R60 in READY and MAINTENANCE, R439). -/
def State.takeAll (s : State) : State :=
  match s.control.pending with
  | none => s
  | some p =>
    let old := draftPart s.od
    let tc := s.commonBoundary
    let s := (s.cutCaptures .a old p.values).cutCaptures .b old p.values
    let s := { s with control := { s.control with pending := some { p with waitA := false, waitB := false } } }
    let s := if p.waitA then s.commitRoute .a tc old p.values else s
    let s := if p.waitB then s.commitRoute .b tc old p.values else s
    s.finishConfig p

/-- Whether the topology of a pending configuration differs from the one in force (R63). -/
def State.topologyChanges (s : State) (p : PendingConfig) : Bool :=
  dictNum p.values 0x2000 0x03 != s.num 0x2000 0x03

/-- Whether a route that has no frame boundaries, since it is disabled, waits for a pending configuration: it takes it at the boundary
of the other (assumption log 16). -/
def State.idleWaits (s : State) (r : Route) : Bool :=
  match s.control.pending with
  | none => false
  | some p => !p.took r && !s.enabled r

/-- A pending configuration at a frame boundary of a route: it takes effect when 2 ms have passed since admission;
a change of topology, and Loop Guard with its one boundary, take both routes at the boundary of route A (R25, R60, R63). -/
def State.boundaryConfig (s : State) (r : Route) : State :=
  match s.control.pending with
  | none => s
  | some p =>
    let waits := match r with
      | .a => p.waitA
      | .b => p.waitB
    if !waits || decide (s.cyc < p.notBefore) then s
    else if s.topologyChanges p || s.loopGuard then
      match r with
      | .a => s.takeAll
      | .b => if s.hasBoundaries .a then s else s.takeAll
    else
      let s := s.takeOn r
      if s.idleWaits (otherRoute r) then s.takeOn (otherRoute r) else s

/-- A configuration that waits when a transition ends the launches of a route takes effect at that instant (R439): on the route, or, where
it takes both at one boundary, once neither launches. -/
def State.takeAtStop (s : State) (r : Route) : State :=
  match s.control.pending with
  | none => s
  | some p =>
    if s.topologyChanges p || s.loopGuard then (if s.routeA.optics.launching || s.routeB.optics.launching then s else s.takeAll)
    else
      let s := if p.took r then s else s.takeOn r
      if s.idleWaits (otherRoute r) then s.takeOn (otherRoute r) else s

/-- The route whose frame boundary an L object waits for (R7, Table 3.4): the route of a filter chain object, route A
for the spare CDAC code. -/
def liveRoute (k : Nat) : Route := if k / 256 == 0x2620 then .b else .a

/-- Applies one L write at its boundary, on top of a configuration that takes effect there (R30). -/
def State.applyLive (s : State) (e : Nat × Val) : State :=
  let s := s.setVal e.1 e.2
  let s := match s.control.pending with
    | some p => { s with control := { s.control with pending := some { p with values := dictSet p.values e.1 e.2 } } }
    | none => s
  if e.1 == objKey 0x2030 0x03 then s.setLane 7 e.2.toNat
  else if e.1 == objKey 0x2610 0x0A then s.requestBank .a e.2.toNat
  else if e.1 == objKey 0x2620 0x0A then s.requestBank .b e.2.toNat
  else s

/-- Applies the L writes that wait for a frame boundary of a route. -/
def State.boundaryLive (s : State) (r : Route) : State :=
  let go := s.control.lw.filter (fun e => liveRoute e.1 == r)
  let s := { s with control := { s.control with lw := s.control.lw.filter (fun e => liveRoute e.1 != r) } }
  go.foldl State.applyLive s

end Sys2Proof.Machine
end

