-- ==== Sys2Proof/Machine/LinkOps.lean ====
section
/-! DEFINITION. The loss and the return of a DX link as shared operations (R292, R297): the streams that move to the other
link with what they replay, those that stay, the copies of dual-routed streams, and the streams that return. -/

namespace Sys2Proof.Machine

open Sys2Proof

/-! ### What a link carries (R72) -/

/-- The limit of a link in Mb/s at its rate in force. -/
def State.linkLimit (s : State) (l : Fin 2) : Nat := if s.linkRate l == 10 then 9200 else 23000

/-- The R72 rate of a stream in the schedule of the mode, in bit/s. -/
def State.streamRate (s : State) (stream : Nat) : Frac :=
  let v := s.cfgOf .a
  Frac.sum (((streamsOf v s.kind).filter (fun p => p.stream == stream)).map (fun p => p.rate (s.num 0x2900 0x01)))

/-- Streams 0x01 to 0x0C. -/
def allStreams : List Nat := (List.range 12).map (· + 1)

/-- The rate of the streams now on a link. -/
def State.linkLoad (s : State) (l : Fin 2) : Frac :=
  Frac.sum ((allStreams.filter (fun st => (s.streamLinks st).contains l)).map s.streamRate)

/-- The streams of a list that fit a link beside a load, taken in order, with the load. -/
def State.fitting (s : State) (l : Fin 2) (load : Frac) (streams : List Nat) : List Nat :=
  (streams.foldl (fun (acc : Frac × List Nat) st =>
    let x := acc.1.add (s.streamRate st)
    if x.le (s.linkLimit l * 1000000) then (x, acc.2 ++ [st]) else acc) (load, [])).2

/-! ### Late frames in the backlog -/

/-- A frame dropped as late in the backlog is counted once, and where no copy of it is sent the next of its stream carries LATE_DROP (R39,
R77). -/
def State.countLate (s : State) (f : Frame) : State :=
  let s := if f.counted then s else (s.bump (streamIdx f.stream) 0x11 1).bump 0x2000 0x18 1
  if !f.lost then s
  else if f.route = 0 then s.addCarry .a f.stream flLate
  else if f.route = 1 then s.addCarry .b f.stream flLate
  else if f.stream = 7 || s.streams.lateDevice.contains f.stream then s
  else { s with streams := { s.streams with lateDevice := s.streams.lateDevice ++ [f.stream] } }

/-- Replaces a frame of the backlog. -/
def State.setFrame (s : State) (i : Nat) (f : Frame) : State :=
  { s with streams := { s.streams with backlog := listSet s.streams.backlog i (fun _ => f) } }

/-- The copy on a link of the frame at a place is dropped as late; the other link may still carry its own. -/
def State.dropCopy (s : State) (l : Fin 2) (place : Nat) (f : Frame) : State :=
  let other := (f.next.get (l + 1)).isSome || (f.entered.get (l + 1)).isSome
  let g := { f with next := f.next.set l none, lost := !other }
  (s.setFrame place { g with counted := true }).countLate g

/-- The copies on a link of the frames of a stream and route that wait behind the frame at a place, in the backlog and for their hand-over,
are dropped with it, each counted (R39). -/
def State.dropWaiting (s : State) (l : Fin 2) (place : Nat) (f : Frame) : State :=
  let s := (List.range s.streams.backlog.length).foldl (fun (s : State) k =>
    match s.streams.backlog[k]? with
    | none => s
    | some g => if place < k && g.stream == f.stream && g.route == f.route && (g.next.get l).isSome then s.dropCopy l k g else s) s
  if f.route < 2 then s.dropBehind (if f.route = 1 then .b else .a) f.stream else s

/-- The frame at a place of the backlog takes its part in the loss of link l: a moved one is sent again on the other link
if it waits, or entered the lost link within the replay horizon, and is not late there, where those behind it go with it (R39), unless its destination there has no ARP
entry (R298); a copy of a dual-routed stream is lost where the other link carries one; one that stays is dropped. -/
def State.loseCopy (s : State) (l : Fin 2) (moving dual : List Nat) (i : Nat) : State :=
  match s.streams.backlog[i]? with
  | none => s
  | some f =>
    let o := l + 1
    let waits := (f.next.get l).isSome
    let recent := match f.entered.get l with
      | some t => decide (s.cyc ≤ t + s.num 0x2900 0x02)
      | none => false
    let g := { f with next := f.next.set l none }
    if moving.contains f.stream then
      if (waits || recent) && !f.lost then
        if !s.arpKnown o (s.streamDest f.stream o) then (s.setFrame i g).bump (streamIdx f.stream) 0x13 1
        else if s.lateOn o f.bytes.length f.deadline then
          ((s.setFrame i { g with lost := true, counted := true }).countLate { g with lost := true }).dropWaiting l i f
        else s.setFrame i { g with next := g.next.set o (some 0), replay := true }
      else s
    else if !waits then s
    else if dual.contains f.stream && ((f.next.get o).isSome || (f.entered.get o).isSome) then s.setFrame i g
    else (s.setFrame i { g with lost := true, counted := true }).countLate { g with lost := true }

/-- A DX link that is UP is lost (R292, R297): RETRAIN, a count and a DX_LINK record; the streams on it alone move, in
order, while they fit the other link. -/
def State.dropLink (s : State) (l : Fin 2) : State :=
  if s.linkState l == 1 then
    let i := 0x1120 + l.val
    let o := l + 1
    let s := ((s.put i 0x10 2).bump i 0x14 1).issueAt 0x07 0x26 3 0 l.val 2 0
    let s := { s with streams := { s.streams with trying10 := s.streams.trying10.set l false, at10 := s.streams.at10.set l false } }
    let dual := allStreams.filter (fun st => s.num (streamIdx st) 0x01 == 2)
    let alone := allStreams.filter (fun st => s.streamLinks st == [l] && !dual.contains st)
    let moving := if s.linkState o == 1 then s.fitting o (s.linkLoad o) alone else []
    let moved := s.streams.moved.filter (fun m => !moving.contains m.1)
      ++ (moving.filter (fun st => s.num (streamIdx st) 0x01 != o.val)).map (fun st => (st, o))
    let s := { s with streams := { s.streams with
      moved := moved, returning := s.streams.returning.filter (fun st => !moving.contains st && s.num (streamIdx st) 0x01 != l.val)
      suspended := s.streams.suspended.filter (fun m => m.2 != l) ++ dual.map (fun st => (st, l)) } }
    (List.range s.streams.backlog.length).foldl (fun (s : State) k => s.loseCopy l moving dual k) s
  else s

/-- Whether a stream has a frame period, so that it returns at a frame boundary (R297). -/
def periodic (st : Nat) : Bool := (decide (1 ≤ st) && decide (st ≤ 6)) || st == 8

/-- A stream goes back to its routing on a link. -/
def State.takeBack (s : State) (st : Nat) : State :=
  { s with streams := { s.streams with
      moved := s.streams.moved.filter (fun m => m.1 != st), returning := s.streams.returning.filter (fun x => x != st)
      suspended := s.streams.suspended.filter (fun m => !(m.1 == st && s.linkState m.2 == 1)) } }

/-- A link that is UP again takes back the streams routed to it that fit: those with a frame period at their next frame
boundary, the others at once (R297). -/
def State.returnStreams (s : State) (l : Fin 2) : State :=
  let due := allStreams.filter (fun st =>
    s.streams.moved.any (fun m => m.1 == st && m.2 != l) || s.streams.suspended.contains (st, l))
  let fit := s.fitting l (s.linkLoad l) due
  let s := { s with streams := { s.streams with
    returning := s.streams.returning.filter (fun x => !fit.contains x) ++ fit.filter periodic } }
  (fit.filter (fun st => !periodic st)).foldl State.takeBack s

/-- The route frames since the first of a stream on a route: of the filter chain in force (R233), of the Raman block and the quasi-static
frame in the making (R194, R202), of the route start, or, while it sends none, its silent frames. -/
def State.streamFrames (s : State) (r : Route) (st : Nat) : Nat :=
  let q := s.gov r
  let o := (s.route q).optics
  let t := (s.route q).thermal
  let since := fun (ns : Nat) => (o.frameNs - ns) / Nat.max (s.sched q).frame 1
  if !s.chainLaunches q then (s.route r).optics.silent
  else match st with
    | 1 | 2 | 3 => o.frames - (((s.route q).fdc.cur).map (·.base)).getD 0
    | 4 => since t.qNs
    | 5 | 6 => since t.blockNs
    | _ => o.frames

/-- Whether a boundary of a route ends a frame of a stream with a frame period (R297). -/
def State.streamBoundary (s : State) (r : Route) (st : Nat) : Bool :=
  (decide (2 < st) || st == strainStream r) && s.streamFrames r st % Nat.max (s.streamMultiple r st) 1 == 0

/-- The streams whose return waits for their own frame boundary and have it at this boundary of a route return at it. -/
def State.boundaryStreams (s : State) (r : Route) : State :=
  (s.streams.returning.filter (s.streamBoundary r)).foldl State.takeBack s

end Sys2Proof.Machine
end

