-- ==== Sys2Proof/Machine/ModeOps.lean ====
section
/-! DEFINITION. Modes, faults and resets as shared operations: the latch of OD 1700.10 and the entry into SAFE
(R422, R462), mode transitions (R438 to R441), HIBERNATE (R442), what a reset keeps (R435, Table 16.13), authority
(R459 to R461) and the steps of bring-up (R436, Table 16.8). -/

namespace Sys2Proof.Machine

open Sys2Proof

/-! ### Faults and SAFE -/

/-- A latch of SLICES or MEMORY ends only after its unit has passed a BIST since (R463). -/
def forgetPass (bits : List Nat) (passed : Nat) : Nat :=
  let p := if bits.contains 6 then setBit passed 0 false else passed
  if bits.contains 7 then setBit (setBit p 8 false) 9 false else p

/-- Latches bits of OD 1700.10 (Table 17.6). -/
def State.latch (s : State) (bits : List Nat) : State :=
  let s := bits.foldl (fun s b => s.putBit 0x1700 0x10 b true) s
  { s with integrity := { s.integrity with bistPassed := forgetPass bits s.integrity.bistPassed } }

/-- Sets or clears a bit of the clock status, OD 1500.03 (Table 16.12). -/
def State.clk (s : State) (b : Nat) (v : Bool) : State := s.putBit 0x1500 0x03 b v

/-- Gates every core; invocations in progress end without release, a load that waits for one follows, and OD 27c0.20 reads gated
(R265, R266, R268). -/
def State.gateCores (s : State) : State :=
  (List.finRange 8).foldl (fun (s : State) (c : Fin 8) =>
    let x := s.cores.get c
    let s := (s.modCore c (fun x => { x with run := .gated })).put (coreIdx c) 0x20 (s.num (coreIdx c) 0x20 / 8 * 8)
    if x.loadPending then s.loadCore c else s) s

/-- Ends the launches of both routes and whatever depends on them. -/
def State.stopSensing (s : State) : State := ((s.dropRoute .a).dropRoute .b).surveyFail 1

/-- Ends a BIST that leaves MAINTENANCE: the running unit reports INCOMPLETE (R456). -/
def State.endBist (s : State) : State :=
  if s.num 0x1700 0x21 == 1 then
    let s := match s.integrity.bistLeft with
      | b :: _ => s.put 0x1700 (0x30 + b) 3
      | [] => s
    { s.put 0x1700 0x21 2 with integrity := { s.integrity with bistLeft := [], bistMask := 0 } }
  else s

/-- The power islands of Table 16.6. -/
inductive Island where
  | alwaysOn | control | engines | cores | stores | crx | drx | analogue | serdes | dram
  deriving DecidableEq, Repr

/-- How an island is switched: off, on, by the rules of the mode, for the BIST, or its PLL alone. -/
inductive IslandPower where
  | off | on | auto | bist | pllOnly
  deriving DecidableEq, Repr

/-- Table 16.6. -/
def islandPower (mode : Nat) : Island → IslandPower
  | .alwaysOn => .on
  | .engines => [.off, .bist, .off, .auto, .auto, .auto, .on, .off].getD mode .off
  | .cores => [.off, .bist, .off, .off, .auto, .off, .on, .off].getD mode .off
  | .crx => [.off, .on, .pllOnly, .auto, .auto, .auto, .on, .pllOnly].getD mode .off
  | .drx => [.off, .bist, .off, .off, .auto, .off, .on, .off].getD mode .off
  | _ => if mode = 0 then .off else .on

/-- What an island loses that the mode switches off (R431): the launches and samples that the route engines, slices and chains hold, and the
DRX window in progress. The cores keep registers, memories and queues (R266); HIBERNATE keeps what a cold reset keeps. -/
def State.switchIslands (s : State) (m : Nat) : State :=
  let go := fun (s : State) (r : Route) =>
    let s := if islandPower m .engines == .off then
        s.modRoute r (fun x => { x with fdc := Fdc.reset, ready := [], ray := { x.ray with handoff := none, updates := [] } })
      else s
    if islandPower m .drx == .off then s.modThermal r (fun t => { t with pulse := none }) else s
  let s := if islandPower m .engines == .off then s else (s.useBlock (.engine .a)).useBlock (.engine .b)
  go (go s .a) .b

/-- Sets the mode code; an exit from SENSE ends the captures in progress (R283), and the islands are switched as the mode says (R431). -/
def State.setMode (s : State) (m : Nat) : State :=
  ((if s.mode == 4 && m != 4 then s.endCaptures (fun _ => true) else s).switchIslands m).put 0x1300 0x02 m

/-- A route sends no more frames: its chain and the frames waiting for their hand-over are given up. -/
def State.clearFrames (s : State) (r : Route) : State := s.modRoute r (fun x => { x with fdc := Fdc.reset, ready := [] })

/-- In SAFE no frame is sent except on streams 0x0A and 0x0B (R462): what waits of the others is given up. -/
def State.safeBacklog (s : State) : State :=
  { s with streams := { s.streams with backlog := s.streams.backlog.map (fun (f : Frame) =>
      if f.stream == 10 || f.stream == 11 then f else { f with next := Vector.replicate 2 none }) } }

/-- A channel's training patterns are rewritten where they were found uncorrectable, before it trains (R448). -/
def State.rewritePatterns (s : State) (ch : Fin 2) : State := s.modDram ch (fun d => { d with patternsBad := false })

/-- A retraining that is due starts; the channels never retrain together, and channel 0 goes first (R383). -/
def State.startRetrain (s : State) : State :=
  let due := fun (ch : Fin 2) => (s.dram.get ch).retrainDue && s.chState ch == 2
  if s.chState 0 == 3 || s.chState 1 == 3 || !s.clkBit 7 then s
  else if due 0 then ((s.rewritePatterns 0).modDram 0 (fun d => { d with retrainDue := false })).put 0x1610 0x10 3
  else if due 1 then ((s.rewritePatterns 1).modDram 1 (fun d => { d with retrainDue := false })).put 0x1611 0x10 3
  else s

/-- Whether no route launches. -/
def State.noLaunch (s : State) : Bool := !s.routeA.optics.launching && !s.routeB.optics.launching

/-- Whether the area of a slot lies in a channel (R286). -/
def State.slotOn (s : State) (ch : Fin 2) (k : Fin 8) : Bool :=
  if s.geo 0 == 3 && s.chState (ch + 1) != 4 then k.val % 2 == ch.val else true

/-- The tracker records of a route after a retirement: as at a route start, and every position re-bases (R210). -/
def rebaseTracks (t : Thermal) : Thermal :=
  { t with
    primed := [], tc0 := [], tracks := t.tracks.map (fun e => (e.1, { e.2 with rebase := true }))
    coil := t.coil.map (fun e => (e.1, { e.2 with rebase := true })) }

/-- A slot loses its area: its captures are discarded and counted, with a record (R286). -/
def State.loseSlot (s : State) (k : Fin 8) : State :=
  let x := s.capture.get k
  if s.num (capIdx k) 0x01 == 0 then s
  else
    let n := b2n x.copying.isSome + b2n x.held.isSome
    let s := (s.setSlot k { CapSlot.reset with seq := x.seq }).slotState k 4
    (s.bump 0x2800 0x11 n).issueOpenAt 0x03 (0x30 + k.val) (s.num (capIdx k) 0x02) 0

/-- The channel that holds a copy of the Keepers' control data: its own while both serve, else the one that serves
(R448). -/
def State.copyChannel (s : State) (i : Fin 2) : Fin 2 := if s.chServing i then i else otherCh i

/-- A copy of the Keepers' control data is rewritten from the other copy, by the Keeper that holds authority (R448). -/
def State.rewriteCopy (s : State) (i : Fin 2) : State :=
  if s.power.dead then s
  else { s with arbiter := { s.arbiter with data := s.arbiter.data.set i (s.arbiter.data.get (otherCh i)) } }

/-- The log record that reads as 32 zero bytes (R447). -/
def blankRecord : EventRec :=
  { time := 0, type := 0, source := 0, route := 0, flags := 0, position := 0, value := 0, aux := 0, cmask := 0, seq := 0 }

/-- A channel is retired: the interleaved part is re-created on the survivor (R384). -/
def State.retireChannel (s : State) (ch : Fin 2) : State :=
  let lost := (List.finRange 8).filter (s.slotOn ch)
  let s := (s.put (chIdx ch) 0x10 4).modDram ch (fun _ => Dram.reset)
  let s := s.issue 0x29 0x25 ch.val 4
  let s := lost.foldl State.loseSlot s
  let s := (s.restartComb .a true).restartComb .b true
  let s := (s.modThermal .a rebaseTracks).modThermal .b rebaseTracks
  let s := s.rewriteCopy ch
  { s with streams := { s.streams with degraded := true } }

/-- The retirements whose backlog copy is complete take effect: at a frame boundary, or where no route launches. -/
def State.retireDue (s : State) : State :=
  let go := fun (s : State) (ch : Fin 2) => if (s.dram.get ch).retiring && (s.dram.get ch).copied then s.retireChannel ch else s
  go (go s 0) 1

/-- A retirement and a retraining that are due take effect at once when no route launches (R383, R384). -/
def State.idleRetrain (s : State) : State := if s.noLaunch then s.retireDue.startRetrain else s

/-- A fault takes the device to SAFE (R462): its causes are latched, the safe request is asserted, launches and a
transition end. In BRING-UP the entry follows at the end of bring-up; in HIBERNATE nothing changes. -/
def State.enterSafe (s : State) (bits : List Nat) : State :=
  if s.mode == 0 then s
  else if s.mode == 1 then { (s.latch bits).assertSafe with power := { s.power with toSafe := true, safeRequest := true } }.driveFault
  else
    let s := ((((s.latch bits).endBist.stopSensing.gateCores).clearFrames .a).clearFrames .b).assertSafe
    let s := { s with power := { s.power with transition := none, fromSentinel := false, awaited := none } }
    let s := s.safeBacklog
    ((s.setMode 7).put 0x1300 0x10 0).driveFault.idleRetrain

/-- Enters SAFE with NO_ROUTE when no enabled route remains in service (R95, R449). -/
def State.safeIfNoRoute (s : State) : State :=
  if s.sensing && !s.someRoute then s.enterSafe [8] else s

/-! ### Authority (R459 to R461) -/

/-- The state of a Keeper at the arbiter. -/
def Arbiter.stateOf (a : Arbiter) : Keeper → KeeperState
  | .a => a.stateA
  | .b => a.stateB

/-- Sets the state of a Keeper. -/
def Arbiter.setState (a : Arbiter) (k : Keeper) (x : KeeperState) : Arbiter :=
  match k with
  | .a => { a with stateA := x, missA := 0 }
  | .b => { a with stateB := x, missB := 0 }

/-- The other Keeper. -/
def otherKeeper : Keeper → Keeper
  | .a => .b
  | .b => .a

/-- The number of a Keeper in records. -/
def keeperNum : Keeper → Nat
  | .a => 0
  | .b => 1

/-- A transfer of authority abandons the running admissions, whose commit is not answered, and restarts an image write (R338);
the new Keeper goes on with the admission of bring-up (R337). -/
def State.transferControl (s : State) : State :=
  { s with control := { s.control with admission := s.control.admission.filter Admission.isBoot } }.reportDraft

/-- Gives authority to a Keeper: E increments on a change, with an AUTHORITY record. -/
def State.grant (s : State) (k : Keeper) : State :=
  let a := s.arbiter
  let changed := a.holder != some k
  let e := if changed then (a.epoch + 1) % 2 ^ 32 else a.epoch
  let s := { s with arbiter := { a.setState k .active with holder := some k, epoch := e } }
  if changed then s.issue 0x25 0x27 (keeperNum k) e else s

/-- A Keeper restarts from its boot ROM, as after a local reset of the control domain (R427): what it had in hand is gone, and the record
of authority stands. -/
def State.restartKeepers (s : State) : State :=
  let c := s.control
  ({ s with
    control := { c with
      sessions := [], challenges := [], subs := [], cache := [], sdo := none, holder := none, draft := []
      admission := c.admission.filter Admission.isBoot, writing := none }
    arbiter := { s.arbiter with beatA := false, beatB := false, missA := 0, missB := 0 } } : State).reportDraft.put 0x1130 0x20 0

/-- R33: neither Keeper can hold authority. The safe outputs are held, launches end and a route start under way with them, FAULT_N is
asserted and every DX transmission stops. What a Keeper had in hand, an admission or an image write, goes no further (R31). -/
def State.noKeeper (s : State) : State :=
  let s := { s.stopSensing with control := { s.control with admission := [], writing := none } }
  { s.assertSafe with power := { s.power with dead := true, safeRequest := true }, arbiter := { s.arbiter with holder := none } }.driveFault

/-- A Keeper enters STOPPED: when it held authority, a Keeper in STANDBY takes it, and with none R33 applies. -/
def State.stopKeeper (s : State) (k : Keeper) : State :=
  let held := s.arbiter.holder == some k
  let s := { s with arbiter := s.arbiter.setState k .stopped }
  if held then
    if s.arbiter.stateOf (otherKeeper k) == .standby then
      (s.transferControl.grant (otherKeeper k)).bump 0x1700 0x62 1
    else s.noKeeper
  else s

/-- Both Keepers that are not retired claim authority at the end of step 2: the recorded holder wins, else Keeper A
(R461). -/
def State.claim (s : State) : State :=
  let a := s.arbiter
  let okA := a.stateA != .retired
  let okB := a.stateB != .retired
  let s := { s with arbiter := { a with
    stateA := if okA then .standby else .retired, stateB := if okB then .standby else .retired, missA := 0, missB := 0 } }
  let s := if !okA || !okB then s.latch [15] else s
  if okA && (a.holder != some .b || !okB) then (s.grant .a).releaseHeld
  else if okB then (s.grant .b).releaseHeld
  else s.noKeeper

/-! ### Resets (R435, Table 16.13) -/

/-- The dictionary entries that a reset keeps: always-on source, alarm, the always-on part of the clock status, the
DRAM channels retired (R384), and a retired slice with the fixed mapping it left, since it returns only by a passing BIST
in MAINTENANCE or a power cycle (R162). -/
def keptObjects (s : State) (cause : Nat) : Dict :=
  let d : Dict := State.reset.od
  let d := dictSet d (objKey 0x1500 0x01) (s.val (objKey 0x1500 0x01))
  let d := dictSet d (objKey 0x1300 0x07) (s.val (objKey 0x1300 0x07))
  let d := dictSet d (objKey 0x1300 0x12) (s.val (objKey 0x1300 0x12))
  let d := dictSet d (objKey 0x1500 0x03) (.num ((s.num 0x1500 0x03) &&& 0x0812 ||| 2))
  let d := [0x1610, 0x1611].foldl (fun (d : Dict) i => if s.num i 0x10 == 4 then dictSet d (objKey i 0x10) (.num 4) else d) d
  let out := s.num 0x2400 0x03 % 2 ^ 17
  let d := if out = 0 then d else
    dictSet (dictSet (dictSet d (objKey 0x2400 0x02) (.num 0xFF)) (objKey 0x2400 0x03) (.num (2 ^ 31 + out)))
      (objKey 0x2400 0x07) (s.val (objKey 0x2400 0x07))
  dictSet d (objKey 0x1300 0x11) (.num cause)

/-- Whether image a is newer than b (R337). -/
def newer (a b : Nat) : Bool := decide (1 ≤ (a + 2 ^ 32 - b) % 2 ^ 32 ∧ (a + 2 ^ 32 - b) % 2 ^ 32 < 2 ^ 31)

/-- The newest stored image with its slot, or the defaults (R337). -/
def Control.newestImage (c : Control) : Option Bool × Dict :=
  match c.slotA, c.slotB with
  | some a, some b => if newer b.seq a.seq then (some true, b.values) else (some false, a.values)
  | some a, none => (some false, a.values)
  | none, some b => (some true, b.values)
  | none, none => (none, [])

/-- The values of OD 1600.01 to OD 1600.05 that a reset takes (R392). -/
def Control.nextGeometry (c : Control) : List Nat := (List.range 5).map (fun i => dictNum c.newestImage.2 0x1600 (1 + i))

/-- Whether a unit is a row: row tests run one at a time, in order of detection (R452). -/
def isRowTest : TestUnit → Bool
  | .row _ _ _ => true
  | .dramRow _ _ => true
  | _ => false

/-- The rows, counted over the data space of a channel, that the test of a row leaves with test patterns when a reset cuts it short: the row
and its neighbours in the same rank and bank (R372, R452). -/
def testedRows (rowsPerRank row : Nat) : List Nat :=
  let bank := row % 8 ^^^ row / 8 % 8
  let n := row / 8
  let at' := fun (m : Nat) => m * 8 + (bank ^^^ m % 8)
  [row] ++ (if n % rowsPerRank = 0 then [] else [at' (n - 1)]) ++ (if (n + 1) % rowsPerRank = 0 then [] else [at' (n + 1)])

/-- The captures held in STOPPED whose area overlaps the rows of a DRAM row test that a warm reset cuts short: their CRC fails and they are
discarded under R287 (R452). -/
def spoiltSlots (s : State) : List (Fin 8) :=
  match s.integrity.tests.find? (fun t => isRowTest t.unit) with
  | some ⟨.dramRow ch row, _⟩ =>
    let rows := testedRows (Nat.max (2 ^ (30 + s.geo 2) / (Nat.max (s.geo 3) 1 * 8 * 4096)) 1) row
    (List.finRange 8).filter (fun k => s.slotOn ch k && match (s.capture.get k).held with
      | some h => rows.any (fun r => decide (h.addr < (r + 1) * 3968) && decide (r * 3968 < h.addr + h.area))
      | none => false)
  | _ => []

/-- A capture slot over a warm reset: a capture held in STOPPED is kept to be judged at step 9 (R287). -/
def keptSlot (s : State) (k : Fin 8) : CapSlot :=
  if s.num (capIdx k) 0x20 == 3 && !(spoiltSlots s).contains k then { CapSlot.reset with held := (s.capture.get k).held } else CapSlot.reset

/-- The captures that a warm reset discards: in progress, held in another state than STOPPED, or overwritten by a row test. -/
def lostSlots (s : State) : Nat :=
  ((List.finRange 8).filter (fun k =>
    (s.capture.get k).copying.isSome || ((s.capture.get k).held.isSome && (s.num (capIdx k) 0x20 != 3 || (spoiltSlots s).contains k)))).length

/-- What the always-on domain keeps of a channel over a warm reset: its training values (R388). -/
def keptDram (d : Dram) : Dram := { Dram.reset with training := d.training }

/-- A channel that was in service before a warm reset is put into self-refresh (R388). -/
def State.refreshSelf (t before : State) (ch : Fin 2) : State :=
  if before.chState ch == 2 || before.chState ch == 3 then
    (t.modDram ch (fun d => { d with selfRefresh := true })).emit (.selfRefresh ch true)
  else t

/-- A channel leaves self-refresh on the training values kept, before it retrains (R388). -/
def State.leaveSelfRefresh (s : State) (ch : Fin 2) : State :=
  if (s.dram.get ch).selfRefresh then (s.modDram ch (fun d => { d with selfRefresh := false })).emit (.selfRefresh ch false) else s

/-- A reset (R435): the state after reset with what the kind keeps. Cold: always-on domain, real-time counter,
authority, key store, stored images. Warm: in addition the DRAM content outside the reserve, of which the model
holds captures and the event log; a changed memory geometry keeps nothing in DRAM (R392). The queue, the free values and what has left the ports stay. -/
def State.resetTo (s : State) (warm : Bool) (cause : Nat) : State :=
  let c := s.control
  let z := State.reset
  let t : State := { z with
    pending := s.pending, free := s.free, out := s.out, od := keptObjects s cause,
    control := { z.control with
      keyO := c.keyO, keyP := c.keyP, keyE := c.keyE, signKey := c.signKey, slotA := c.slotA, slotB := c.slotB,
      fwA := c.fwA, fwB := c.fwB, fwRunning := c.fwRunning, fwActivate := c.fwActivate, geometry := c.nextGeometry },
    power := { z.power with
      vaon := s.power.vaon, supplyOk := s.power.supplyOk, resetLow := s.power.resetLow, warm := warm,
      rtcSec := s.power.rtcSec, rtcSub := s.power.rtcSub, bringUpNs := s.time.cycles },
    arbiter := { s.arbiter with
      beatA := false, beatB := false, missA := 0, missB := 0, data := if warm && c.nextGeometry == c.geometry then s.arbiter.data else z.arbiter.data },
    integrity := { z.integrity with otpLocked := s.integrity.otpLocked },
    slices := { z.slices with sinceNs := s.time.cycles }
    streams := { z.streams with held := s.streams.held }
    time := { z.time with ns := s.power.rtcSec * 1000000000, cycles := s.time.cycles } }
  let t := if s.integrity.otpLocked then t.put 0x1700 0x51 2 else t
  if warm && c.nextGeometry == c.geometry then
    let t := { t with
      streams := { t.streams with log := s.streams.log }, capture := Vector.ofFn (fun k => keptSlot s k), dram := s.dram.map keptDram }
    let t := (t.refreshSelf s 0).refreshSelf s 1
    let t := t.bump 0x2800 0x11 (lostSlots s)
    (t.put 0x5000 0x01 s.streams.log.length).put 0x5000 0x02 ((s.streams.log.head?.map (·.seq)).getD 0)
  else if warm then t.bump 0x2800 0x11 ((List.finRange 8).filter (fun k =>
    (s.capture.get k).copying.isSome || (s.capture.get k).held.isSome)).length
  else t

/-! ### Entry to HIBERNATE and wake (R442) -/

/-- A wake starts a cold bring-up with its cause in OD 1300.12. -/
def State.wakeUp (s : State) (cause : Nat) : State :=
  let s := (s.resetTo false 4).put 0x1300 0x12 cause
  { s with power := { s.power with fromWake := true } }

/-- HIBERNATE (R442): sessions end, links go down, the real-time counter takes the seconds of device time, XT1 and every
island but the always-on domain are off with all they hold (R431), and PWR_EN falls (R472). What a cold reset keeps stays, with the wake
sources and the polarity that the always-on domain watches. A wake kept during entry follows at once. -/
def State.hibernate (s : State) : State :=
  let kept := s.power.wakeKept
  let s := { s with power := { s.power with rtcSec := s.time.ns / 1000000000, rtcSub := 0 } }
  let t := s.resetTo false (s.num 0x1300 0x11)
  let t := [0x05, 0x06].foldl (fun (t : State) x => t.setVal (objKey 0x1300 x) (s.val (objKey 0x1300 x))) t
  let t := { t with
    power := { t.power with bringUp := none }
    pins := { t.pins with pwrEn := false } }
  let t := ((t.assertSafe.put 0x1300 0x02 0).put 0x1300 0x10 0).driveFault
  if kept != 0 then t.wakeUp kept else t

/-! ### Transitions (R439) -/

/-- The running slot has reached READY: its run of failures ends (R340). -/
def State.firmwareReached (s : State) : State :=
  let c := s.control
  { s with control := if c.fwRunning then { c with fwB := { c.fwB with fails := 0 } }
                      else { c with fwA := { c.fwA with fails := 0 } } }

/-- Steps 2 and 3 of a transition: the mode code, then the entry actions of the new mode. Where the configuration that takes effect is a loop
commissioning configuration, READY stands in the place of SENTINEL and SENSE (R28; DESIGN CHOICE, assumption log 36). -/
def State.completeTransition (s : State) (target : Nat) : State :=
  let s := if s.mode == 5 && target != 5 then s.surveyFail 1 else s
  let s := if s.mode == 6 && target != 6 then s.endBist else s
  let s := (s.takeAll.boundaryLive .a).boundaryLive .b
  let s := { s with power := { s.power with transition := none } }
  let target := if (target == 3 || target == 4) && commissioning (s.read .a) then 2 else target
  if target == 0 then s.hibernate
  else
    let s := (s.setMode target).put 0x1300 0x10 0
    let s := if target == 4 then s else s.gateCores
    if target == 3 || target == 4 then s.startRoutes.driveFault
    else if target == 5 then
      ({ s with survey := { s.survey with phase := 3, done := false } }).startRoutes.driveFault
    else
      let s := (s.stopSensing.assertSafe).driveFault.idleRetrain
      if target == 2 then s.firmwareReached else s

/-- Whether a route still launches, has launches in flight or in the slices, or frames to be sent (R439). -/
def State.busyRoute (s : State) (r : Route) : Bool :=
  let o := (s.route r).optics
  o.launching || !o.inFlight.isEmpty || (s.route r).ray.handoff.isSome || !(s.route r).ready.isEmpty

/-- A transition completes once the launches of every route have ended, their returns are processed and the frames they complete are sent
(R439). -/
def State.finishIfQuiet (s : State) : State :=
  match s.power.transition with
  | none => s
  | some t =>
    if (t.waitA && s.busyRoute .a) || (t.waitB && s.busyRoute .b) then s else s.completeTransition t.target

/-- A route at the beginning of a transition: one that launches stops at its next frame boundary; a route start or a switch movement under
way has no launches to end and is given up (DESIGN CHOICE, assumption log 36: R439 names launches alone). -/
def Optics.leave (o : Optics) : Optics :=
  { o with stopAt := o.launching, start := if o.launching then o.start else none, moving := o.moving && o.launching }

/-- Begins a transition: OD 1300.10 reads 1; leaving a mode that launches, each route runs to its next frame
boundary. -/
def State.beginTransition (s : State) (target : Nat) : State :=
  let s := s.put 0x1300 0x10 1
  let wait := fun r => s.sensing && s.busyRoute r
  let s := { s with power := { s.power with transition := some ⟨target, wait .a, wait .b⟩, fromSentinel := false, awaited := none } }
  let s := (s.modOptics .a Optics.leave).modOptics .b Optics.leave
  s.finishIfQuiet

/-- A transition that awaits a frame boundary begins: to SENSE at the first boundary of a SENTINEL route (R440), back to SENTINEL at one of
route A, or of route B where A is not enabled (R441). -/
def State.beginAwaited (s : State) (r : Route) : State :=
  if s.power.transition.isSome then s
  else if s.mode == 3 && s.power.awaited == some 4 then
    let s := s.beginTransition 4
    { s with power := { s.power with fromSentinel := true } }
  else if s.mode == 4 && s.power.awaited == some 3 && r == (if s.enabled .a then .a else .b) then s.beginTransition 3
  else s

/-! ### Bring-up (Table 16.8) -/

/-- The clock domains as bring-up leaves them: on their PLL. -/
def State.domainsOnPll (s : State) : State :=
  let d : Domain := { Domain.reset with onPll := true }
  { s with power := { s.power with domains := Vector.replicate 4 d } }

/-- A slot that failed to reach READY on 3 consecutive resets is marked invalid (R340). -/
def judgeSlot (f : Firmware) : Firmware := if 3 ≤ f.fails then { f with valid := false, fails := 0 } else f

/-- The firmware slot chosen at reset (R340): a valid slot; of two, the one not running when OD 1210.11 has marked it, the
newer otherwise. Its run of failures counts until READY is reached; a slot marked invalid has its record. -/
def State.chooseFirmware (s : State) : State :=
  let c := s.control
  let fa := judgeSlot c.fwA
  let fb := judgeSlot c.fwB
  let bad := (c.fwA.valid && !fa.valid) || (c.fwB.valid && !fb.valid)
  let b := if !fa.valid then fb.valid else if !fb.valid then false
    else if c.fwActivate then !c.fwRunning else newer fb.seq fa.seq
  let c := if b then { c with fwA := fa, fwB := { fb with fails := fb.fails + 1 } }
    else { c with fwA := { fa with fails := fa.fails + 1 }, fwB := fb }
  let s := { s with control := { c with fwRunning := b, fwActivate := false } }
  if bad then s.issueOpen 0x3C 0x27 0 else s

/-- Step 9: the newest stored image, or the defaults, is passed through admission (R337). -/
def State.bootAdmission (s : State) : State :=
  let c := s.control
  let pick := c.newestImage
  { s with control := { c with admission := [.boot pick.1 pick.2] },
           power := { s.power with bringUp := some 9 } }

/-- Step 7: the channels fitted and not retired are to be trained; with none, bring-up goes on to SAFE. -/
def State.beginTraining (s : State) : State :=
  let go := fun (s : State) (ch : Fin 2) => if bit (s.geo 0) ch.val && s.chState ch != 4 then ((s.leaveSelfRefresh ch).rewritePatterns ch).put (0x1610 + ch.val) 0x10 1 else s
  let s := go (go s 0) 1
  let s := { s with power := { s.power with bringUp := some 7 } }
  if s.chState 0 == 1 || s.chState 1 == 1 then s
  else { s.latch [7] with power := { s.power with toSafe := true } }.bootAdmission

/-- The start mode (R437): OD 1300.03 after a reset, OD 1300.04 after a wake; a mode that launches needs an enabled
route and no loop commissioning configuration, else READY with a record. -/
def State.startMode (s : State) : Nat × Bool :=
  let m := if s.power.fromWake then s.num 0x1300 0x04 else s.num 0x1300 0x03
  let rd := s.read .a
  if (m == 3 || m == 4) && ((enabledRoutes rd).isEmpty || commissioning rd) then (2, true) else (m, false)

/-- The objects of chapter 15 of a dictionary. -/
def chapter15 (d : Dict) : Dict := d.filter (fun e => decide (0x1800 ≤ e.1 / 256) && decide (e.1 / 256 ≤ 0x1850))

/-- The converters start at the end of bring-up with the excitation currents in force (R401, R407). -/
def State.startHka (s : State) : State :=
  let c := chapter15 s.base
  let z := Housekeeping.reset
  { s with hka := { z with
    hka0 := { z.hka0 with cfg := c, retired := s.hka.hka0.retired }
    hka1 := { z.hka1 with cfg := c, retired := s.hka.hka1.retired }
    iexc := (s.num 0x1840 0x01, s.num 0x1840 0x02) } }

/-- Whether a physical slice is retired. -/
def State.sliceRetired (s : State) (f : Fin 17) : Bool := bit (s.num 0x2400 0x03) f.val

/-- The number of retired slices. -/
def State.retiredSlices (s : State) : Nat := ((List.finRange 17).filter s.sliceRetired).length

/-- The end of bring-up (step 11): one CAN boot message, which the Keeper in authority alone sends (R333), then the start mode, or SAFE; two slices retired before the reset
leave it in SAFE (R453). -/
def State.endBringUp (s : State) : State :=
  let s := if 2 ≤ s.retiredSlices then s.latch [6] else s
  let safe := s.power.toSafe || decide (2 ≤ s.retiredSlices)
  let t := s.power.bringUpUs + (s.cyc - s.power.bringUpNs) / 1000
  let s := s.put 0x1300 0x16 (t % 2 ^ 32)
  let s := if s.keeperServes then s.canSend (0x700 + s.num 0x1140 0x01) [0] else s
  let s := { s with power := { s.power with bringUp := none, toSafe := false }, control := { s.control with bootMsg := true } }.startHka
  if safe then
    let s := ((s.assertSafe.setMode 7).put 0x1300 0x10 0)
    s.driveFault
  else
    let m := s.startMode
    let s := if m.2 then s.issueOpen 0x3D 0x27 0 else s
    (s.firmwareReached.setMode 2).completeTransition m.1

end Sys2Proof.Machine
end

