-- ==== Sys2Proof/Machine/Power.lean ====
section
/-! DEFINITION. Clocks, power and modes (16_clocks_power_modes.md): mode requests, clock monitors and switches,
gates, the AVS loop, supplies, resets, bring-up, HIBERNATE and the real-time counter; and the effects of the writes
that act on them, which the write path of either transport calls. -/

namespace Sys2Proof.Machine

open Sys2Proof

/-- The outcome type of a meaning. -/
abbrev Out := Host.Outcome State Fault Refusal

/-- A command is over: the machine goes on, its outputs as their causes have them. -/
def State.next (s : State) : Out := .next s.settle

/-- What a write is answered: a status of Table 12.4, the state, and what follows after the answer has left. -/
structure Reply where
  status : Nat
  state : State
  post : State → State := id

/-! ### Mode requests (R438) -/

/-- The conditions of Table 16.9 for a request from the current mode. -/
def State.modeAllowed (s : State) (n : Nat) : Bool :=
  let rd := s.read .a
  let anyRoute := !(enabledRoutes rd).isEmpty
  let noComm := !commissioning rd
  match s.mode, n with
  | 2, 0 => s.num 0x1300 0x05 != 0
  | 2, 3 => anyRoute && noComm
  | 2, 4 => anyRoute && noComm
  | 2, 5 => anyRoute
  | 2, 6 => true
  | 3, 2 => true
  | 3, 4 => noComm
  | 4, 2 => true
  | 4, 3 => noComm
  | 4, 5 => true
  | 5, 2 => true
  | 5, 4 => noComm
  | 6, 2 => field (s.num 0x1700 0x10) 8 0 == 0
  | 7, 2 => field (s.num 0x1700 0x10) 8 0 == 0
  | 7, 6 => true
  | _, _ => false

/-- A write of a mode to OD 1300.01 by a client of a level: 5 and 6 need level E; the current mode is answered OK
without effect; a transition in progress BUSY; a transition not permitted WRONG_MODE (R438). -/
def modeRequest (n level : Nat) (s : State) : Reply :=
  if (n == 5 || n == 6) && level < 2 then ⟨3, s, id⟩
  else if s.power.transition.isSome then ⟨1, s, id⟩
  else if n == s.mode then ⟨0, s, id⟩
  else if s.modeAllowed n then ⟨0, s.put 0x1300 0x01 n, fun t => t.beginTransition n⟩
  else ⟨9, s, id⟩

/-- A write of OD 1300.09 (R435): the answer leaves, then the reset follows; a warm reset keeps DRAM. -/
def resetRequest (warm : Bool) (s : State) : Reply :=
  ⟨0, s, fun t => t.resetTo warm (if warm then 3 else 2)⟩

/-- SENTINEL_RETURN (R441): OD 1300.08 seconds without a THRESHOLD record in a SENSE entered by R440; the transition begins at the next frame
boundary. -/
def doSentinelReturn (s : State) : State :=
  if s.mode == 4 && s.power.fromSentinel && s.on 0x1300 0x08 && s.power.transition.isNone then
    { s with power := { s.power with awaited := some 3 } }
  else s

def execSentinelReturn (s : State) : Out := State.next (doSentinelReturn s)

/-! ### Clock domains (R424 to R428) -/

/-- A domain. -/
def State.dom (s : State) (d : Fin 4) : Domain := s.power.domains.get d

/-- Updates a domain. -/
def State.modDom (s : State) (d : Fin 4) (f : Domain → Domain) : State :=
  { s with power := { s.power with domains := s.power.domains.set d (f (s.power.domains.get d)) } }

/-- The ready flag of a domain's source: PLLS_LOCK, or FRC_READY. -/
def State.sourceReady (s : State) (pll : Bool) : Bool := if pll then s.clkBit 6 else s.clkBit 2

/-- Begins a switch: it waits for CLOCK_SWITCH_COMPLETE or CLOCK_SWITCH_TIMEOUT. -/
def State.beginSwitch (s : State) (d : Fin 4) (pll : Bool) : State :=
  s.modDom d (fun x => { x with target := some pll, refused := none, repeats := 0 })

/-- Whether the domain is under READY-CHECK (OD 1510.01 to OD 1510.04). -/
def State.readyCheck (s : State) (d : Fin 4) : Bool := s.num 0x1510 (0x01 + d.val) == 0

/-- A request of the clock unit: refused requests are repeated (R425). -/
def State.unitSwitch (s : State) (d : Fin 4) (pll : Bool) : State :=
  let x := s.dom d
  if x.onPll == pll && x.target.isNone then s
  else if x.target.isSome || (s.readyCheck d && !s.sourceReady pll) then
    let s := if x.target.isSome then s else s.bump 0x1500 0x12 1
    s.modDom d (fun y => { y with refused := some pll, repeats := 0 })
  else s.beginSwitch d pll

/-- A write of OD 1510.11 to OD 1510.14 (R424): MAINTENANCE only; BUSY while a switch is in progress or when
READY-CHECK refuses. -/
def domainWrite (d : Fin 4) (src : Nat) (s : State) : Reply :=
  let pll := src == 1
  let x := s.dom d
  if s.mode != 6 then ⟨9, s, id⟩
  else if x.target.isSome then ⟨1, s, id⟩
  else if s.readyCheck d && !s.sourceReady pll then ⟨1, s.bump 0x1500 0x12 1, id⟩
  else if x.onPll == pll then ⟨0, s.put 0x1510 (0x11 + d.val) src, id⟩
  else ⟨0, (s.put 0x1510 (0x11 + d.val) src).beginSwitch d pll, id⟩

/-- A write of OD 1500.01 (R424): READY-CHECK; XT2 needs its ready flag. -/
def alwaysOnWrite (src : Nat) (s : State) : Reply :=
  if src == 1 && !s.clkBit 4 then ⟨1, s.bump 0x1500 0x12 1, id⟩
  else ⟨0, (s.put 0x1500 0x01 src).clk 11 (src == 1), id⟩

/-- The state of the data domain after local reset: the launches of both routes end, and what the route engines, the slices, the trackers,
the filter chains, the capture engine and the stream engine hold is gone; the frame counters stand, which only a reset or power-on returns to
0 (R295, R427; assumption log 35). -/
def State.resetData (s : State) : State :=
  let s := ((((s.dropRoute .a).dropRoute .b).endCaptures (fun _ => true)).clearFrames .a).clearFrames .b
  let clear := fun (x : RouteState) => { x with ray := resetRay x.ray, thermal := rebaseTracks x.thermal }
  let s := (s.modRoute .a clear).modRoute .b clear
  { s with streams := { s.streams with
    backlog := s.streams.backlog.map (fun f => { f with next := Vector.replicate 2 none }), gathered := [], gatheredNs := none, queue := [] } }

/-- The state of the cores after local reset: registers, queues and memories as a load leaves them (R265, R427; assumption log 35). -/
def State.resetCores (s : State) : State :=
  (List.finRange 8).foldl (fun (s : State) (c : Fin 8) => s.loadCore c) s.gateCores

/-- What local reset of a domain means (R427): the control domain restarts the Keepers; a forced data domain counts as a fault of every slice
(R453), and its state is that of local reset, as that of the cores is; the converters start anew. -/
def State.domainForced (s : State) (d : Fin 4) : State :=
  if d.val == 0 then s.restartKeepers
  else if d.val == 1 then (s.bump 0x2400 0x06 17).resetData
  else if d.val == 2 then s.resetCores
  else s.startHka

/-- A domain runs on a source, with no switch in progress. -/
def State.domainOn (s : State) (d : Fin 4) (pll : Bool) : State :=
  (s.modDom d (fun x => { x with onPll := pll, target := none, localReset := false })).put 0x1510 (0x11 + d.val) (b2n pll)

/-- A domain that a switch held in local reset leaves it in the state of local reset. -/
def State.leaveReset (s : State) (d : Fin 4) (held : Bool) : State := if held then s.domainForced d else s

/-- CLOCK_SWITCH_COMPLETE (R426): the domain restarts on its new clock, with its state, or out of local reset where neither clock had given
an edge (R428). -/
def doClockSwitchComplete (d : Fin 4) (s : State) : State :=
  match (s.dom d).target with
  | none => s
  | some pll => (s.domainOn d pll).leaveReset d (s.dom d).localReset

def execClockSwitchComplete (d : Fin 4) (s : State) : Out := State.next (doClockSwitchComplete d s)

/-- CLOCK_SWITCH_TIMEOUT: no edge of the old clock forces the switch through local reset (R427); no edge of the new
clock sends the domain back to the old one, whose source object shows it again, or leaves it in local reset when neither gives an edge
(R428). -/
def doClockSwitchTimeout (d : Fin 4) (newEdge : Bool) (s : State) : State :=
  let x := s.dom d
  match x.target with
  | none => s
  | some pll =>
    if newEdge then (((s.domainOn d pll).bump 0x1500 0x11 1).issueOpen 0x32 0x27 0).domainForced d
    else if s.sourceReady x.onPll then ((s.domainOn d x.onPll).bump 0x1500 0x13 1).leaveReset d x.localReset
    else s.modDom d (fun x => { x with localReset := true })

def execClockSwitchTimeout (d : Fin 4) (newEdge : Bool) (s : State) : Out := State.next (doClockSwitchTimeout d newEdge s)

/-- CLOCK_SWITCH_RETRY (R425): a refused request of the clock unit is repeated every 1 ms and abandoned after 100. -/
def doClockSwitchRetry (d : Fin 4) (s : State) : State :=
  let x := s.dom d
  match x.refused with
  | none => s
  | some pll =>
    if x.target.isNone && (!s.readyCheck d || s.sourceReady pll) then s.beginSwitch d pll
    else
      let s := s.bump 0x1500 0x12 1
      if 99 ≤ x.repeats then
        (s.modDom d (fun y => { y with refused := none, repeats := 0 })).issueOpen 0x33 0x27 0
      else s.modDom d (fun y => { y with repeats := y.repeats + 1 })

def execClockSwitchRetry (d : Fin 4) (s : State) : Out := State.next (doClockSwitchRetry d s)

/-! ### Clock monitors (Table 16.3) -/

/-- Whether the monitors are armed: from the end of bring-up step 4, in every mode except HIBERNATE (R421). -/
def State.monitors (s : State) : Bool :=
  s.mode != 0 && (match s.power.bringUp with | some k => decide (4 < k) | none => true) && s.power.vaon && s.power.supplyOk

/-- Both DX links and both NET links are lost. -/
def State.dropLinks (s : State) : State :=
  (((s.dropLink 0).dropLink 1).put 0x1110 0x10 0).put 0x1111 0x10 0

/-- The clocks of XT1 stop: its flag and every PLL's lock. -/
def State.clearLocks (s : State) : State :=
  let s := { s with power := { s.power with pllsSince := none, pllmSince := none } }
  (((((s.clk 3 false).clk 5 false).clk 6 false).clk 7 false).clk 8 false).clk 9 false

/-- XT1_STOP (R421, R422): safe request, SAFE with XT1 latched; the links stop with PLL-L. -/
def doXt1Stop (s : State) : State :=
  if !s.monitors then s
  else
    let s := (s.clearLocks.clk 13 true).dropLinks
    let s := { s with pins := { s.pins with ppsOut := false } }
    let s := { s with power := { s.power with xt1Held := false } }
    ((s.issueOpen 0x34 0x27 0).unitSwitch 0 false).enterSafe [0]

def execXt1Stop (s : State) : Out := State.next (doXt1Stop s)

/-- PLLA_LOSS (R421, R422). -/
def doPllaLoss (s : State) : State :=
  if !s.monitors then s
  else
    let s := ((s.clk 5 false).clk 9 false).clk 12 true
    let s := { s with pins := { s.pins with ppsOut := false } }
    let s := { s with power := { s.power with xt1Held := false } }
    (s.issueOpen 0x34 0x27 0).enterSafe [1]

def execPllaLoss (s : State) : Out := State.next (doPllaLoss s)

/-- PLLS_LOSS (R421): the control domain switches to FRC. -/
def doPllsLoss (s : State) : State :=
  if !s.monitors then s
  else
    let s := s.clk 6 false
    let s := { s with power := { s.power with pllsSince := none } }
    ((s.issueOpen 0x34 0x27 0).unitSwitch 0 false).enterSafe [2]

def execPllsLoss (s : State) : Out := State.next (doPllsLoss s)

/-- PLLM_LOSS (R421): both DRAM channels stop. -/
def doPllmLoss (s : State) : State :=
  if !s.monitors then s
  else
    let s := s.clk 7 false
    let s := { s with power := { s.power with pllmSince := none } }
    (s.issueOpen 0x34 0x27 0).enterSafe [3]

def execPllmLoss (s : State) : Out := State.next (doPllmLoss s)

/-- PLLL_LOSS (R421): the DX and NET links are lost, the mode is unchanged. -/
def doPlllLoss (s : State) : State :=
  if !s.monitors then s else ((s.clk 8 false).issueOpen 0x34 0x27 0).dropLinks

def execPlllLoss (s : State) : Out := State.next (doPlllLoss s)

/-- PLLT_LOSS (R421): SYNC_CLK is not driven, and an edge stamped meanwhile is marked by DLL_UNLOCKED (R357). -/
def doPlltLoss (s : State) : State :=
  if !s.monitors then s
  else
    let s := (s.clk 9 false).issueOpen 0x34 0x27 0
    { s with sync := { s.sync with sending := false } }

def execPlltLoss (s : State) : Out := State.next (doPlltLoss s)

/-- PLL_RELOCK_ATTEMPT (R421): PLL-L, or PLL-T when `t`. -/
def doPllRelockAttempt (t ok : Bool) (s : State) : State :=
  if !ok then s
  else if t then (if s.clkBit 5 then (s.clk 9 true).putBit 0x1438 0x10 10 false else s)
  else if s.clkBit 3 then s.clk 8 true else s

def execPllRelockAttempt (t ok : Bool) (s : State) : Out := State.next (doPllRelockAttempt t ok s)

/-- XT1_RETURN (R422): after an XT1 or PLL-A trip the PLLs are re-locked and the monitors re-armed; SAFE stays until the fault is cleared. -/
def doXt1Return (s : State) : State :=
  if !s.monitors || s.power.xt1Held then s
  else
    let s := (((((s.clk 3 true).clk 5 true).clk 6 true).clk 7 true).clk 8 true).clk 9 true
    let s := (s.clk 10 false).putBit 0x1438 0x10 10 false
    { s with power := { s.power with xt1Held := true, pllsSince := some s.cyc, pllmSince := some s.cyc } }

def execXt1Return (s : State) : Out := State.next (doXt1Return s)

/-- XT2_LOSS (R418, R421): its ready flag clears, and while the monitors run the always-on domain goes to SRC when it runs on XT2. -/
def doXt2Loss (s : State) : State :=
  let s := (s.clk 4 false).clk 10 false
  if s.monitors && s.clkBit 11 then ((s.clk 11 false).put 0x1500 0x01 0).issueOpen 0x34 0x27 0 else s

def execXt2Loss (s : State) : Out := State.next (doXt2Loss s)

/-- XT2_READY (R418). -/
def doXt2Ready (s : State) : State := s.clk 4 true

def execXt2Ready (s : State) : Out := State.next (doXt2Ready s)

/-- CAN_TRIM (R423): while XT1 is lost the CAN clock is trimmed against XT2. -/
def doCanTrim (s : State) : State := s.clk 10 (!s.clkBit 3 && s.clkBit 4 && s.mode != 0)

def execCanTrim (s : State) : Out := State.next (doCanTrim s)

/-- PLL_LOCK_REGAINED: a lost PLL-S, or PLL-M when `m`, reports lock again, and the hold that a fault clear asks for begins (R463). -/
def doPllLockRegained (m : Bool) (s : State) : State :=
  if s.clkBit (if m then 7 else 6) then s
  else if m then { s.clk 7 true with power := { s.power with pllmSince := some s.cyc } }
  else { s.clk 6 true with power := { s.power with pllsSince := some s.cyc } }

def execPllLockRegained (m : Bool) (s : State) : Out := State.next (doPllLockRegained m s)

/-! ### Gates (R429, R430) -/

/-- The blocks of a gate request that the configuration in force uses (R430). -/
def State.gateInUse (s : State) (mask : Nat) : Bool :=
  let cores := (List.range 8).any (fun c => bit mask (8 + c) &&
    (List.range 4).any (fun k => ((s.blob (coreIdx c) (0x10 + k)).getD 0 0) == 1))
  (bit mask 0 && s.on 0x1121 0x01) || (bit mask 1 && s.on 0x1111 0x01) || (bit mask 3 && s.on 0x1830 0x01)
    || (bit mask 4 && s.on 0x1450 0x01) || cores

/-- A write of OD 1520.01: a block in use is refused; each other block is gated on its own terms, and a block whose
interface does not report idle in 256 cycles stays open and makes the answer GATE_BUSY. Which blocks are busy the
manual does not give: a free value. -/
def gateWrite (mask : Nat) (s : State) : Reply :=
  if s.gateInUse mask then ⟨7, s, id⟩
  else
    let (v, s) := s.draw
    let was := s.num 0x1520 0x02
    let busy := mask &&& v % 65536 &&& (65535 - was)
    let s := (s.put 0x1520 0x01 mask).put 0x1520 0x02 (mask - busy)
    ⟨if busy == 0 then 0 else 0x0C, s, id⟩

/-! ### Core supply (R432, R433) -/

/-- Sends an AVSBus voltage write until an attempt has a valid answer, three times at most; `misses` attempts have none (R433). -/
def State.avsSend (s : State) (mv : Nat) (misses : Fin 4) : State :=
  (List.range (Nat.min misses.val 2 + 1)).foldl (fun (s : State) _ => s.emit (.avs mv)) s

/-- One AVSBus voltage write (R433): the target follows a valid answer; after three attempts without one it holds, and AVS_NOREPLY is set
with a record. -/
def State.avsWrite (s : State) (mv : Nat) (misses : Fin 4) : State :=
  if misses.val < 3 then ((s.avsSend mv misses).put 0x1300 0x14 mv).putBit 0x1300 0x15 1 false
  else ((s.avsSend mv misses).putBit 0x1300 0x15 1 true).issueOpen 0x36 0x27 0

/-- The least of a list of slacks. -/
def leastSlack (l : List Nat) : Nat := l.foldl Nat.min (l.headD 0)

/-- A supply failure (R434): the safe request, and every other domain in reset while it lasts. Its record is latched until a Keeper runs
(R446). In HIBERNATE the monitors are not armed and PWR_GOOD is ignored (R474). -/
def doSupplyFailure (s : State) : State :=
  if !s.power.vaon || s.mode == 0 then s
  else
    let (v, s) := s.draw
    let e := s.faultRec 0x35 0x27 3 0 (toSigned (v % 2 ^ 32) 32) 0 0
    let s := (s.resetTo false 5).holdRec e
    { s with power := { s.power with supplyOk := false, bringUp := some 0 } }

def execSupplyFailure (s : State) : Out := State.next (doSupplyFailure s)

/-- AVS_LOOP (R432, R433): the least of the 16 slacks moves the target; below 2 at 0.85 V it is a supply failure, and LOW_SLACK then
stands until the next reset. -/
def doAvsLoop (slack : List Nat) (misses : Fin 4) (s : State) : State :=
  if !bit (s.num 0x1300 0x15) 0 || slack.isEmpty then s
  else
    let m := leastSlack slack
    let mv := s.num 0x1300 0x14
    let s := { s with power := { s.power with avsHigh := if 12 < m then s.power.avsHigh + 1 else 0 } }
    if m < 2 && mv == 850 then (doSupplyFailure s).putBit 0x1300 0x15 2 true
    else if m < 4 then (if mv < 850 then s.avsWrite (Nat.min 850 (mv + 10)) misses else s)
    else if 16 ≤ s.power.avsHigh then
      let s := { s with power := { s.power with avsHigh := 0 } }
      if 650 < mv then s.avsWrite (Nat.max 650 (mv - 5)) misses else s
    else s

def execAvsLoop (slack : List Nat) (misses : Fin 4) (s : State) : Out := State.next (doAvsLoop slack misses s)

/-- SUPPLY_RECOVERY (R434): a cold bring-up that ends in SAFE, with SUPPLY latched. -/
def doSupplyRecovery (s : State) : State :=
  if s.power.supplyOk then s
  else
    let s := { s with power := { s.power with supplyOk := true, toSafe := true } }
    s.latch [4]

def execSupplyRecovery (s : State) : Out := State.next (doSupplyRecovery s)

/-! ### Resets and bring-up -/

/-- POWER_ON (R475): the always-on domain starts; only flash and the key store survive, and E is 0 (R459). -/
def doPowerOn (s : State) : State :=
  let t := s.resetTo false 0
  let z := State.reset
  { t with
    od := dictSet z.od (objKey 0x1300 0x11) (.num 0), arbiter := z.arbiter,
    power := { z.power with vaon := true }, integrity := z.integrity, time := z.time }

def execPowerOn (s : State) : Out := State.next (doPowerOn s)

/-- POWER_DOWN (R475): VAON is removed; all state is lost, the OTP key lock with it. -/
def doPowerDown (s : State) : State :=
  let t := doPowerOn s
  { t with power := { t.power with vaon := false, supplyOk := false, bringUp := none },
           pins := { t.pins with pwrEn := false } }

def execPowerDown (s : State) : Out := State.next (doPowerDown s)

/-- RESET_N asserted (R435): a cold reset, held until its release; with a supply failure present the cause stays that of the failure
(R476). -/
def doResetN (s : State) : State :=
  if !s.power.vaon then s
  else
    let t := s.resetTo false (if s.power.supplyOk then 1 else 5)
    { t with power := { t.power with resetLow := true } }

def execResetN (s : State) : Out := State.next (doResetN s)

/-- An AVSBus write that no attempt had an answer to before a Keeper runs: AVS_NOREPLY, and a record latched (R433, R446). -/
def State.avsLost (s : State) (misses : Fin 4) : State :=
  if misses.val < 3 then s
  else
    let (v, s) := s.draw
    (s.putBit 0x1300 0x15 1 true).holdRec (s.faultRec 0x36 0x27 3 0 (toSigned (v % 2 ^ 32) 32) 0 0)

/-- RESET_RELEASE (R436, steps 1 to 3): AVS sends 0.85 V, the control domain runs on FRC, the Keepers claim authority
once their BIST has passed, XT1 is enabled; a failed BIST stays in step 2. The voltage write goes as any other (R433); the record of one
without an answer is latched until a Keeper runs. -/
def doResetRelease (bistPass : Bool) (misses : Fin 4) (s : State) : State :=
  if !s.power.vaon || !s.power.supplyOk || s.power.bringUp != some 0 then s
  else
    let s := { s with power := { s.power with resetLow := false, bringUp := some 2, bringUpNs := s.cyc } }
    let s := ((s.avsSend 850 misses).clk 2 true).avsLost misses
    if bistPass then
      let s := { s with power := { s.power with bringUp := some 4 } }
      s.claim.driveFault
    else { s with power := { s.power with domainBistFailed := true } }.driveFault

def execResetRelease (f : FirstSteps) (s : State) : Out := State.next (doResetRelease f.bistPass f.misses s)

/-- The nominal frequencies of XT1 in MHz (Table 16.11). -/
def xt1Nominals : List Nat := [10, 20, 25, 40]

/-- The code of the nominal nearest a count of XT1 periods in 1 ms of FRC; none when the count lies more than 10 %
from every nominal (R419). At most one nominal lies within 10 % of a count, and it is then the nearest. -/
def xt1Nominal (count : Nat) : Option Nat :=
  (List.range 4).find? (fun i =>
    let n := 1000 * xt1Nominals.getD i 0
    decide (10 * ((count : Int) - (n : Nat)).natAbs ≤ n))

/-- XT1_READY (R419, R436 steps 4 and 5): the nominal, the PLLs, the control domain's switch and the AVS loop; firmware is chosen;
the datapath BIST of bits 0 to 7 begins. `us` is the time since t0, which no sample clock has counted (assumption log 35). -/
def doXt1Ready (count : Nat) (us : W32) (s : State) : State :=
  match xt1Nominal count with
  | none => s
  | some n =>
    if s.power.bringUp == some 4 then
      let s := ((((((s.put 0x1500 0x02 n).clk 3 true).clk 5 true).clk 6 true).clk 7 true).clk 8 true).clk 9 true
      let s := (s.putBit 0x1300 0x15 0 true).domainsOnPll.chooseFirmware
      { s.put 0x1700 0x21 1 with
        power := { s.power with bringUp := some 6, bringUpUs := us.toNat, bringUpNs := s.cyc, xt1Held := true, pllsSince := some s.cyc, pllmSince := some s.cyc },
        integrity := { s.integrity with bistMask := 0xFF, bistLeft := List.range 8, bistFailing := 0, bistStep6 := true } }
    else s.clk 3 true

def execXt1Ready (x : Xt1Count) (s : State) : Out := State.next (doXt1Ready x.count x.us s)

/-- XT1_READY_TIMEOUT (R436): 1 s after step 3, which stands at 15 ms (Table 16.8), bring-up ends in SAFE with XT1_FAIL set. -/
def doXt1ReadyTimeout (s : State) : State :=
  if s.power.bringUp != some 4 then s
  else
    let s := ((s.clk 13 true).latch [0]).issueOpen 0x34 0x27 0
    { s with power := { s.power with toSafe := true, bringUpUs := 1015000, bringUpNs := s.cyc } }.endBringUp

def execXt1ReadyTimeout (s : State) : Out := State.next (doXt1ReadyTimeout s)

/-! ### Wake and the real-time counter (R442, R443) -/

/-- A wake source of OD 1300.05 in HIBERNATE; one that arrives during the entry is kept. -/
def State.wakeIf (s : State) (b : Nat) : State :=
  if s.mode == 0 && s.power.vaon && bit (s.num 0x1300 0x05) b then s.wakeUp (2 ^ b)
  else if s.power.transition.map (·.target) == some 0 && bit (s.num 0x1300 0x05) b then
    { s with power := { s.power with wakeKept := 2 ^ b } }
  else s

/-- WAKE_EDGE: the polarity of OD 1300.06. -/
def doWakeEdge (rising : Bool) (s : State) : State :=
  if rising == (s.num 0x1300 0x06 == 0) then s.wakeIf 0 else s

def execWakeEdge (rising : Bool) (s : State) : Out := State.next (doWakeEdge rising s)

/-- CAN_WAKE. -/
def doCanWake (s : State) : State := s.wakeIf 1

def execCanWake (s : State) : Out := State.next (doCanWake s)

/-- RTC_ALARM: an alarm of 0 is no alarm, and one that wakes the device is cleared. -/
def doRtcAlarm (s : State) : State :=
  if s.num 0x1300 0x07 == 0 then s
  else if s.mode == 0 && bit (s.num 0x1300 0x05) 2 then (s.put 0x1300 0x07 0).wakeIf 2 |>.put 0x1300 0x07 0
  else if s.power.transition.map (·.target) == some 0 && bit (s.num 0x1300 0x05) 2 then (s.put 0x1300 0x07 0).wakeIf 2
  else s

def execRtcAlarm (s : State) : Out := State.next (doRtcAlarm s)

/-- RTC_SECOND: while device time runs the counter is set from it, otherwise it counts; 48 bits. -/
def doRtcSecond (s : State) : State :=
  if !s.power.vaon then s
  else
    let n := if s.mode != 0 && s.clkBit 5 then s.time.ns / 1000000000 else s.power.rtcSec + 1
    { s with power := { s.power with rtcSec := n % 2 ^ 48, rtcSub := 0 } }

def execRtcSecond (s : State) : Out := State.next (doRtcSecond s)

/-- LASER_SETTLE_EXPIRY (R89, step 2): every route start that waits goes on to its dwell. -/
def doLaserSettleExpiry (s : State) : State :=
  let go := fun (s : State) r => if (s.route r).optics.start == some .settle then s.startDwell r else s
  go (go s .a) .b

def execLaserSettleExpiry (s : State) : Out := State.next (doLaserSettleExpiry s)

end Sys2Proof.Machine
end

