-- ==== Sys2Proof/Machine/IntegrityOps.lean ====
section
/-! DEFINITION. Shared operations of integrity: targeted self-tests and their outcomes (R450), the mapping of the
rotating spare with takeovers and retirements (R159 to R163, R453), and what a retired unit leaves. -/

namespace Sys2Proof.Machine

open Sys2Proof

/-! ### Targeted self-tests (R450) -/

/-- Whether a unit has a test running or pending. -/
def State.testing (s : State) (u : TestUnit) : Bool := s.integrity.tests.any (fun t => t.unit == u)

/-- A detected error starts the targeted self-test of its unit, unless one is running or pending (R450). `failed` is
whether the error was itself a failed run. -/
def State.detect (s : State) (u : TestUnit) (failed : Bool) : State :=
  if s.testing u then s
  else { s.bump 0x1700 0x12 1 with integrity := { s.integrity with tests := s.integrity.tests ++ [⟨u, failed⟩] } }

/-- Ends the test of a unit. -/
def State.endTest (s : State) (u : TestUnit) : State :=
  { s with integrity := { s.integrity with tests := s.integrity.tests.filter (fun t => t.unit != u) } }

/-- Nanoseconds of 24 h. -/
def day : Nat := 86400000000000

/-- Takes a transient outcome of a unit; the third within 24 h counts as lasting (R450). Answers whether it is
lasting. -/
def State.transientOutcome (s : State) (u : TestUnit) : Bool × State :=
  let recent := s.integrity.transients.filter (fun e => e.1 != u || decide (s.cyc < e.2 + day))
  let n := (recent.filter (fun e => e.1 == u)).length
  if 2 ≤ n then
    (true, { s.bump 0x1700 0x14 1 with integrity := { s.integrity with transients := recent.filter (fun e => e.1 != u) } })
  else (false, { s.bump 0x1700 0x13 1 with integrity := { s.integrity with transients := recent ++ [(u, s.cyc)] } })

/-! ### The rotating spare (R159 to R163) -/

/-- The rotation index ρ. -/
def State.rho (s : State) : Nat := s.num 0x2400 0x07

/-- The physical slice in spare duty. -/
def State.spare (s : State) : Fin 17 := Fin.ofNat 17 (s.rho + 16)

/-- The physical slice of a logical slice. -/
def State.physical (s : State) (l : Nat) : Fin 17 := Fin.ofNat 17 (s.rho + l)

/-- Whether a spare is available to take over a logical slice. -/
def State.spareReady (s : State) : Bool :=
  !s.sliceRetired s.spare && !s.testing (.slice s.spare) && !(s.slices.pendingRho.isSome && s.slices.takeover)

/-- Reports OD 2400.02 and the NO_SPARE, TESTING and SUSPECT bits of OD 2400.03 (Table 5.7). -/
def State.reportSlices (s : State) : State :=
  let t := s.integrity.tests.find? (fun t => t.unit == .slice s.spare)
  let sus := match t with
    | some x => x.failedOnce
    | none => false
  let retired := s.num 0x2400 0x03 % 2 ^ 17
  let none' := !s.spareReady
  ((s.put 0x2400 0x02 (if s.sliceRetired s.spare then 0xFF else s.spare.val)).put 0x2400 0x03
    (retired + b2n none' * 2 ^ 31 + b2n t.isSome * 2 ^ 30 + b2n sus * 2 ^ 29)).driveFault

/-- A remap that makes a physical slice the spare waits for the next shot boundary (R161). -/
def State.remapTo (s : State) (f : Fin 17) : State :=
  { s with slices := { s.slices with pendingRho := some ((f.val + 1) % 17), takeover := true } }

/-- A logical slice without a working physical slice is taken by the spare as soon as one is available (R163). -/
def State.coverSlices (s : State) : State :=
  if !s.spareReady then s
  else
    match ((List.range 16).map s.physical).find? (fun f => s.sliceRetired f || s.slices.inPlace.contains f.val) with
    | some f => s.remapTo f
    | none => s

/-- A failed check on a physical slice (R161, R163, R453): counted and recorded; the first starts its test, with a
remap when a spare is available and in place when none is. -/
def State.sliceCheck (s : State) (f : Fin 17) : State :=
  let s := (s.bump 0x2400 0x06 1).issue 0x20 0x23 f.val 0
  if s.testing (.slice f) || s.sliceRetired f then s
  else
    let ready := s.spareReady
    let s := s.detect (.slice f) false
    let s := if ready then s.remapTo f else { s with slices := { s.slices with inPlace := s.slices.inPlace ++ [f.val] } }
    s.reportSlices

/-- Whether rotation may go on: no slice retired or under test, none failing in place, no takeover pending. -/
def State.rotationOn (s : State) : Bool :=
  s.num 0x2400 0x01 != 0 && s.retiredSlices == 0 && s.slices.inPlace.isEmpty && s.slices.pendingRho.isNone
    && (List.finRange 17).all (fun f => !s.testing (.slice f))

/-- Whether the slices rotate at the next shot boundary: the interval of OD 2400.01 has elapsed since the last rotation, and the spare has
passed a test cycle since it became spare (R160). -/
def State.rotationDue (s : State) : Bool :=
  s.rotationOn && s.slices.passed && decide (s.slices.sinceNs + s.num 0x2400 0x01 * 1000000000 ≤ s.cyc)

/-- A rotation that is due, or a takeover that waits, takes effect at a shot boundary of any enabled route (R160, R161). -/
def State.rotateSlices (s : State) : State :=
  match (if s.rotationDue then some ((s.rho + 1) % 17) else s.slices.pendingRho) with
  | none => s
  | some rho =>
    let take := s.slices.takeover
    let s := (s.put 0x2400 0x07 rho).bump 0x2400 (if take then 0x05 else 0x04) 1
    let s := { s with slices := { s.slices with
      pendingRho := none, takeover := false, passed := false
      sinceNs := if take then s.slices.sinceNs else s.cyc
      inPlace := s.slices.inPlace.filter (fun f => f != (rho + 16) % 17) } }
    s.reportSlices

/-- A physical slice is retired (R162): its bit is set, with a record; two retired slices take the device to SAFE
(R453). -/
def State.retireSlice (s : State) (f : Fin 17) : State :=
  let s := (s.endTest (.slice f)).putBit 0x2400 0x03 f.val true
  let s := { s with slices := { s.slices with inPlace := s.slices.inPlace.filter (fun x => x != f.val) } }
  let s := s.issue 0x21 0x23 f.val 4
  if 2 ≤ s.retiredSlices then s.reportSlices.enterSafe [6] else s.coverSlices.reportSlices

/-- The targeted test of a slice passes (R162, R453): the fault was transient; the spare stays spare, a slice tested in
place resumes its logical slice. -/
def State.passSlice (s : State) (f : Fin 17) : State :=
  let x := (s.endTest (.slice f)).transientOutcome (.slice f)
  if x.1 then x.2.retireSlice f
  else
    let s := x.2.issue 0x20 0x23 f.val 1
    let s := { s with slices := { s.slices with
      inPlace := s.slices.inPlace.filter (fun y => y != f.val), passed := s.slices.passed || f == s.spare } }
    s.coverSlices.reportSlices

/-- SPARE_TEST_CYCLE (R160, R162): a pass lets the rotation go on once its interval has elapsed; a failure is the first of the two that
retire the slice. A targeted test has runs of its own. -/
def doSpareTestCycle (pass : Bool) (s : State) : State :=
  if s.sliceRetired s.spare || s.testing (.slice s.spare) then s
  else if pass then { s with slices := { s.slices with passed := true } }
  else
    let s := s.issue 0x20 0x23 s.spare.val 0
    let s := { s.detect (.slice s.spare) true with slices := { s.slices with
      pendingRho := if s.slices.takeover then s.slices.pendingRho else none } }
    s.reportSlices

def execSpareTestCycle (pass : Bool) (s : State) : Out := State.next (doSpareTestCycle pass s)

/-! ### Rows of the on-chip stores (R390) -/

/-- The number of a store in the row lists. -/
def storeNum : Store → Nat
  | .hive => 0
  | .filter => 1
  | .thermal => 2

/-- A record of a row, whose VALUE the manual does not state: R446 names no unit for a store. -/
def State.rowRecord (s : State) (type route position : Nat) (aux : Int) : State :=
  let (v, s) := s.draw
  s.issueAt type 0x25 route position (toSigned (v % 2 ^ 32) 32) aux 0

/-- A row becomes suspect and is tested; a retired row is not tested again (R390, R452). -/
def State.suspectRow (s : State) (st : Store) (bank : Fin 16) (row : Fin 1024) : State :=
  let k := (storeNum st, bank.val, row.val)
  if s.rows.retired.contains k || s.rows.suspects.contains k then s
  else { s.detect (.row st bank row) false with rows := { s.rows with suspects := s.rows.suspects ++ [k] } }

/-- An uncorrectable error in a word of a store: counted in OD 1620.13 and recorded; its row becomes suspect. -/
def State.rowUncorrectable (s : State) (st : Store) (bank : Fin 16) (row : Fin 1024) (route position : Nat) : State :=
  ((s.bump 0x1620 0x13 1).rowRecord 0x26 route position 0).suspectRow st bank row

/-- An uncorrectable error in a DRAM burst of a row: counted, recorded, and the row is tested (R386). -/
def State.dramUncorrectable (s : State) (ch : Fin 2) (row : Nat) : State :=
  ((s.bump (0x1610 + ch.val) 0x18 1).issue 0x28 0x25 ch.val 0).detect (.dramRow ch row) false

/-- The bursts of a reader that were found in error (R386): a corrected one is counted; an uncorrectable one is counted and recorded, and its
row is tested. -/
def State.readErrors (s : State) (errors : List BurstError) : State :=
  errors.foldl (fun (s : State) e =>
    if !s.chServing e.ch then s
    else if e.bad then s.dramUncorrectable e.ch (rowOfBurst e.burst).1 else s.bump (chIdx e.ch) 0x17 1) s

end Sys2Proof.Machine
end

