-- ==== Sys2Proof/Machine/ForagerOps.lean ====
section
/-! DEFINITION. The Forager engine as shared operations (09_forager.md): the register file and memories of a core (R242 to
R244), the landing of results (R245, R246), loops and branches (R247, R248), addressing (R249), the frame port (R255,
R256), invocations with their events, release and aborts (R257 to R266). -/

namespace Sys2Proof.Machine

open Sys2Proof

/-! ### Registers and memories -/

/-- A word of X or Y. -/
def memWord (m : WordMem) (a : Nat) : W32 := (mapGet m (a % 8192)).getD 0

/-- Writes a word of X or Y; a word of zero is not listed. -/
def memPut (m : WordMem) (a : Nat) (v : W32) : WordMem := if v = 0 then mapDel m (a % 8192) else mapSet m (a % 8192) v

/-- Writes consecutive words. -/
def memPutAll (m : WordMem) (a : Nat) (l : List W32) : WordMem :=
  (l.zip (List.range l.length)).foldl (fun m e => memPut m (a + e.2) e.1) m

/-- The error that a word of a core's memories holds: `true` where SECDED cannot correct it (R242, R265). -/
def Core.flawAt (c : Core) (m : CoreMem × Nat) : Option Bool := (c.flaws.find? (fun e => e.mem == m.1 && e.addr == m.2)).map (·.bad)

/-- Words written afresh hold no error. -/
def Core.mend (c : Core) (m : CoreMem) (a n : Nat) : Core :=
  { c with flaws := c.flaws.filter (fun e => e.mem != m || decide (e.addr < a) || decide (a + n ≤ e.addr)) }

/-- Writes a word of X, or of Y. -/
def Core.store (c : Core) (y : Bool) (a : Nat) (v : W32) : Core :=
  let c := c.mend (if y then .y else .x) (a % 8192) 1
  if y then { c with y := memPut c.y a v } else { c with x := memPut c.x a v }

/-- The instruction word at an address of P. -/
def Core.instr (c : Core) (a : BitVec 12) : W32 := (mapGet c.p a.toNat).getD haltWord

/-- Whether the shadow bank is selected: BANK (Table 9.3). -/
def Core.shadow (c : Core) : Bool := c.run == .handler

/-- Whether a general register is banked. -/
def gBanked (i : Fin 16) : Bool := decide (8 ≤ i.val)

/-- A general register in a bank; g0 reads as zero (R243). -/
def Core.regIn (c : Core) (i : Fin 16) (shadow : Bool) : W32 :=
  if i.val = 0 then 0 else if gBanked i && shadow then c.gs.get (Fin.ofNat 8 i.val) else c.g.get i

/-- A general register as the present bank shows it. -/
def Core.reg (c : Core) (i : Fin 16) : W32 := c.regIn i c.shadow

/-- Writes a general register in a bank; a write to g0 is discarded. -/
def Core.setRegIn (c : Core) (i : Fin 16) (shadow : Bool) (v : W32) : Core :=
  if i.val = 0 then c else if gBanked i && shadow then { c with gs := c.gs.set (Fin.ofNat 8 i.val) v } else { c with g := c.g.set i v }

/-- Writes a general register in the present bank. -/
def Core.setReg (c : Core) (i : Fin 16) (v : W32) : Core := c.setRegIn i c.shadow v

/-- An address register as the present bank shows it. -/
def Core.adr (c : Core) (i : Fin 8) : BitVec 13 := if decide (4 ≤ i.val) && c.shadow then c.as.get (Fin.ofNat 4 i.val) else c.a.get i

/-- Writes an address register in the present bank. -/
def Core.setAdr (c : Core) (i : Fin 8) (v : BitVec 13) : Core :=
  if decide (4 ≤ i.val) && c.shadow then { c with as := c.as.set (Fin.ofNat 4 i.val) v } else { c with a := c.a.set i v }

/-- An accumulator as the present bank shows it. -/
def Core.acc (c : Core) (b : Bool) : Int := (if b then (if c.shadow then c.acbs else c.acb) else c.aca).toInt

/-- The status register of a bank, without BANK. -/
def Core.stat (c : Core) (shadow : Bool) : BitVec 16 := if shadow then c.statuss else c.status

/-- Sets the status register of a bank. -/
def Core.setStat (c : Core) (shadow : Bool) (v : BitVec 16) : Core := if shadow then { c with statuss := v } else { c with status := v }

/-- Sets SAT in a bank. -/
def Core.markSat (c : Core) (shadow : Bool) : Core := c.setStat shadow (c.stat shadow ||| 1)

/-- Writes an accumulator, saturating to 72 bits; saturation sets ACSAT (R244, R252). -/
def Core.setAcc (c : Core) (b : Bool) (x : Int) : Core :=
  let v := BitVec.ofInt 72 (sat x 72)
  let d := if b then (if c.shadow then { c with acbs := v } else { c with acb := v }) else { c with aca := v }
  if sat x 72 = x then d else d.setStat d.shadow (d.stat d.shadow ||| 2)

/-- The low lane as a signed value (R244). -/
def laneLo (w : W32) : Int := (w.extractLsb' 0 16).toInt

/-- The high lane as a signed value. -/
def laneHi (w : W32) : Int := (w.extractLsb' 16 16).toInt

/-- A word of two lanes. -/
def lanes (lo hi : Int) : W32 := BitVec.ofInt 16 hi ++ BitVec.ofInt 16 lo

/-! ### Landing (R245, R246) -/

/-- A class L or M result reaches its register. -/
def Core.land1 (c : Core) (l : Landing) : Core :=
  let c := c.setRegIn l.reg l.shadow l.value
  if l.sat then c.markSat l.shadow else c

/-- The results of the instruction before land, in order. -/
def Core.land (c : Core) : Core := { c.landing.foldl Core.land1 c with landing := [] }

/-! ### Addressing (R249) -/

/-- The address register after a modifier. -/
def modAddress (a : BitVec 13) (n : BitVec 16) (m : Fin 4) : BitVec 13 :=
  match m with
  | 0 => a
  | 1 => a + 1
  | 2 => BitVec.ofInt 13 (a.toNat + n.toInt)
  | 3 =>
    let k := n.toNat
    if 1 ≤ k ∧ k ≤ 8192 then
      let w := 2 ^ bitlen (k - 1)
      let base := a.toNat / w * w
      BitVec.ofNat 13 (base + (a.toNat - base + 1) % k)
    else a + 1

/-- Applies a modifier to an address register. -/
def Core.modAdr (c : Core) (i : Fin 8) (m : Fin 4) : Core := c.setAdr i (modAddress (c.adr i) (c.n.get i) m)

/-! ### One instruction -/

/-- What an instruction does beside its place in the sequence: the results that land one cycle later, its writes at the
end of its cycle, the target of a taken branch, a loop level that it pushes, and the end address of a body that it
skips. -/
structure FgEff where
  late : List Landing := []
  write : Core → Core := id
  target : Option (BitVec 12) := none
  push : Option LoopLevel := none
  skip : Option (BitVec 12) := none

/-- The end of a loop body (R248): the level's count decrements; the levels ended with it are popped. -/
def loopEnd (pc next : BitVec 12) : List LoopLevel → BitVec 12 × List LoopLevel
  | [] => (next, [])
  | l :: t =>
    if l.stop = pc then (if l.count = 1 then loopEnd pc next t else (l.start, { l with count := l.count - 1 } :: t))
    else (next, l :: t)

/-- Whether a body holds an address. -/
def LoopLevel.holds (l : LoopLevel) (a : BitVec 12) : Bool := decide (l.start ≤ a) && decide (a ≤ l.stop)

/-- The levels left by a taken branch: a level whose body excludes the target goes, with every level inside it. The list
is innermost first. -/
def loopsKept (a : BitVec 12) (l : List LoopLevel) : List LoopLevel := (l.reverse.takeWhile (fun x => x.holds a)).reverse

/-- Where execution goes after the instruction at the pc (R247, R248). -/
def Core.advance (c : Core) (e : FgEff) : Core :=
  let next := match e.skip with
    | some x => x + 1
    | none => c.pc + 1
  let levels := match e.push with
    | some l => l :: c.loops
    | none => c.loops
  let y := loopEnd c.pc next levels
  let c := { c with pc := y.1, loops := y.2 }
  match e.target, c.branch with
  | some t, _ => { c with branch := some (2, t) }
  | none, some (k, t) =>
    if k ≤ 1 then { c with pc := t, branch := none, loops := loopsKept t c.loops } else { c with branch := some (k - 1, t) }
  | none, none => c

/-- One instruction of `cycles` cycles issues: the results of the one before land, its own writes follow. -/
def Core.issue (c : Core) (cycles : Nat) (f : Core → FgEff) : Core :=
  let e := f c
  let d := e.write c.land
  { d.advance e with landing := e.late, cycles := c.cycles + cycles }

/-! ### Slots -/

/-- The slot record that the invocation runs on. -/
def Core.slotRec (c : Core) : SlotRec := Machine.slotRec c.record

/-- A slot of a core. -/
def Core.fslot (c : Core) (k : Fin 4) : FSlot := c.slots.get k

/-- Updates a slot of a core. -/
def Core.modSlot (c : Core) (k : Fin 4) (f : FSlot → FSlot) : Core := { c with slots := c.slots.set k (f (c.slots.get k)) }

/-- Reports the state of a core in OD 27c0.20; the frame port takes no time of its own here. -/
def State.reportCore (s : State) (c : Fin 8) : State :=
  let x := s.cores.get c
  let st := match x.run with
    | .gated => 0
    | .handler => 2
    | .frame => 3
  s.put (coreIdx c) 0x20 (s.num (coreIdx c) 0x20 / 8 * 8 + st)

/-- Whether a core may run its slots: SENSE, enabled, not gated, neither retired nor under test (R266, R430, R450). -/
def State.coreRuns (s : State) (c : Fin 8) : Bool :=
  s.mode == 4 && bit (s.num 0x2700 0x01) c.val && !s.gated (8 + c.val) && !(s.cores.get c).retired && !s.testing (.core c)
    && !(s.power.domains.get 2).localReset

/-- The slot record of a core in force. -/
def State.slotOf (s : State) (c : Fin 8) (k : Fin 4) : SlotRec := Machine.slotRec (s.blob (coreIdx c) (0x10 + k.val))

/-! ### The frame port (R255 to R258) -/

/-- The positions of a raw list (Table 9.8). -/
def rawList (b : Bytes) : List Nat := (List.range (b.length / 4)).map (fun i => beField b (4 * i) 4)

/-- Pairs of values as words, the earlier in the low lane; an odd last word has a high lane of 0. -/
def pairWords : Nat → List Int → List W32
  | 0, _ => []
  | _ + 1, [] => []
  | _ + 1, [a] => [lanes a 0]
  | k + 1, a :: b :: t => lanes a b :: pairWords k t

/-- The values of one position in a block held row by row, `w` values a row. -/
def column (l : List Int) (w i : Nat) : List Int := (List.range (l.length / Nat.max w 1)).map (fun j => l.getD (j * w + i) 0)

/-- The block of a slot from an input frame, and its words per position (Table 9.9). -/
def slotBlock (r : SlotRec) (raw : List Nat) (f : ReadyFrame) : List W32 × Nat :=
  match r.kind with
  | 0 =>
    let w := f.block.length / Nat.max f.count 1
    let nb := w - 2
    let m := f.cols - nb
    let one := fun (p : Nat) =>
      let v := (f.block.drop ((p - f.first) * w)).take w
      pairWords nb (v.take nb) ++ (if m = 0 then [] else [lanes (v.getD nb 0) (v.getD (nb + 1) 0)])
    ((List.range r.count).flatMap (fun i => one (r.first + i)), cdiv nb 2 + (if m = 0 then 0 else 1))
  | 1 =>
    let no := f.block.length / Nat.max f.count 1
    ((List.range r.count).flatMap (fun i => pairWords no (column f.block f.count (r.first + i - f.first))), cdiv no 2)
  | _ =>
    let n := ((f.inputs.head?).map (fun e => e.2.length)).getD 0
    (raw.flatMap (fun p => (List.range n).map (fun i => BitVec.ofInt 32 (((mapGet f.inputs p).getD []).getD i 0))), n)

/-- Words 0 to 6 of a descriptor (Table 9.10). -/
def descriptor (f : ReadyFrame) (quality first count items kind : Nat) : List W32 :=
  let w := fun (n : Nat) => BitVec.ofNat 32 n
  [w f.fcount, w (f.fcount / 2 ^ 32), w (f.tstart / 2 ^ 48).toNat, w (f.tstart / 2 ^ 16).toNat,
   w ((f.tstart % 2 ^ 16).toNat * 65536 + quality), w first,
   w (count * 65536 + items % 256 * 256 + kind)]

/-- An input frame for a slot. -/
def mkInput (r : SlotRec) (raw : List Nat) (f : ReadyFrame) (quality : Nat) (start : Bool) : InputFrame :=
  let b := slotBlock r raw f
  let first := if r.kind = 2 then raw.headD 0 else r.first
  { desc := descriptor f quality first r.count b.2 r.kind, block := b.1, transferred := false, order := 0, routeStart := start,
    routeCode := f.routeCode, fcount := f.fcount, tstart := f.tstart, period := f.period, quality := quality, first := first,
    count := r.count, pitch := f.pitch, pos := f.pos, cseq := f.cseq, deadline := f.deadline, closing := f.closing }

/-- The frame port writes the window of a slot that has no invocation running (R256). -/
def State.transfer (s : State) (c : Fin 8) (k : Fin 4) : State :=
  let x := s.cores.get c
  match (x.fslot k).waiting with
  | none => s
  | some f =>
    if f.transferred || (x.run != .gated && x.slot == k) then s
    else
      let base := (s.slotOf c k).wbase
      let xm := memPutAll (memPutAll x.x base f.desc) (base + 8) f.block
      s.setCore c (({ x with x := xm, transfers := x.transfers + 1 }.mend .x base (8 + f.block.length)).modSlot k (fun y => { y with
        waiting := some { f with transferred := true, order := x.transfers } }))

/-- An input frame reaches a slot: an older one that waits is skipped (R258). -/
def State.giveInput (s : State) (c : Fin 8) (k : Fin 4) (f : ReadyFrame) (quality : Nat) : State :=
  let i := coreIdx c
  let sl := (s.cores.get c).fslot k
  let inp := mkInput (s.slotOf c k) (rawList (s.blob i (0x18 + k.val))) f quality sl.routeStart
  let s := if sl.waiting.isSome then s.bump i 0x24 1 else s
  let s := s.modCore c (fun x => x.modSlot k (fun y => { y with
    waiting := some inp, routeStart := false, skipped := y.skipped || y.waiting.isSome }))
  s.transfer c k

/-- The filter chain hands an input frame over: every enabled slot of its route and kind receives it; a core under test
skips it (R255, R450). -/
def State.framePort (s : State) (f : ReadyFrame) (quality : Nat) : State :=
  if s.mode != 4 then s
  else
    (List.finRange 8).foldl (fun (s : State) (c : Fin 8) =>
      (List.finRange 4).foldl (fun (s : State) (k : Fin 4) =>
        let r := s.slotOf c k
        let fits := r.enable && r.route == f.routeCode && (if f.stream == 3 then r.kind == 0 else r.kind == 1 || r.kind == 2)
        if !fits || !bit (s.num 0x2700 0x01) c.val || (s.cores.get c).retired then s
        else if s.testing (.core c) then
          (s.bump (coreIdx c) 0x24 1).modCore c (fun x => x.modSlot k (fun y => { y with skipped := true }))
        else s.giveInput c k f quality) s) s

/-- An event record enters the queue of every slot whose source it is; a full queue discards it (R259). -/
def State.queueEvent (s : State) (e : EventRec) (p : SlotRec → Bool) : State :=
  if s.mode != 4 then s
  else
    (List.finRange 8).foldl (fun (s : State) (c : Fin 8) =>
      (List.finRange 4).foldl (fun (s : State) (k : Fin 4) =>
        let r := s.slotOf c k
        if !r.enable || !p r || !bit (s.num 0x2700 0x01) c.val || (s.cores.get c).retired then s
        else if 64 ≤ ((s.cores.get c).fslot k).queue.length then s.bump (coreIdx c) 0x25 1
        else s.modCore c (fun x => x.modSlot k (fun y => { y with queue := y.queue ++ [e] }))) s) s

/-- A threshold record of a route enters the queues with source 1. -/
def State.queueThreshold (s : State) (e : EventRec) : State := s.queueEvent e (fun r => r.esrc == 1 && r.route == e.route)

/-- An edge of a time-stamp input enters the queues of its source, as a TS_EDGE record (R259). -/
def State.queueEdge (s : State) (input : Nat) (t : Int) (count : Nat) : State :=
  s.queueEvent
    { time := t, type := 4, source := input, route := 3, flags := 0, position := 0, value := toSigned count 32, aux := 0, cmask := 0, seq := 0 }
    (fun r => r.esrc == input + 2)

/-! ### Invocations (R257 to R259) -/

/-- Events in order of TIME80, equal ones as they arrived. -/
def sortEventRecs : List EventRec → List EventRec
  | [] => []
  | e :: t =>
    let rec ins (x : EventRec) : List EventRec → List EventRec
      | [] => [x]
      | y :: ys => if x.time ≤ y.time then x :: y :: ys else y :: ins x ys
    ins e (sortEventRecs t)

/-- Enters the next event, or the frame program when none is left (R259). -/
def Core.enter (c : Core) : Core :=
  let r := c.slotRec
  match c.taken with
  | e :: _ =>
    { c with
      y := memPutAll c.y r.mailbox (beWords 8 (eventBytes e)), run := .handler, pc := BitVec.ofNat 12 r.handler, loops := []
      branch := none, cycles := c.cycles + 2 }
  | [] => { c with run := .frame, pc := BitVec.ofNat 12 r.entry, loops := [], branch := none }

/-- The slot whose transferred input frame came first, the lower of two (R257). -/
def Core.nextSlot (c : Core) : Option (Fin 4) :=
  ((List.finRange 4).foldl (fun (b : Option (Fin 4 × Nat)) k =>
    match (c.fslot k).waiting with
    | some f => if f.transferred then (match b with
        | some (_, n) => if f.order < n then some (k, f.order) else b
        | none => some (k, f.order)) else b
    | none => b) none).map (·.1)

/-- The instant from which an input frame can no longer be served: 100 us before its deadline (R263). -/
def InputFrame.lateFrom (f : InputFrame) : Nat := f.deadline - 100000

/-- An input frame that cannot begin in time is skipped (R263): counted, its feature frame lost as late. -/
def State.skipLate (s : State) (c : Fin 8) (k : Fin 4) : State :=
  (s.modCore c (fun x => x.modSlot k (fun y => { y with waiting := none, aborted := true, late := true }))).bump (coreIdx c) 0x23 1 |>.bump 0x2980 0x11 1 |>.bump 0x2000 0x18 1

/-- Begins the invocation of a slot: word 7 of its descriptor, its event entries, 16 cycles (R257, R259), with the words that hold an error
in it. -/
def State.beginInvocation (s : State) (c : Fin 8) (k : Fin 4) (flaws : List CoreFlaw) (f : InputFrame) : State :=
  let rec' := s.blob (coreIdx c) (0x10 + k.val)
  let r := Machine.slotRec rec'
  let x := s.cores.get c
  let sl := x.fslot k
  let take := ((sortEventRecs sl.queue).filter (fun e => decide (e.time < f.closing))).take r.emax
  let word := (sl.queue.length - take.length) * 65536 + take.length * 256 + b2n sl.skipped * 8 + b2n sl.aborted * 4
    + b2n f.routeStart * 2 + b2n sl.loaded
  let x := { x with
    x := memPut x.x (r.wbase + 7) (BitVec.ofNat 32 word), slot := k, record := rec', input := some f, taken := take, cycles := 16
    outBuf := [], evtBuf := [], landing := [], flaws := flaws }
  let x := x.modSlot k (fun y => { y with
    waiting := none, skipped := false, aborted := false, loaded := false, invocations := incWrap y.invocations 1 32 })
  ((s.useBlock (.core c)).setCore c x.enter).reportCore c

/-- The end of an invocation: a load that waits follows, and the frame port delivers what was held for the slot (R258,
R265). -/
def State.invocationOver (s : State) (c : Fin 8) : State :=
  let x := s.cores.get c
  let s := s.put (coreIdx c) 0x2A (Nat.max (s.num (coreIdx c) 0x2A) x.cycles)
  let s := s.setCore c
    { x with run := .gated, input := none, taken := [], outBuf := [], evtBuf := [], loops := [], branch := none, flaws := [] }
  let s := s.transfer c x.slot
  if x.loadPending then s.loadCore c else s.reportCore c

/-- Aborts the invocation in progress (R263, R264): nothing is released; results on their way still land; the next feature
frame carries LATE_DROP, or REDUCED after a fault. -/
def State.abortInvocation (s : State) (c : Fin 8) (fault : Bool) : State :=
  let s := s.modCore c (fun x => x.land.modSlot x.slot (fun y => { y with
    aborted := true, late := y.late || !fault, reduced := y.reduced || fault }))
  s.invocationOver c

/-- A program fault (R264) of an instruction of some cycles, which count (R262). -/
def State.programFault (s : State) (c : Fin 8) (cycles : Nat) : State :=
  ((s.modCore c (fun x => { x with cycles := x.cycles + cycles })).bump (coreIdx c) 0x28 1).abortInvocation c true

/-- The feature payload of R260. -/
def featurePayload (c : Fin 8) (k : Fin 4) (words : List W32) (invocation : Nat) : Bytes :=
  [byteOf c.val, byteOf k.val] ++ beBytes 2 words.length ++ beBytes 4 invocation ++ words.flatMap (fun w => beBytes 4 w.toNat)

/-- The release at HALT (R257 step 4, R260, R261): one feature frame, and the EVT records as one event frame. -/
def State.release (s : State) (c : Fin 8) : State :=
  let x := (s.cores.get c).land
  let s := s.setCore c { x with xSnap := x.x, ySnap := x.y }
  let i := coreIdx c
  let s := s.bump i 0x21 1
  match x.input with
  | none => s.invocationOver c
  | some f =>
    let sl := x.fslot x.slot
    let r := routeOf f.routeCode
    let owed := s.takeCarry r 8
    let s := owed.2
    let q := s.withDegraded (f.quality ||| owed.1) ||| (if sl.late then flLate else 0) ||| (if sl.reduced then 2 else 0)
    let s := s.modCore c (fun y => y.modSlot y.slot (fun z => { z with late := false, reduced := false }))
    let d : FrameDesc :=
      { stream := 8, routeCode := f.routeCode, fcount := f.fcount, tstart := f.tstart, period := f.period, first := f.first,
        count := f.count, pitch := f.pitch, quality := q, cseq := f.cseq, switchPos := some f.pos,
        payload := featurePayload c x.slot x.outBuf sl.invocations, coded := false, deadline := some f.deadline, records := 0 }
    let h := s.handOver d
    let s := if h.1 then h.2.modCore c (fun y => y.modSlot y.slot (fun z => { z with late := true })) else h.2
    let ev := x.evtBuf.map (fun e => { e with flags := q })
    let y := s.handEvents r ev q f.period f.cseq f.pos f.deadline
    (y.1.foldl State.triggerForager y.2).invocationOver c

/-- Nanoseconds of one hour. -/
def hour : Nat := 3600000000000

/-- An uncorrectable error in a memory of a core (R265, Table 17.2): the invocation is aborted, waiting input frames are
discarded, the core is loaded, the next feature frame of each slot carries REDUCED; the second error within an hour
starts the targeted self-test. -/
def State.coreEcc (s : State) (c : Fin 8) : State :=
  let run := (s.cores.get c).run != .gated
  let s := if run then s.abortInvocation c true else s
  let s := (s.modCore c (fun x => { x with loadPending := false })).loadCore c
  let s := s.modCore c (fun x => { x with slots := x.slots.map (fun y => { y with reduced := true }) })
  let s := s.issue 0x2B (0x40 + 4 * c.val) c.val 0
  let again := match (s.cores.get c).lastEcc with
    | some t => decide (s.cyc < t + hour)
    | none => false
  let s := s.modCore c (fun x => { x with lastEcc := some s.cyc })
  if again then s.detect (.core c) false else s

end Sys2Proof.Machine
end

