-- ==== Sys2Proof/Machine/DraftOps.lean ====
section
/-! DEFINITION. The draft as every write reaches it (R313 step 4, R314, R315). -/

namespace Sys2Proof.Machine

open Sys2Proof

/-- Whether another client holds the draft. -/
def State.draftBusy (s : State) (c : Client) : Bool :=
  match s.control.holder with
  | some h => h != c
  | none => false

/-- Takes the draft for a client when no one holds it; it starts from the base. -/
def State.takeDraft (s : State) (c : Client) : State :=
  if s.control.holder.isSome then s
  else { s with control := { s.control with holder := some c, draft := s.base } }.reportDraft

/-- Sets a value of the held draft. -/
def State.setDraft (s : State) (k : Nat) (v : Val) : State :=
  { s with control := { s.control with draft := dictSet s.control.draft k v } }

/-- Sets a number of the held draft. -/
def State.draftNum (s : State) (idx sub n : Nat) : State := s.setDraft (objKey idx sub) (.num n)

end Sys2Proof.Machine
end

