-- ==== Sys2Proof/Machine/Crx.lean ====
section
/-! DEFINITION. The coherent receive front end (04_coherent_receive.md): range steps (R115 to R118), BLANK (R120),
correction sets with their limits (R122, R123), foreground runs, the range sweep, blind estimation and the frame
boundary at which a set is applied (R124 to R130). -/

namespace Sys2Proof.Machine

open Sys2Proof

/-! ### Correction sets (R122, R123) -/

/-- A set without correction: unit gains, zero skew. -/
def CorrSet.unit : CorrSet := { offsetI := 0, offsetQ := 0, gainI := 65536, gainQ := 65536, cross := 0, skew := 0 }

/-- A set held at the limits of R123. -/
def limitSet (x : CorrSet) : CorrSet :=
  let gi := x.gainI
  let lo := cdiv (841 * gi) 1000
  let hi := 1189 * gi / 1000
  let gq := Nat.min hi (Nat.max lo x.gainQ)
  let m : Int := ((1763 * gq / 10000 : Nat) : Int)
  { offsetI := clampI (-1024) 1024 x.offsetI, offsetQ := clampI (-1024) 1024 x.offsetQ, gainI := gi, gainQ := gq,
    cross := clampI (-m) m x.cross, skew := clampI (-160) 160 x.skew }

/-- Set number of a range and polarisation (Table 4.5: X 0, Y 1). -/
def setIdx (range pol : Nat) : Nat := 2 * range + pol

/-- A set of a list, the unit set where none is stored. -/
def setAt (l : List CorrSet) (range pol : Nat) : CorrSet := l.getD (setIdx range pol) CorrSet.unit

/-- Eight sets, the unit set where none is stored: OD 2190.30 and the sample path hold unit sets before the first range sweep (DESIGN
CHOICE, assumption log 5: R122 gives no default). -/
def eightSets (l : List CorrSet) : List CorrSet := (List.range 8).map (fun i => l.getD i CorrSet.unit)

/-- The record of a set (Table 4.5). -/
def setBytes (x : CorrSet) : Bytes :=
  beInt 2 x.offsetI ++ beInt 2 x.offsetQ ++ beBytes 4 (x.gainI % 2 ^ 18) ++ beBytes 4 (x.gainQ % 2 ^ 18) ++ beInt 4 x.cross
    ++ beInt 2 x.skew ++ [0, 0]

/-- The change of gain, cross term and skew from one set to another, applied to a third (R125); each field saturates at the width of
Table 4.5 (R15). -/
def shiftSet (old new x : CorrSet) : CorrSet :=
  { x with
    gainI := satU ((x.gainI : Int) + new.gainI - old.gainI) 18, gainQ := satU ((x.gainQ : Int) + new.gainQ - old.gainQ) 18,
    cross := sat (x.cross + new.cross - old.cross) 18, skew := sat (x.skew + new.skew - old.skew) 16 }

/-- Whether two sets differ by at least the dead band in some field (R130). -/
def beyondBand (a b : CorrSet) : Bool :=
  decide (2 ≤ (a.offsetI - b.offsetI).natAbs) || decide (2 ≤ (a.offsetQ - b.offsetQ).natAbs)
    || decide (32 ≤ ((a.gainI : Int) - b.gainI).natAbs) || decide (32 ≤ ((a.gainQ : Int) - b.gainQ).natAbs)
    || decide (32 ≤ (a.cross - b.cross).natAbs) || decide (2 ≤ (a.skew - b.skew).natAbs)

/-- The range in force of a route (OD 2180.10). -/
def State.range (s : State) (r : Route) : Nat := s.num (at100 0x2180 r) 0x10

/-- Limits the sets of which `est` names new estimates (R123): each that exceeds a limit is held there, and its polarisation has an event
record. LIMIT_X (bit 5) and LIMIT_Y (bit 4) read whether a stored set of the polarisation is held at a limit, so a bit clears once new
estimates within the limits have replaced every set that was held (DESIGN CHOICE, assumption log 20: R123 says only when it is set). -/
def State.limitSets (s : State) (r : Route) (l : List CorrSet) (est : Nat → Bool) : List CorrSet × State :=
  let sets := (List.range 8).map (fun i => let x := l.getD i CorrSet.unit; if est i then limitSet x else x)
  let beyond := fun (i : Nat) => est i && sets.getD i CorrSet.unit != l.getD i CorrSet.unit
  let held := (List.range 8).map (fun i => if est i then beyond i else (s.route r).crx.held.getD i false)
  let pol := fun (f : Nat → Bool) (p : Nat) => (List.range 4).any (fun g => f (setIdx g p))
  let s := s.modCrx r (fun c => { c with held := held })
  let o := at100 0x2190 r
  let s := (s.putBit o 0x13 5 (pol (fun i => held.getD i false) 0)).putBit o 0x13 4 (pol (fun i => held.getD i false) 1)
  (sets, [0, 1].foldl (fun s p => if pol beyond p then s.issueR r 0x2C 0x21 (routeNum r) 0 else s) s)

/-- The quality figures of a completed run or sweep are estimates that the manual does not state: free values
(OD 2190.20 to OD 2190.23, OD 2190.26, OD 2190.27). -/
def State.freshFigures (s : State) (r : Route) : State :=
  [0x20, 0x21, 0x22, 0x23, 0x26, 0x27].foldl (fun s sub =>
    let (v, s) := s.draw
    s.put (at100 0x2190 r) sub (v % 65536)) s

/-- What the end of a run or sweep reports: temperature, instant, count. -/
def State.runDone (s : State) (r : Route) : State :=
  let o := at100 0x2190 r
  let s := ((s.put o 0x11 (s.num o 0x10)).bump o 0x14 1).freshFigures r
  s.modCrx r (fun c => { c with lastRunNs := s.cyc })

/-- RANGE_SWEEP_COMPLETE (R128): all eight sets, VALID; step 3 of the route start goes on. -/
def doRangeSweepComplete (r : Route) (sets : List CorrSet) (s : State) : State :=
  let o := (s.route r).optics
  if o.start == some .dwell && !o.warm && !o.sweepDone then
    let x := s.limitSets r (eightSets sets) (fun _ => true)
    let s := x.2.modCrx r (fun c => { c with sets := x.1, oldSets := [] })
    let s := (s.runDone r).putBit (at100 0x2190 r) 0x13 0 true
    (s.modOptics r (fun o => { o with sweepDone := true })).startDwell r
  else s

def execRangeSweepComplete (r : Route) (sets : List CorrSet) (s : State) : Out := State.next (doRangeSweepComplete r sets s)

/-! ### Foreground runs (R125 to R127) -/

/-- Starts a foreground run. -/
def State.startRun (s : State) (r : Route) : State :=
  (s.modCrx r (fun c => { c with run := true, gathered := 0 })).putBit (at100 0x2190 r) 0x13 7 true

/-- Whether triggered runs are allowed (OD 2190.01). -/
def State.runsOn (s : State) (r : Route) : Bool := s.r100 r 0x2190 0x01 == 1

/-- A trigger of R126 other than a host request: no effect during a run. -/
def State.triggerRun (s : State) (r : Route) : State := if s.runsOn r && !(s.route r).crx.run then s.startRun r else s

/-- CRX_TEMPERATURE_READ (R126). The trigger compares with the last run or sweep and does not act before there has been one: VALID
(DESIGN CHOICE, assumption log 20). -/
def doCrxTemperatureRead (r : Route) (temp : Int) (s : State) : State :=
  let o := at100 0x2190 r
  let s := s.putI o 0x10 16 temp
  if bit (s.num o 0x13) 0 && decide (s.r100 r 0x2190 0x02 ≤ (temp - s.int o 0x11 16).natAbs) then s.triggerRun r else s

def execCrxTemperatureRead (r : Route) (temp : Int) (s : State) : Out := State.next (doCrxTemperatureRead r temp s)

/-- FOREGROUND_INTERVAL_EXPIRY (R126). -/
def doForegroundIntervalExpiry (r : Route) (s : State) : State := s.triggerRun r

def execForegroundIntervalExpiry (r : Route) (s : State) : Out := State.next (doForegroundIntervalExpiry r s)

/-- A write of OD 2190.05 (R126): starts a run, or is held during one. -/
def calibrationWrite (r : Route) (s : State) : Reply :=
  if !s.runsOn r then ⟨0, s, id⟩
  else if (s.route r).crx.run then ⟨0, s.putBit (at100 0x2190 r) 0x13 1 true, id⟩
  else ⟨0, s.startRun r, id⟩

/-- Whether injection windows are available on a route (R127). -/
def State.windowsOn (s : State) (r : Route) : Bool :=
  (s.route r).optics.launching && !s.launchFail r && s.aprState r != 3 && !(s.route r).optics.moving

/-- The set that a run measures (R125): the skew τ is (φ_outer - φ_inner) / (2π × 250 MHz), 16,000 steps of 0.25 ps to the turn, and the
phase imbalance that of the inner band less the part due to τ at its centre of 125 MHz, half of that difference. -/
def runSet (t : ToneFigures) : CorrSet :=
  let d := t.outer - t.inner
  { offsetI := t.offsetI, offsetQ := t.offsetQ, gainI := t.gainI, gainQ := t.gainQ,
    cross := Config.crossTerm (t.inner - rhu d 1) t.gainQ, skew := rhu (16000 * d) 32 }

/-- FOREGROUND_RUN_COMPLETE (R125): the run has gathered its windows. The sets of the range in force, the same change for the other
ranges; they await the frame boundary of R130, and a held request starts the next run. -/
def doForegroundRunComplete (r : Route) (x y : ToneFigures) (s : State) : State :=
  let c := (s.route r).crx
  if !c.run || !s.windowsOn r || decide (c.gathered < s.r100 r 0x2190 0x04) then s
  else
    let g := s.range r
    let cur := eightSets c.sets
    let new := (List.range 8).map (fun i =>
      let pol := i % 2
      let n := runSet (if pol = 0 then x else y)
      let o := setAt cur (i / 2) pol
      if i / 2 = g then n else shiftSet (setAt cur g pol) n o)
    let l := s.limitSets r new (fun _ => true)
    let o := at100 0x2190 r
    let s := l.2.modCrx r (fun c => { c with pendingSet := some (l.1, true), run := false, gathered := 0 })
    let s := ((s.runDone r).putBit o 0x13 7 false).putBit o 0x13 2 true
    if bit (s.num o 0x13) 1 then (s.putBit o 0x13 1 false).startRun r else s

def execForegroundRunComplete (r : Route) (x y : ToneFigures) (s : State) : Out := State.next (doForegroundRunComplete r x y s)

/-! ### Blind estimation (R129) -/

/-- Sums before any sample. -/
def BlindSum.zero : BlindSum :=
  { n := 0, si := 0, sq := 0, sii := 0, sqq := 0, siq := 0, power := 0, inner := ⟨0, 0⟩, outer := ⟨0, 0⟩ }

/-- The sums of a polarisation. -/
def Crx.blindOf (c : Crx) (pol : Nat) : BlindSum := c.blind.getD pol BlindSum.zero

/-- Whether the mean power of a period lies below -m dBFS: of a full-scale sine of a lane, 2^21 in squared codes (DESIGN CHOICE, assumption
log 20: R129 does not state the reference of its dBFS). -/
def lowPower (x y : BlindSum) (m : Nat) : Bool :=
  let n := 2 * (x.n + y.n)
  n == 0 || decide ((x.power + y.power) ^ 10 * 10 ^ m < (2 ^ 21 * n) ^ 10)

/-- What the blind estimator has accumulated, with the set in force, as the estimate takes it. -/
def BlindSum.figures (b : BlindSum) (x : CorrSet) : List Int :=
  [x.offsetI, x.offsetQ, x.gainI, x.gainQ, x.cross, x.skew, b.n, b.si, b.sq, b.sii, b.sqq, b.siq, b.inner.re, b.inner.im, b.outer.re, b.outer.im]

/-- The set that a blind period gives: offset, imbalance and skew from its sums, the gain k_ii as it stands (R129). -/
def estimateSet (b : BlindSum) (x : CorrSet) : CorrSet :=
  let e := Config.blindEstimate (b.figures x)
  { offsetI := sat (e 0) 16, offsetQ := sat (e 1) 16, gainI := x.gainI, gainQ := satU (e 2) 18, cross := sat (e 3) 18, skew := sat (e 4) 16 }

/-- The estimates of a period within the dead band change nothing; where they exceed a limit, the set in force is held there already:
LIMIT stands and a record is issued (R123, R130). -/
def State.noteLimits (s : State) (r : Route) (l : List CorrSet) (est : Nat → Bool) : State :=
  let o := at100 0x2190 r
  let beyond := fun (i : Nat) => est i && limitSet (l.getD i CorrSet.unit) != l.getD i CorrSet.unit
  [0, 1].foldl (fun (s : State) p =>
    let at' := (List.range 4).map (fun g => setIdx g p)
    if at'.any beyond then
      ((s.modCrx r (fun c => { c with held := (List.range 8).map (fun i => c.held.getD i false || (at'.contains i && beyond i)) })).putBit o
        0x13 (5 - p) true).issueR r 0x2C 0x21 (routeNum r) 0
    else s) s

/-- BLIND_PERIOD_END: an update of the range in force awaits its boundary unless it lies within the dead band or a
foreground set is due; a period of low power or with a range step is discarded. -/
def doBlindPeriodEnd (r : Route) (s : State) : State :=
  let c := (s.route r).crx
  let o := at100 0x2190 r
  if s.r100 r 0x2190 0x06 != 1 || !(s.route r).optics.launching || decide (c.blindFrames < s.r100 r 0x2190 0x07) then s
  else
    let drop := c.blindStep || lowPower (c.blindOf 0) (c.blindOf 1) (s.r100 r 0x2190 0x08)
    let s := s.modCrx r (fun c => { c with blindFrames := 0, blindStep := false, blind := [] })
    if drop then s.putBit o 0x13 6 true
    else
      let s := s.putBit o 0x13 6 false
      let g := s.range r
      let cur := eightSets c.sets
      let new := (List.range 8).map (fun i => let x := setAt cur (i / 2) (i % 2); if i / 2 = g then estimateSet (c.blindOf (i % 2)) x else x)
      let est := fun (i : Nat) => i / 2 == g
      let due := match c.pendingSet with
        | some (_, true) => true
        | _ => false
      let band := fun (p : Nat) => beyondBand (limitSet (setAt new g p)) (setAt cur g p)
      if due then s
      else if !(band 0 || band 1) then s.noteLimits r new est
      else
        let l := s.limitSets r new est
        (l.2.modCrx r (fun c => { c with pendingSet := some (l.1, false) })).putBit o 0x13 2 true

def execBlindPeriodEnd (r : Route) (_ _ _ : Unit) (s : State) : Out := State.next (doBlindPeriodEnd r s)

/-! ### Injection windows (R124) -/

/-- The instant by which the last return of a launch reaches the CRX balls, launch + O + c + RT + T_p (R124). -/
def State.returnsEnd (s : State) (r : Route) (l : Launch) : Int :=
  let c := s.sched r
  (l.ns : Int) + (s.r100 r 0x2150 0x03 : Nat) + l.c + (c.rt : Nat) + (c.tp : Nat)

/-- The injection window of a launch: its first and last instant (R124). -/
def State.injection (s : State) (r : Route) (l : Launch) : Int × Int := (s.returnsEnd r l + 1000, s.returnsEnd r l + 4095)

/-- The slots into which a group's window injects: those of the group, all four under plans 1x4 and W (R124). -/
def injectedSlots (c : Sched) (k : SchedKind) (group : Nat) : List Nat := if c.plan == 2 || c.plan == 3 then [0, 1, 2, 3] else c.slots k group

/-- The tones of a window in kHz from the carrier: 62.5 MHz below and above the centre of each of its slots, each at -20 dBFS of the range in
force (R51, R124). -/
def injectedTones (slots : List Nat) : List Int := slots.flatMap (fun j => [-437500 + 250000 * (j : Int), -312500 + 250000 * (j : Int)])

/-- A launch whose origin is known opens its injection window; the windows of the last 16 launches are held. -/
def State.openInjection (s : State) (r : Route) (l : Launch) : State :=
  let w : Injection :=
    { group := l.group, start := (s.injection r l).1, tones := injectedTones (injectedSlots (s.sched r) s.kind l.group), dbfs := -20 }
  s.modCrx r (fun c => { c with windows := (w :: c.windows).take 16 })

/-- Whether an instant lies in an injection window, 3,096 samples long. -/
def Crx.injecting (c : Crx) (t : Int) : Bool := c.windows.any (fun w => decide (w.start ≤ t) && decide (t ≤ w.start + 3095))

/-- Whether the lanes of a route are powered: the route is enabled in SENSE, SENTINEL or SURVEY, where alone a route start runs. At all other
times the route engine receives no samples of them (R109). -/
def State.crxPowered (s : State) (r : Route) : Bool := s.sensing && s.enabled r

/-! ### Frame boundary and shot boundary -/

/-- The sets that await a route frame boundary take effect there (R130): CAL_STEP for the launches whose returns
straddle it and for those launched at it. -/
def State.applySets (s : State) (r : Route) (ns : Nat) : State :=
  let c := (s.route r).crx
  match c.pendingSet with
  | none => s
  | some (sets, fg) =>
    let o := at100 0x2190 r
    let s := s.modCrx r (fun c => { c with
      oldSets := ((ns, c.sets) :: c.oldSets).take 4, sets := sets, pendingSet := none, calStepNs := some ns
      blindFrames := if fg then 0 else c.blindFrames, blindStep := !fg && c.blindStep, blind := if fg then [] else c.blind })
    let s := (s.bump o 0x15 1).putBit o 0x13 2 false
    let t := s
    s.modOptics r (fun o => { o with inFlight := o.inFlight.map (fun l =>
      if decide ((ns : Int) < t.returnsEnd r l) then { l with calStep := true } else l) })

/-- The CRX at a route frame boundary: pending sets, and one more frame of the blind period. -/
def State.crxBoundary (s : State) (r : Route) (ns : Nat) : State :=
  (s.modCrx r (fun c => { c with blindFrames := c.blindFrames + 1 })).applySets r ns

/-- A range step that takes effect with a shot (R117, R118): the range, the settling samples, GAIN_STEP for the
launches whose returns straddle it. A foreground run is abandoned and begins again at the next window (R126). -/
def State.stepRange (s : State) (r : Route) (range shot ns : Nat) : State :=
  let o := at100 0x2180 r
  let g := s.range r
  let s := (s.put o 0x10 range).bump o (if g < range then 0x12 else 0x11) 1
  let s := s.modCrx r (fun c => { c with
    pendingStep := none, stepShot := shot, lowRun := 0, steps := ((ns, range, g) :: c.steps).take 16, blindStep := true, gathered := 0 })
  let t := s
  s.modOptics r (fun o => { o with inFlight := o.inFlight.map (fun l =>
    if decide ((ns : Int) < t.returnsEnd r l) then { l with gainStep := true } else l) })

/-- The step due at the start of a shot; answers whether the shot launches at it. -/
def State.shotStep (s : State) (r : Route) (shot ns : Nat) : Bool × State :=
  match (s.route r).crx.pendingStep with
  | some (g, at') => if at' ≤ shot then (true, s.stepRange r g shot ns) else (false, s)
  | none => (false, s)

/-- The range in force at a ball instant; `g` is in force where no step is held. -/
def rangeAt (c : Crx) (g : Nat) (t : Int) : Nat :=
  match c.steps.find? (fun e => decide ((e.1 : Int) ≤ t)) with
  | some e => e.2.1
  | none => (c.steps.getLast?.map (·.2.2)).getD g

/-- The correction sets in force at a ball instant. -/
def setsAt (c : Crx) (t : Int) : List CorrSet :=
  c.oldSets.foldl (fun (acc : List CorrSet) (e : Nat × List CorrSet) => if t < (e.1 : Int) then e.2 else acc) c.sets

/-- Whether a ball instant lies in the eight settling samples of a range step (R117). -/
def settlingAt (c : Crx) (t : Int) : Bool := c.steps.any (fun e => decide ((e.1 : Int) ≤ t) && decide (t ≤ (e.1 : Int) + 7))

/-! ### BLANK (R120) -/

/-- BLANK_EDGE (R120). -/
def doBlankEdge (level : Bool) (s : State) : State := s.blankTo level

def execBlankEdge (level : Bool) (s : State) : Out := State.next (doBlankEdge level s)

/-- Whether a ball instant is blanked for a route (R120). -/
def State.blankedAt (s : State) (r : Route) (ns : Int) : Bool :=
  bit (s.num 0x2032 0x04) (routeNum r) &&
    (s.pins.blanked.any (fun e => decide ((e.1 : Int) ≤ ns) && decide (ns ≤ (e.2 : Int)))
      || (s.pins.blank && (s.pins.blankSeen || decide (s.num 0x2032 0x05 ≤ s.cyc - s.pins.blankSince))
            && decide ((s.pins.blankSince : Int) - (s.num 0x2032 0x02 : Nat) ≤ ns)))

end Sys2Proof.Machine
end

