-- ==== Sys2Proof/Machine/Channel.lean ====
section
/-! DEFINITION. From CRX codes to the channels of a launch: corrected samples (R112), the skew filter (R113), the channeliser (R135 to
R138), and the window power of power reduction (R97). -/

namespace Sys2Proof.Machine

open Sys2Proof

/-! ### Complex integers -/

/-- a × conj(b). -/
def Cpx.mulConj (a b : Cpx) : Cpx := ⟨a.re * b.re + a.im * b.im, a.im * b.re - a.re * b.im⟩

/-- Sum of complex integers. -/
def Cpx.add (a b : Cpx) : Cpx := ⟨a.re + b.re, a.im + b.im⟩

/-- Zero. -/
def Cpx.zero : Cpx := ⟨0, 0⟩

/-- Sum of a list. -/
def sumC (l : List Cpx) : Cpx := l.foldl Cpx.add Cpx.zero

/-- Squared magnitude. -/
def Cpx.norm (a : Cpx) : Nat := (a.re * a.re + a.im * a.im).toNat

/-- Both components saturated. -/
def Cpx.sat (a : Cpx) (w : Nat) : Cpx := ⟨Machine.sat a.re w, Machine.sat a.im w⟩

/-- Both components rounded. -/
def Cpx.rhu (a : Cpx) (f : Nat) : Cpx := ⟨Machine.rhu a.re f, Machine.rhu a.im f⟩

/-- The greater of the magnitudes of the components. -/
def Cpx.mag (a : Cpx) : Nat := Nat.max a.re.natAbs a.im.natAbs

/-! ### Reading a launch's configuration -/

/-- The configuration that a launch was made under: the old one for launches before a change still in flight (R62). -/
def State.cfgAt (s : State) (r : Route) (seq : Nat) : Nat → Val :=
  match (s.route r).oldCfg with
  | some (n, d) => if seq < n then dictGet d else s.cfgOf r
  | none => s.cfgOf r

/-- The numbers of the configuration that a launch was made under. -/
def State.readAt (s : State) (r : Route) (seq : Nat) : CfgRead := fun i j => (s.cfgAt r seq (objKey i j)).toNat

/-! ### Corrected samples (R107, R111 to R113, R117, R119, R120) -/

/-- The raw codes at an instant counted from the range origin; the list starts 128 ns before it. -/
def rawAt (raw : List RawSample) (n : Int) : RawSample :=
  if n < -128 then ⟨0, 0, 0, 0⟩ else raw.getD (n + 128).toNat ⟨0, 0, 0, 0⟩

/-- A clipped code (R119). -/
def isClip (c : Int) : Bool := c == -2048 || c == 2047

/-- Whether a sample carries the clip mark. -/
def clipAt (raw : List RawSample) (n : Int) : Bool :=
  let x := rawAt raw n
  isClip x.xi || isClip x.xq || isClip x.yi || isClip x.yq

/-- The in-phase or quadrature code of a polarisation. -/
def laneCode (x : RawSample) (pol : Nat) (q : Bool) : Int :=
  if pol = 0 then (if q then x.xq else x.xi) else (if q then x.yq else x.yi)

/-- The Hann window x samples from its centre, x in 1/4,000 of a sample, in 96 fractional bits: (1 + cos(2πx / width)) / 2 within the
width, 0 beyond it. R113 names no width. -/
def hann (width : Nat) (x : Int) : Int :=
  let n := 4000 * Nat.max width 1
  if 2 * x.natAbs < n then (2 ^ 96 + cos96 x.natAbs n) / 2 else 0

/-- Tap t of the sinc of R113 under its window, up to a factor common to all taps: sin(π(n - a)) is ± sin(πa) at every n = t - 3, so a
tap is (-1)^n times the window over n - a, with a the skew in 0.25 ps, 1/4,000 of a sample. -/
def skewTerm (width : Nat) (skew : Int) (t : Nat) : Int :=
  let x : Int := 4000 * ((t : Int) - 3) - skew
  (if t % 2 = 1 then 1 else -1) * hann width x * 2 ^ 20 / x

/-- Skew tap t of a correction set (R113): normalised to a sum of 131,072 and rounded. -/
def skewTapOf (x : CorrSet) (t : Nat) : Int :=
  if x.skew = 0 then (if t = 3 then 131072 else 0)
  else
    let term := skewTerm Config.hannWidth x.skew
    let d := sumI ((List.range 8).map term)
    if 0 < d then rhuDiv (131072 * term t) d else rhuDiv (-(131072 * term t)) (-d)

/-- What a launch's samples are formed from: CRX state, launch, range origin, codes, blanked ball instants. -/
structure Front where
  crx : Crx
  range : Nat
  origin : Int
  raw : List RawSample
  blank : Int → Bool

/-- The correction set of a polarisation at an instant after the range origin. -/
def Front.set (f : Front) (pol : Nat) (n : Int) : CorrSet :=
  setAt (setsAt f.crx (f.origin + n)) (rangeAt f.crx f.range (f.origin + n)) pol

/-- A code with its offset removed and referred to range 3 (stages 2 and 3). -/
def Front.referred (f : Front) (pol : Nat) (q : Bool) (n : Int) : Int :=
  let x := f.set pol n
  (16 * laneCode (rawAt f.raw n) pol q - (if q then x.offsetQ else x.offsetI))
    * 2 ^ (3 - rangeAt f.crx f.range (f.origin + n))

/-- The corrected complex sample of a polarisation at an instant after the range origin (R112). -/
def Front.sample (f : Front) (pol : Nat) (n : Int) : Cpx :=
  if f.blank (f.origin + n) then Cpx.zero
  else
    let x := f.set pol n
    let ui := f.referred pol false n
    let uqd := rhu (sumI ((List.range 8).map (fun t => skewTapOf x t * f.referred pol true (n + 3 - t)))) 17
    ⟨sat (rhu ((x.gainI : Int) * ui) 20) 16, sat (rhu ((x.gainQ : Int) * uqd + x.cross * ui) 20) 16⟩

/-! ### Channeliser (R135 to R138) -/

/-- The first 49 of the 97 taps, in s18.17 (R136). -/
def chanTaps : List Int :=
  [0, -4, -9, -9, 0, 16, 31, 28, 0, -44, -77, -66, 0, 96, 162, 136, 0, -186, -305, -250, 0, 329, 532, 428]
  ++ [0, -549, -876, -697, 0, 880, 1395, 1105, 0, -1388, -2201, -1749, 0, 2228, 3580, 2897, 0, -3912, -6583, -5681]
  ++ [0, 9701, 20736, 29458, 32768]

/-- Tap t of the channeliser filter. -/
def chanTap (t : Nat) : Int := chanTaps.getD (if 48 < t then 96 - t else t) 0

/-- The mixer coefficient of a whole number of eighths of a turn, in s17.15. -/
def eighth (a : Int) : Int :=
  match (a % 8).toNat with
  | 0 => 32768
  | 1 => 23170
  | 2 => 0
  | 3 => -23170
  | 4 => -32768
  | 5 => -23170
  | 6 => 0
  | _ => 23170

/-- The frequency of a slot in eighths of a turn per sample. -/
def slotEighths (slot : Nat) : Int :=
  match slot with
  | 0 => -3
  | 1 => -1
  | 2 => 1
  | _ => 3

/-- v[n] of R135: a sample times exp(-j 2π f n). -/
def mix (slot : Nat) (n : Int) (u : Cpx) : Cpx :=
  let a := -(slotEighths slot * n)
  let co := eighth a
  let si := eighth (a - 2)
  ⟨rhu (u.re * co - u.im * si) 15, rhu (u.re * si + u.im * co) 15⟩

/-- The stage 1 output of a slot at instant 4n after the range origin, from the samples of one polarisation. -/
def chanOut (slot : Nat) (u : Int → Cpx) (n : Int) : Cpx :=
  let y := sumC ((List.range 97).map (fun (t : Nat) =>
    let k := 4 * n + 48 - (t : Int)
    let v := mix slot k (u k)
    (⟨chanTap t * v.re, chanTap t * v.im⟩ : Cpx)))
  (y.rhu 15).sat 18

/-- The range origin of a launch (R93, R176). -/
def originOf (get : CfgRead) (r : Route) (l : Launch) : Int :=
  (l.ns : Int) + (get (at100 0x2150 r) 0x03 : Nat) + l.c + (if r == .b && get 0x2000 0x03 == 1 then (loopA get : Int) else 0)

/-! ### The stage 1 samples and the window power of a launch (R97, R135, R138) -/

/-- The index of the range origin in stage 1 lists: they start δ samples before it (R139, R140). -/
def stageDelay (plan : Nat) : Nat := if plan = 3 then 0 else 12

/-- A stage 1 sample: the channeliser's output of a slot, or the sample itself referred to its scale under plan W. -/
def stage1 (plan slot : Nat) (u : Int → Cpx) (n : Int) : Cpx :=
  if plan = 3 then (let x := u n; ⟨4 * x.re, 4 * x.im⟩) else chanOut slot u n

/-- The samples a launch is processed from: its origin, the codes from 128 ns before it, blanked instants. -/
def State.front (s : State) (r : Route) (l : Launch) (raw : List RawSample) : Front :=
  { crx := (s.route r).crx, range := l.range, origin := originOf (s.readAt r l.seq) r l, raw := raw, blank := s.blankedAt r }

/-- The window power of a launch (R97): I² + Q² over both polarisations of the slot channels of its group, at the round-trip samples of
bins `first` to `last`, in u64. -/
def windowPower (c : Sched) (k : SchedKind) (group : Nat) (f : Front) (first last : Nat) : Nat :=
  Nat.min (2 ^ 64 - 1) (sumN ((c.slots k group).flatMap (fun j => [0, 1].flatMap (fun pol =>
    (List.range (last + 1 - first)).map (fun i => (stage1 c.plan j (f.sample pol) (first + i : Nat)).norm)))))

end Sys2Proof.Machine
end

