-- ==== Sys2Proof/Machine/Agc.lean ====
section
/-! DEFINITION. The statistics interval of a shot (R114): clipped samples (R119), the decision of the AGC (R115), the sums of the blind
estimator (R129) and the injection windows that a foreground run gathers (R125). -/

namespace Sys2Proof.Machine

open Sys2Proof

/-- The four codes of a sample. -/
def rawCodes (x : RawSample) : List Int := [x.xi, x.xq, x.yi, x.yq]

/-- The samples of both polarisations of a route, lane by lane. -/
def joinLanes (x y : List LaneSample) : List RawSample := List.zipWith (fun a b => ⟨a.i, a.q, b.i, b.q⟩) x y

/-- Codes with the instants at which they were sampled, from `t0` on. -/
def sampled (t0 : Nat) (raw : List RawSample) : List (Int × RawSample) :=
  (raw.zip (List.range raw.length)).map (fun e => ((t0 : Int) + e.2, e.1))

/-- Whether a sample lies within the AGC exclusion after a launch: the samples from the launch instant on (R114). -/
def excluded (launches : List Nat) (excl : Nat) (t : Int) : Bool := launches.any (fun a => decide ((a : Int) ≤ t) && decide (t < (a : Int) + excl))

/-- Whether a sample serves neither the AGC nor the blind estimator: blanked, settling, or inside an injection window (R114, R121, R129). -/
def State.leftOut (s : State) (r : Route) (t : Int) : Bool :=
  let c := (s.route r).crx
  s.blankedAt r t || settlingAt c t || c.injecting t

/-- The launch instants of the interval of a shot whose group 0 was launched at `t0`. -/
def intervalLaunches (c : Sched) (t0 : Nat) : List Nat := (List.range (Nat.max c.g 1)).map (fun g => t0 + launchOffset c false g)

/-- The statistics of an interval: peak magnitude and clipped codes over the samples that count (R114). -/
def agcStatistics (l : List (Int × RawSample)) (out : Int → Bool) : Nat × Nat :=
  let codes := (l.filter (fun e => !out e.1)).flatMap (fun e => rawCodes e.2)
  (maxN (codes.map Int.natAbs), (codes.filter isClip).length)

/-- The decision of the AGC from the statistics of the interval of shot k (R115): a step takes effect two shots after its start. Intervals
that began before a step, or with one pending, decide nothing, and in mode 0 the range never steps. OD 2180.14 takes the peak of every interval,
also where nothing is decided (DESIGN CHOICE, assumption log 20: which interval counts as evaluated is not said). -/
def State.agcDecide (s : State) (r : Route) (k peak clips : Nat) : State :=
  let o := at100 0x2180 r
  let c := (s.route r).crx
  let s := s.put o 0x14 peak
  if s.cfg r o 0x01 != 1 || c.pendingStep.isSome || decide (k < c.stepShot) then s
  else
    let g := s.range r
    if decide (s.cfg r o 0x05 ≤ clips) && decide (s.cfg r o 0x03 < g) then
      s.modCrx r (fun c => { c with pendingStep := some (g - 1, k + 2), lowRun := 0 })
    else if peak ≤ s.cfg r o 0x06 then
      let n := c.lowRun + 1
      if decide (s.cfg r o 0x07 ≤ n) && decide (g < s.cfg r o 0x04) then
        s.modCrx r (fun c => { c with pendingStep := some (g + 1, k + 2), lowRun := 0 })
      else s.modCrx r (fun c => { c with lowRun := n })
    else s.modCrx r (fun c => { c with lowRun := 0 })

/-- Adds an interval to the sums of a polarisation (R129); `use` tells the samples that count, by their instants after the interval's
start. The correlations between +f and -f are those of the channels of opposite slots (DEDUCED, assumption log 20). -/
def BlindSum.addInterval (b : BlindSum) (f : Front) (pol n : Nat) (use : Int → Bool) : BlindSum :=
  let at' := (List.range n).filter (fun i => use (i : Int))
  let zs := at'.map (fun i => f.sample pol (i : Int))
  let codes := at'.map (fun i => let x := rawAt f.raw (i : Int); (laneCode x pol false, laneCode x pol true))
  let quarter := ((List.range (cdiv n 4)).map (fun m => ((m : Nat) : Int))).filter (fun m => use (4 * m))
  let pair := fun (a c : Nat) => sumC (quarter.map (fun m =>
    let p := chanOut a (f.sample pol) m
    let q := chanOut c (f.sample pol) m
    (⟨p.re * q.re - p.im * q.im, p.re * q.im + p.im * q.re⟩ : Cpx)))
  { n := b.n + zs.length, si := b.si + sumI (zs.map (·.re)), sq := b.sq + sumI (zs.map (·.im)),
    sii := b.sii + sumN (zs.map (fun z => (z.re * z.re).toNat)), sqq := b.sqq + sumN (zs.map (fun z => (z.im * z.im).toNat)),
    siq := b.siq + sumI (zs.map (fun z => z.re * z.im)),
    power := b.power + sumN (codes.map (fun c => (c.1 * c.1 + c.2 * c.2).toNat)),
    inner := b.inner.add (pair 2 1), outer := b.outer.add (pair 3 0) }

/-- The blind estimator takes an interval that began at `t0` (R129). -/
def State.blindInterval (s : State) (r : Route) (t0 : Nat) (raw : List RawSample) : State :=
  let c := (s.route r).crx
  let f : Front := { crx := c, range := s.range r, origin := (t0 : Int), raw := List.replicate 128 ⟨0, 0, 0, 0⟩ ++ raw, blank := s.blankedAt r }
  let use := fun (pol : Nat) (n : Int) =>
    let x := rawAt f.raw n
    !s.leftOut r (t0 + n) && !isClip (laneCode x pol false) && !isClip (laneCode x pol true)
  s.modCrx r (fun c => { c with blind := [0, 1].map (fun pol => (c.blindOf pol).addInterval f pol raw.length (use pol)) })

/-- The injection windows that ended within an interval and hold a sample that is not blanked are gathered by the run in progress, but not one that began before
the last range step, which restarts the run at the next window (R126; R121,
R125, R127). -/
def State.gatherWindows (s : State) (r : Route) (t0 n : Nat) : State :=
  let c := (s.route r).crx
  let whole := fun (w : Injection) => match c.steps.head? with
    | some e => decide ((e.1 : Int) ≤ w.start)
    | none => true
  let ended := c.windows.filter (fun w => decide ((t0 : Int) ≤ w.start + 3095) && decide (w.start + 3095 < ((t0 + n : Nat) : Int)) && whole w
    && (List.range 3096).any (fun i => !s.blankedAt r (w.start + ((i : Nat) : Int))))
  if c.run && s.windowsOn r then s.modCrx r (fun c => { c with gathered := c.gathered + ended.length }) else s

/-- AGC_INTERVAL_END (R114, R115): the interval of the shot that has just run. Every clipped code is counted (R119); a route that has
stopped launching decides no step. -/
def doAgcIntervalEnd (r : Route) (x y : List LaneSample) (s : State) : State :=
  let raw := joinLanes x y
  let o := (s.route r).optics
  if !s.crxPowered r || o.shot == 0 then s
  else
    let c := s.sched r
    let t0 := o.shotNs + launchOffset c (s.loopGuard && r == .b) 0
    let l := sampled t0 raw
    let s := s.bump (at100 0x2180 r) 0x13 ((raw.flatMap rawCodes).filter isClip).length
    let s := (s.gatherWindows r t0 raw.length).blindInterval r t0 raw
    if !o.launching then s
    else
      let x := agcStatistics l (fun t => excluded (intervalLaunches c t0) (s.r100 r 0x2180 0x08) t || s.leftOut r t)
      s.agcDecide r (o.shot - 1) x.1 x.2

def execAgcIntervalEnd (r : Route) (x y : List LaneSample) (s : State) : Out := State.next (doAgcIntervalEnd r x y s)

end Sys2Proof.Machine
end

