-- ==== Sys2Proof/Machine/Optics.lean ====
section
/-! DEFINITION. Probe drive and optical control (03_probe_drive.md): the steps of a route start, launches, the launch
monitor (R92 to R96), automatic power reduction (R97 to R100) and the Raman pump drive (R102). -/

namespace Sys2Proof.Machine

open Sys2Proof

/-! ### Route start and pump -/

/-- SWITCH_DWELL_EXPIRY (R89, step 3). -/
def doSwitchDwellExpiry (r : Route) (s : State) : State :=
  if (s.route r).optics.start == some .dwell then
    (s.modOptics r (fun o => { o with dwellDone := true })).startDwell r
  else s

def execSwitchDwellExpiry (r : Route) (s : State) : Out := State.next (doSwitchDwellExpiry r s)

/-- STARTING becomes NORMAL (R98). -/
def State.toNormal (s : State) (r : Route) : State :=
  (s.setApr r 0).modOptics r (fun o => { o with badRun := 0, goodRun := 0 })

/-- PUMP_RAMP_COMPLETE (R87, R98): the lane is at its target code; step 4 of a route start ends, or STARTING becomes
NORMAL. -/
def doPumpRampComplete (r : Route) (s : State) : State :=
  let o := (s.route r).optics
  match o.ramp with
  | none => s
  | some target =>
    let s := (s.setPump r target).modOptics r (fun o => { o with ramp := none })
    if o.start == some .ramp then s.launchesBegin r
    else if s.aprState r == 1 && target == s.normalCode r then
      s.toNormal r
    else s

def execPumpRampComplete (r : Route) (s : State) : Out := State.next (doPumpRampComplete r s)

/-- SWITCH_OSW_CHANGE (R62, R91): at t_c + RT + guard, the returns processed, the route starts from step 1; the first
frame carries CONFIG_CHANGE. -/
def doSwitchOswChange (r : Route) (s : State) : State :=
  let o := (s.route r).optics
  if o.moving && o.inFlight.isEmpty && (s.route r).ray.handoff.isNone && s.sensing && s.enabled r && !s.launchFail r then
    (s.modOptics r (fun o => { o with moving := false, configChange := true })).startRoute r true
  else s

def execSwitchOswChange (r : Route) (s : State) : Out := State.next (doSwitchOswChange r s)

/-! ### Launches (R50 to R53, R84) -/

/-- Whether a launch is made at the APR level: the pump lane is not at the normal code (R97). -/
def State.atApr (s : State) (r : Route) : Bool := s.pump r != s.normalCode r

/-- A launch as it is made: number, shot, group, instant, level, range, origin correction and flags. -/
def State.mkLaunch (s : State) (r : Route) (group shot ns : Nat) (stepped : Bool) : Launch :=
  let o := (s.route r).optics
  let cal := match (s.route r).crx.calStepNs with
    | some t => decide (t ≤ ns)
    | none => false
  let flags := s.timeFlags ||| (if s.aprState r != 0 then 2 ^ 13 else 0) ||| (if o.configChange then 2 ^ 11 else 0)
  { seq := o.launchSeq, shot := shot, group := group, ns := ns, apr := s.atApr r, aprState := s.aprState r, range := s.range r,
    c := s.int (at100 0x2150 r) 0x11 16, edge := false, closed := false, missing := false, judged := false,
    compressed := false, gainStep := stepped, calStep := cal, flags := flags, cseq := s.cseq r, bound := s.bound r }

/-- The flags that a launch brings to its frames beside those of its updates: its own, CAL_STEP and GAIN_STEP (R118, R130, R234). -/
def Launch.frameFlags (l : Launch) : Nat := l.flags ||| (if l.calStep then 8 else 0) ||| (if l.gainStep then 32 else 0)

/-- PROBE_LAUNCH (R52, R53, R80 to R84): the waveform of the group leaves the MOD DACs at its launch instant. Group 0
begins a shot, with which a range step takes effect. -/
def doProbeLaunch (r : Route) (group : Fin 4) (s : State) : State :=
  let o := (s.route r).optics
  let c := s.sched r
  let full := o.shot != 0 && o.shotNs + c.t == o.frameNs + c.frame
  if !o.launching || o.moving || group.val != o.launchSeq % Nat.max c.g 1 || (group.val == 0 && full) then s
  else
    let s := s.rotateSlices
    let first := group.val == 0
    let shot := if first then o.shot else o.shot - 1
    let t0 := if first then o.frameNs + (shot % Nat.max c.f 1) * c.t else o.shotNs
    let ns := t0 + launchOffset c (s.loopGuard && r == .b) group.val
    let st := if first then s.shotStep r shot ns else (false, s)
    let s := st.2
    let l := s.mkLaunch r group.val shot ns st.1
    let s := s.modOptics r (fun o => { o with
      shot := if first then o.shot + 1 else o.shot, shotNs := t0, launchSeq := o.launchSeq + 1
      inFlight := o.inFlight ++ [l], configChange := false, frameFlags := o.frameFlags ||| l.frameFlags
      frameFirst := if o.frameFirst.isSome then o.frameFirst else some (l.ns, l.bound) })
    let s := s.modCrx r (fun x => { x with calStepNs := if l.calStep then none else x.calStepNs })
    s.emit (.probe r group.val ns (waveform (s.read r) s.kind r group.val))

def execProbeLaunch (r : Route) (group : Fin 4) (s : State) : Out := State.next (doProbeLaunch r group s)

/-! ### Raman blocks and LOOP_SINGLE (R181, R192) -/

/-- Where the Raman block in progress ends: at its scheduled boundary, or where a commit cut it (R192, R194). -/
def State.blockStop (s : State) (r : Route) : Nat :=
  let t := (s.route (s.gov r)).thermal
  match t.cut with
  | some c => c.1
  | none => t.blockNs + s.ramanShots r * (s.sched r).t

/-- Updates the Raman block of an end to which an instant belongs: the one in progress, or the one after it (R192). -/
def State.modBlock (s : State) (r : Route) (ns : Nat) (f : RamanBlock → RamanBlock) : State :=
  let inside := decide (ns < s.blockStop r)
  s.modThermal r (fun t => if inside then { t with block := f t.block } else { t with next := f t.next })

/-- Whether an end of a loop is out of service or in APR_HOLD (R181). -/
def State.loopSingle (s : State) : Bool := s.loopGuard && [Route.a, Route.b].any (fun q => !s.inService q || s.aprState q == 2)

/-- While an end is out of service or in APR_HOLD, the Raman and quasi-static frames in progress carry LOOP_SINGLE (R181). -/
def State.noteSingle (s : State) (ns : Nat) : State :=
  if s.loopSingle then
    (s.modBlock .a ns (fun b => { b with flags := b.flags ||| 2 ^ 8 })).modThermal .a (fun t => { t with qFlags := t.qFlags ||| 2 ^ 8 })
  else s

/-! ### Launch monitor (R92 to R96) -/

/-- Updates the oldest launch in flight that satisfies a test. -/
def updFirst (p : Launch → Bool) (f : Launch → Launch) : List Launch → List Launch
  | [] => []
  | l :: t => if p l then f l :: t else l :: updFirst p f t

/-- The oldest launch whose edge window is open. -/
def openWindow (l : List Launch) : Option Launch := l.find? (fun x => !x.closed)

/-- The origin correction after an edge (R93). -/
def originCorrection (seen : Bool) (c delta : Int) : Int :=
  let e := delta - 128 * c
  if !seen || decide (96 < e) || decide (e < -96) then rhu delta 7 else c

/-- The instant of a TAP edge after a launch in 2^-7 ns, as the TDC stamps it on the channel of the route (R92, R355, R357). -/
def State.tapOffset (s : State) (r : Route) (l : Launch) (e : TapEdge) : Int × State :=
  let x := s.tapTime (routeNum r) e.tap
  (rhu (s.stampOf ((l.ns : Int) + e.ns).toNat + x.1 - Config.tdcLatency - s.stampOf l.ns) 9, x.2)

/-- TAP_EDGE (R92, R93): the first edge in the window of the oldest launch gives δ and moves c; every other edge is
spurious. -/
def doTapEdge (r : Route) (edge : TapEdge) (s : State) : State :=
  let i := at100 0x2150 r
  let o := (s.route r).optics
  match openWindow o.inFlight with
  | some l =>
    let x := s.tapOffset r l edge
    let delta := x.1 - 128 * (s.r100 r 0x2150 0x01 : Nat)
    let inside := decide (delta.natAbs ≤ 128 * s.r100 r 0x2150 0x02)
    let s := x.2
    if l.edge || !inside then s.bump i 0x13 1
    else
      let c := originCorrection o.edgeSeen (s.int i 0x11 16) delta
      let s := (s.putI i 0x10 32 delta).putI i 0x11 16 c
      s.modOptics r (fun o => { o with
        edgeSeen := true, missRun := 0
        inFlight := updFirst (fun x => !x.closed) (fun x => { x with edge := true, c := c }) o.inFlight })
  | none => (s.tapTime (routeNum r) edge.tap).2.bump i 0x13 1

def execTapEdge (r : Route) (edge : TapEdge) (s : State) : Out := State.next (doTapEdge r edge s)

/-- The bit of Table 17.6 for LAUNCH of a route. -/
def launchBit (r : Route) : Nat := 11 + routeNum r

/-- A route leaves service with its safe subset: LAUNCH_FAIL (R95). An end of a loop still gives the launches in flight, the missing
ones as lost updates (R94, R181). -/
def State.failLaunch (s : State) (r : Route) : State :=
  let s := ((s.put (at100 0x2150 r) 0x14 1).issueR r 0x30 0x20 (routeNum r) 0).latch [launchBit r]
  let s := if s.loopGuard then (s.endLaunches r).modOptics r (fun o => { o with moving := false }) else (s.dropRoute r).clearFrames r
  (((s.routeSafe r).surveyFail 3).surveyIfReady.noteSingle s.cyc).driveFault.safeIfNoRoute

/-- TAP_WINDOW_CLOSE (R94 to R96): a launch without an edge is missing in NORMAL, judged by the power-reduction state at the close of its
window (DESIGN CHOICE, assumption log 19); at the limit the route fails. -/
def doTapWindowClose (r : Route) (s : State) : State :=
  let i := at100 0x2150 r
  match openWindow (s.route r).optics.inFlight with
  | none => s
  | some l =>
    let miss := !l.edge && s.aprState r == 0
    let c := s.int i 0x11 16
    let s := s.modOptics r (fun o => { o with
      missRun := if miss then o.missRun + 1 else o.missRun
      inFlight := updFirst (fun x => !x.closed) (fun x =>
        { x with closed := true, missing := miss, c := if x.edge then x.c else c }) o.inFlight })
    let s := s.openInjection r { l with c := if l.edge then l.c else c }
    if miss then
      let s := s.bump i 0x12 1
      if !s.launchFail r && decide (s.r100 r 0x2150 0x04 ≤ (s.route r).optics.missRun) then s.failLaunch r else s
    else s

def execTapWindowClose (r : Route) (s : State) : Out := State.next (doTapWindowClose r s)

/-! ### Automatic power reduction (R97 to R100) -/

/-- A trip (R98, R99): APR_HOLD at the APR code, or RESTORE_ONLY with the lane at zero and no scheduled launch; DTSP is
held low. -/
def State.tripApr (s : State) (r : Route) : State :=
  let s := ((s.issueR r 0x31 0x20 (routeNum r) 0).setDtsp r false).surveyFail 2
  let s := s.modOptics r (fun o => { o with ramp := none, badRun := 0, goodRun := 0, eligible := false })
  if s.r100 r 0x2160 0x04 == 1 then
    ((((((s.setApr r 3).setPump r 0).dropRoute r).modOptics r (fun o => { o with silent := 0 })).clearFrames r).noteSingle s.cyc).surveyIfReady
  else ((((s.setApr r 2).setPump r (s.aprCode r)).bump (at100 0x2160 r) 0x12 1).noteSingle s.cyc).surveyIfReady

/-- The return to normal of an eligible route (R98, R100): from APR_HOLD by the ramp of STARTING, from RESTORE_ONLY by
a route start that is never warm. -/
def State.returnApr (s : State) (r : Route) : State :=
  let s := s.modOptics r (fun o => { o with eligible := false, restoreHeld := false, badRun := 0, goodRun := 0 })
  if s.aprState r == 2 then (s.setApr r 1).beginRamp r (s.normalCode r)
  else if s.aprState r == 3 then s.startRoute r false
  else s

/-- An eligible route that is enabled returns when automatic restore is set or a request is held, in a mode that launches probes and with a
Keeper in authority (R33, R98, R106). -/
def State.tryReturn (s : State) (r : Route) : State :=
  let o := (s.route r).optics
  if s.sensing && s.enabled r && !s.power.dead && (o.launching || s.aprState r == 3) && o.eligible && (s.r100 r 0x2160 0x06 == 1 || o.restoreHeld) then s.returnApr r else s

/-- The transitions of R98 on a judged launch. In STARTING two launches in a row start the ramp; a lane that is at the normal code
already has no ramp to run (DEDUCED, assumption log 19). -/
def State.aprStep (s : State) (r : Route) (l : Launch) (deficient : Bool) : State :=
  let o := (s.route r).optics
  match s.aprState r with
  | 0 =>
    let n := if deficient then o.badRun + 1 else 0
    let s := s.modOptics r (fun o => { o with badRun := n })
    if 2 ≤ n then s.tripApr r else s
  | 1 =>
    if deficient then s.tripApr r
    else
      let n := o.goodRun + 1
      let s := s.modOptics r (fun o => { o with goodRun := n })
      if n < 2 || o.ramp.isSome then s
      else if s.atApr r then s.beginRamp r (s.normalCode r)
      else s.toNormal r
  | _ =>
    let n := if deficient || !l.apr then 0 else o.goodRun + 1
    let s := s.modOptics r (fun o => { o with goodRun := n, eligible := decide (2 ≤ n) })
    s.tryReturn r

/-- A restoration probe has been judged: the lane is at zero until the next (R100). -/
def State.probeOver (s : State) (r : Route) : State :=
  if (s.route r).optics.probe then (s.setPump r 0).modOptics r (fun o => { o with probe := false }) else s

/-- APR_DECISION (R97, R98): the window power of the oldest launch not yet judged, against the threshold of the level it was launched
at, on the tables of its launch (R62). -/
def aprDecision (r : Route) (raw : List RawSample) (s : State) : State :=
  match (s.route r).optics.inFlight.find? (fun x => !x.judged) with
  | none => s
  | some l =>
    let get := s.readAt r l.seq
    let g := registrationIn (s.cfgAt r l.seq) r (s.osw r)
    let power := windowPower (mkSched get s.kind r) s.kind l.group (s.front r l raw) g.firstBin g.lastBin
    let s := (s.modOptics r (fun o => { o with
      inFlight := (updFirst (fun x => !x.judged) (fun x => { x with judged := true }) o.inFlight).filter
        (fun x => !(x.compressed && x.judged)) })).probeOver r
    if !s.aprOn r || get (at100 0x2160 r) 0x01 != 1 then s
    else
      let s := s.put (at100 0x2160 r) 0x11 power
      let th := theta (if l.apr then g.pa else g.pn) (get (at100 0x2160 r) 0x03)
      s.aprStep r l (decide (power < th))

/-- The judged launch is the last that a transition may wait for (R439). -/
def doAprDecision (r : Route) (raw : List RawSample) (s : State) : State := (aprDecision r raw s).finishIfQuiet

def execAprDecision (r : Route) (raw : List RawSample) (s : State) : Out := State.next (doAprDecision r raw s)

/-- RESTORATION_PROBE (R100): one group 0 waveform of an enabled route at the APR level, with a Keeper in authority (R33). The lane holds the APR code until the probe has been judged
(DESIGN CHOICE, assumption log 19). The returns serve power reduction alone. -/
def doRestorationProbe (r : Route) (s : State) : State :=
  if s.aprState r == 3 && s.sensing && s.enabled r && !s.power.dead && (s.route r).optics.start.isNone then
    let l := { s.mkLaunch r 0 (s.route r).optics.shot s.cyc false with apr := true, compressed := true }
    let s := (s.setPump r (s.aprCode r)).emit (.probe r 0 s.cyc (waveform (s.read r) s.kind r 0))
    s.modOptics r (fun o => { o with probe := true, inFlight := o.inFlight ++ [l] })
  else s

def execRestorationProbe (r : Route) (s : State) : Out := State.next (doRestorationProbe r s)

/-- A write of OD 2160.07 (R98): one return, held until the route is eligible. -/
def restoreWrite (r : Route) (s : State) : Reply :=
  ⟨0, (s.modOptics r (fun o => { o with restoreHeld := true })).tryReturn r, id⟩

/-! ### Raman pump drive (R102) -/

/-- Whether the shot in progress is one in which DTSP of the route is scheduled: the first of a run of K, and under
Loop Guard of a run of the route's parity. -/
def State.ramanDue (s : State) (r : Route) : Bool :=
  let o := (s.route r).optics
  let k := Nat.max (s.g100 r 0x2170 0x02) 1
  let n := o.shot - 1
  s.mode == 4 && s.g100 r 0x2170 0x01 == 1 && s.enabled r && o.shot != 0 && n % k == 0
    && decide (o.ramanRun ≤ n / k) && (!s.loopGuard || n / k % 2 == routeNum r)

/-- RAMAN_PULSE (R102, R193): DTSP rises in NORMAL; a scheduled pulse that does not fire counts as missing. -/
def doRamanPulse (r : Route) (s : State) : State :=
  if !s.ramanDue r then s
  else
    let o := (s.route r).optics
    let k := Nat.max (s.g100 r 0x2170 0x02) 1
    let fire := s.aprState r == 0 && o.launching && !o.moving && !s.power.safeRequest
    let s := s.modOptics r (fun o => { o with ramanRun := (o.shot - 1) / k + 1 })
    let t0 := o.shotNs + launchOffset (s.sched r) (s.loopGuard && r == .b) 0
    let fl := s.timeFlags ||| (if s.aprState r != 0 then 2 ^ 13 else 0)
    let d := s.bound r
    let s := (s.modBlock r t0 (fun b => { b with
      scheduled := b.scheduled + 1, flags := b.flags ||| fl, first := if b.first.isSome then b.first else some (t0, d) })).noteSingle t0
    if fire then
      let td := t0 + s.g100 r 0x2170 0x03
      ((s.setDtsp r true).putBit (at100 0x21A0 r) 0x15 0 true).modThermal r (fun t => { t with pulse := some (td, t0) }) |>.useBlock (.drx r)
    else s

def execRamanPulse (r : Route) (s : State) : Out := State.next (doRamanPulse r s)

/-- DTSP_PULSE_END (R102). -/
def doDtspPulseEnd (r : Route) (s : State) : State := s.setDtsp r false

def execDtspPulseEnd (r : Route) (s : State) : Out := State.next (doDtspPulseEnd r s)

end Sys2Proof.Machine
end

