-- ==== Sys2Proof/Machine/SurveyOps.lean ====
section
/-! DEFINITION. What a survey run shares with the launches it accumulates (06_survey_loop.md): the ends of a run, levels (R171), and the frames
of the fibre map stream, which await the returns of their launches (R183). -/

namespace Sys2Proof.Machine

open Sys2Proof

/-- One end of the survey. -/
def State.surveyEnd (s : State) : Route → SurveyEnd
  | .a => s.survey.endA
  | .b => s.survey.endB

/-- Updates one end of the survey. -/
def State.modSurvey (s : State) (r : Route) (f : SurveyEnd → SurveyEnd) : State :=
  match r with
  | .a => { s with survey := { s.survey with endA := f s.survey.endA } }
  | .b => { s with survey := { s.survey with endB := f s.survey.endB } }

/-- Whether a survey run is active: from its start to COMPLETE or FAILED (R169). -/
def State.surveyRuns (s : State) : Bool := s.survey.phase == 1 || s.survey.phase == 2

/-- A deviation within ± `bound` of R141, from a free value. -/
def deviation (bound v : Nat) : Int := ((v % (2 * bound + 1) : Nat) : Int) - bound

/-! ### Levels (R171) -/

/-- The greatest t with 10^(2t - 1) × n^2000 ≤ s^2000, by bits: 1,000 × log10(s / n) to the nearest integer. -/
def levelAux (s n : Nat) : Nat → Nat → Nat
  | 0, t => t
  | k + 1, t => let u := t + 2 ^ k; levelAux s n k (if 10 ^ (2 * u - 1) * n ^ 2000 ≤ s ^ 2000 then u else t)

/-- The level of a sum over n launches: 0 stands for a sum below n. The device computes it to within one unit; the free
value v says which, and is the level before any launch, of which the manual states none. -/
def level (s n v : Nat) : Nat :=
  if n = 0 then v % 65536 else if s < n then 0 else Nat.min 65535 ((levelAux s n 17 0 : Int) + deviation 1 v).toNat

/-- The levels of a list of sums, each with a free value from `base` on. -/
def levels (l : List Nat) (n base : Nat) : List Nat :=
  (l.zip (List.range l.length)).map (fun e => level e.1 n (Config.freeValue (base + e.2)))

/-- An event of the map in its 16 bytes (Table 6.5). -/
def fibreEventBytes (e : FibreEvent) : Bytes :=
  beBytes 4 e.loc ++ [byteOf e.type, 0] ++ beInt 2 (sat e.height 16) ++ beInt 2 (sat e.loss 16) ++ beBytes 2 (Nat.min e.level 65535)
    ++ [0, 0, 0, 0]

/-- The payload of a map frame (Table 6.4). PHASE is 1, also where the end had no APR phase, and LAUNCHES counts the launches of both phases
(DESIGN CHOICE, assumption log 23: Table 6.4 says neither for a map). -/
def State.mapPayload (s : State) (r : Route) : Bytes :=
  let e := s.surveyEnd r
  let tb := (s.sched r).tbin
  let fin := match e.endBin with
    | some b => b * 4 * tb
    | none => 0xFFFFFFFF
  [1, byteOf s.survey.runs, 1, 0] ++ beBytes 4 (e.launches + e.aprLaunches) ++ beBytes 4 fin ++ beBytes 2 e.floor
    ++ [byteOf e.events.length, byteOf (b2n e.overflow)] ++ e.events.flatMap fibreEventBytes

/-! ### Fibre map frames (R183) -/

/-- The sums of bins i × k to i × k + k - 1. -/
def groupSums (k : Nat) (l : List Nat) : List Nat :=
  (List.range (cdiv l.length (Nat.max k 1))).map (fun i => sumN ((l.drop (i * k)).take k))

/-- The body of a trace frame (Table 6.4), with the state after its free values. -/
def State.traceBody (s : State) (r : Route) (c : Sched) (k : Nat) : Bytes × State :=
  let e := s.surveyEnd r
  let lv := groupSums k (if e.s.isEmpty then List.replicate (c.reach + 1) 0 else e.s)
  ([0, byteOf s.survey.runs, 0, 0] ++ beBytes 4 e.launches ++ (levels lv e.launches s.free).flatMap (beBytes 2),
    { s with free := s.free + lv.length })

/-- Sends one frame of a survey route frame: a trace of the launches accumulated, or the map of OD 2A10.20, which has no frame period. -/
def State.fibreFrame (s : State) (r : Route) (d : FibreDue) (trace : Bool) : State :=
  let c := s.sched r
  let k := s.cfg r 0x2A00 0x03
  let (n, s) := s.nextCount r 12
  let (body, s) := if trace then s.traceBody r c k else (s.blob (at10 0x2A10 r) 0x20, s)
  let (fl, s) := s.takeCarry r 12
  s.addReady r
    { stream := 12, routeCode := routeNum r, fcount := n, tstart := s.stampOf d.first.1, period := if trace then d.stop - d.start else 0
      first := 0, count := if trace then cdiv (c.reach + 1) k else 0, pitch := if trace then k else 0
      quality := d.flags ||| fl, cseq := d.cseq, pos := d.pos
      payload := body, plane := [], cols := 0, deadline := d.first.1 + d.first.2, send := true, events := [], block := [], inputs := []
      closing := d.stop }

/-- Sends the frames of a survey route frame. -/
def State.fibreDue (s : State) (r : Route) (d : FibreDue) : State :=
  let s := if d.trace then s.fibreFrame r d true else s
  if d.map then s.fibreFrame r d false else s

/-- Sends the survey frames of an end whose launches have all been processed, in order (R183). -/
def State.sendDues (s : State) (r : Route) : State :=
  let open' := fun (d : FibreDue) => (s.route r).optics.inFlight.any (fun l => !l.compressed && decide (l.ns < d.stop))
  let go := (s.surveyEnd r).dues.takeWhile (fun d => !open' d)
  let s := s.modSurvey r (fun e => { e with dues := e.dues.drop go.length })
  go.foldl (fun s d => s.fibreDue r d) s

/-- Sends what waits before a new run clears the sums. -/
def State.flushDues (s : State) (r : Route) : State :=
  let l := (s.surveyEnd r).dues
  l.foldl (fun s d => s.fibreDue r d) (s.modSurvey r (fun e => { e with dues := [] }))

/-- Flags of a launch for the survey frame of its route frame, in progress or ended. -/
def State.noteFibre (s : State) (r : Route) (ns flags : Nat) : State :=
  let now := decide ((s.route r).optics.frameNs ≤ ns)
  let s := s.modOptics r (fun o => if now then { o with frameFlags := o.frameFlags ||| flags } else o)
  s.modSurvey r (fun e => { e with dues := e.dues.map (fun d =>
    if d.start ≤ ns && ns < d.stop && !now then { d with flags := d.flags ||| flags } else d) })

/-- A survey route frame of an end ends at an instant: it sends a trace during the normal phase of the end, and a map when the run has become
COMPLETE in it, once the returns of its launches are processed. The launches of the route frame are its contributing shots; without one it
carries the flags of the time state at its start (R350). -/
def State.endFibre (s : State) (r : Route) (stop flags : Nat) : State :=
  let e := s.surveyEnd r
  let o := (s.route r).optics
  let trace := s.surveyRuns && !e.ended
  if s.mode != 5 || !s.enabled r || !(trace || e.mapDue) then s
  else
    let d : FibreDue :=
      { start := o.frameNs, stop := stop, first := o.frameFirst.getD (o.frameNs, s.bound r)
        flags := o.frameFlags ||| (if o.frameFirst.isNone then s.timeFlagsAt o.frameNs else 0) ||| flags
        trace := trace, map := e.mapDue, cseq := s.cseq r, pos := s.osw r }
    (s.modSurvey r (fun e => { e with mapDue := false, dues := e.dues ++ [d] })).sendDues r

end Sys2Proof.Machine
end

