-- ==== Sys2Proof/Machine/Rayleigh.lean ====
section
/-! DEFINITION. Rayleigh phase processing (05_rayleigh_phase.md): corrected CRX samples (R112), the channeliser (R135 to
R138), compression (R139 to R142), normalisation (R143), laser frequency removal (R144 to R146), and the update of a
position slice (R147 to R158). The survey accumulator takes its compressed samples here (R166, R169). -/

namespace Sys2Proof.Machine

open Sys2Proof

/-! ### Compression reference (R139) -/

/-- e[n'] of R139 for one slot of a group. -/
def refEnvelope (get : CfgRead) (k : SchedKind) (r : Route) (group slot : Nat) (n : Int) : Cpx :=
  let gr := govRead get r
  let c := mkSched get k r
  if n < 0 || (c.tp : Int) ≤ n then Cpx.zero
  else
    let m := 2 * n.toNat
    let o := at100 0x2120 gr
    let np := 2 * c.tp
    let b : Int := if get o 0x01 = 0 then 0 else (get o 0x02 : Int) * 1000000
    let d : Int := if bit (get o 0x03) group then -1 else 1
    let kk := phaseAcc (fwStart (slotFreq c.plan slot) d b) (fwStep d b np) m / 2 ^ 20
    let w := window (get o 0x04) (get o 0x05) np m
    ⟨rhu (w * cosTab kk) 15, rhu (w * cosTab ((kk + 3072) % 4096)) 15⟩

/-- The reference r of a slot (R139). -/
def reference (get : CfgRead) (k : SchedKind) (r : Route) (group slot : Nat) : List Cpx :=
  let c := mkSched get k r
  let e := refEnvelope get k r group slot
  if c.plan = 3 then (List.range c.tp).map (fun (m : Nat) => e (m : Int))
  else (List.range (cdiv c.tp 4 + 24)).map (fun (m : Nat) => ((chanOut slot e ((m : Int) - 12)).rhu 2).sat 16)

/-- S_c of a reference (R140). -/
def compressShift (ref : List Cpx) : Nat := bitlen (sumN (ref.map Cpx.norm)) - 20

/-! ### Compression (R140, R141) -/

/-- The exact sum of R140 at a bin, before saturation: `y` starts at index -δ. -/
def compressAt (ref y : List Cpx) (sc b : Nat) : Cpx :=
  (sumC (((y.drop b).zip ref).map (fun e => e.1.mulConj e.2))).rhu sc

/-- Whether a value of R140 saturates at 24 bits. -/
def saturates (x : Cpx) (w : Nat) : Bool := x != x.sat w

/-- The bound of R141 for the block of a bin: 8 LSB plus 2^-14 of the largest component in the block. -/
def blockBound (exact : List Cpx) (len b : Nat) : Nat :=
  let i := b / Nat.max len 1
  8 + maxN (((exact.drop (i * len)).take len).map Cpx.mag) / 2 ^ 14

/-- The compressed samples of a channel: the exact values, each moved by a free deviation within R141. `base` is the
first free value of the channel. -/
def compressChannel (exact : List Cpx) (lr base : Nat) : List Cpx :=
  let sat24 := exact.map (fun x => x.sat 24)
  (sat24.zip (List.range exact.length)).map (fun e =>
    let bd := blockBound sat24 (16385 - lr) e.2
    (⟨e.1.re + deviation bd (Config.freeValue (base + 2 * e.2)),
      e.1.im + deviation bd (Config.freeValue (base + 2 * e.2 + 1))⟩ : Cpx).sat 24)

/-- What compression gives of a launch: the compressed samples per channel, the stage 1 samples per channel
from the range origin, marks and clip marks per bin, and the free values drawn. -/
structure Compressed where
  x : List (List Cpx)
  y : List (List Cpx)
  marks : List BinMark
  clips : List Bool
  drawn : Nat

/-- Whether a stage 1 sample carries a mark that a CRX sample holds (R138). -/
def markNear (wide : Bool) (mark : Int → Bool) (n : Int) : Bool :=
  if wide then mark n else (List.range 17).any (fun i => mark (4 * n - 8 + i))

/-- The mark of a bin from the marks of its span (R142). -/
def binMark (frac lr : Nat) (blank settle : List Bool) : BinMark :=
  let n := (((blank.zip settle).take lr).filter (fun e => e.1 || e.2)).length
  if n * 256 < frac * lr then .none else if (blank.take lr).any id then .blanked else .settling

/-- Channeliser and compression of a launch (R135 to R142). Each end judges blanked bins by the fraction of its own route (OD 2410.0A, OD
2420.0A), under Loop Guard too (DESIGN CHOICE, assumption log 21: chapter 5 lists the object neither as an end's own nor as shared). -/
def compressLaunch (get : CfgRead) (k : SchedKind) (r : Route) (group : Nat) (f : Front) (base : Nat) : Compressed :=
  let c := mkSched get k r
  let wide := c.plan == 3
  let slots := c.slots k group
  let dl := stageDelay c.plan
  let bins := c.reach + 1
  let refs := slots.map (reference get k r group)
  let lr := (refs.head?.map List.length).getD 0
  let idx := (List.range (c.reach + lr)).map (fun (j : Nat) => (j : Int) - dl)
  let chans := (slots.zip refs).flatMap (fun e => [(e.1, e.2, 0), (e.1, e.2, 1)])
  let y := chans.map (fun e => idx.map (stage1 c.plan e.1 (f.sample e.2.2)))
  let exact := (chans.zip y).map (fun e =>
    let sc := compressShift e.1.2.1
    (List.range bins).map (compressAt e.1.2.1 e.2 sc))
  let x := (exact.zip (List.range exact.length)).map (fun e => compressChannel e.1 lr (base + 2 * bins * e.2))
  let blank := idx.map (markNear wide (fun n => f.blank (f.origin + n)))
  let settle := idx.map (markNear wide (fun n => settlingAt f.crx (f.origin + n)))
  let clip := idx.map (markNear wide (clipAt f.raw))
  let frac := get (at10 0x2410 r) 0x0A
  { x := x, y := y.map (fun ch => ch.drop dl),
    marks := (List.range bins).map (fun b => binMark frac lr (blank.drop b) (settle.drop b)),
    clips := (List.range bins).map (fun b => ((clip.drop b).take lr).any id
      || exact.any (fun ch => saturates (ch.getD b Cpx.zero) 24)),
    drawn := 2 * bins * chans.length }

/-! ### Normalisation (R143) -/

/-- The samples of every channel bin by bin: entry b of the first `n` bins holds one sample of each channel. -/
def perBin : Nat → List (List Cpx) → List (List Cpx)
  | 0, _ => []
  | n + 1, xs => xs.map (fun ch => ch.headD Cpx.zero) :: perBin n (xs.map List.tail)

/-- The equalisation entries of the slots of a group (R143). -/
def slotGains (get : CfgRead) (k : SchedKind) (r : Route) (group : Nat) : List Int :=
  ((mkSched get k r).slots k group).map (fun j => ((get (at10 0x2410 r) (0x03 + j) : Nat) : Int))

/-- The normalised samples of a bin per channel, two channels to a slot, and whether one saturates. -/
def normalise (gains : List Int) (ns : Nat) (xs : List Cpx) : List Cpx × Bool :=
  let zs := (xs.zip (List.range xs.length)).map (fun e =>
    let ej := gains.getD (e.2 / 2) 0
    (⟨rhu (e.1.re * ej) (14 + ns), rhu (e.1.im * ej) (14 + ns)⟩ : Cpx))
  (zs.map (fun z => z.sat 16), zs.any (fun z => saturates z 16))

/-! ### CORDIC and slice product (R150, R152) -/

/-- at[i] of R152. -/
def atanTab : List Int :=
  [536870912, 316933406, 167458907, 85004756, 42667331, 21354465, 10679838, 5340245, 2670163, 1335087, 667544, 333772,
   166886, 83443, 41722, 20861, 10430, 5215]

/-- The arithmetic shift right, rounding toward -∞. -/
def asrI (x : Int) (i : Nat) : Int := x / 2 ^ i

/-- Steps i to 17 of the CORDIC. -/
def cordicSteps : Nat → Nat → Int → Int → Int → Int
  | 0, _, _, _, th => th
  | n + 1, i, x, y, th =>
    let a := atanTab.getD i 0
    if 0 ≤ y then cordicSteps n (i + 1) (x + asrI y i) (y - asrI x i) ((th + a) % 2 ^ 32)
    else cordicSteps n (i + 1) (x - asrI y i) (y + asrI x i) ((th - a) % 2 ^ 32)

/-- The CORDIC of R152: ψ in s16.15 turns and m_q in u16.2 log2 units. -/
def cordic (q : Cpx) : Int × Nat :=
  let mx := q.mag
  let bl := bitlen mx
  let sh := bl - 23
  let x := rhu q.re sh
  let y := rhu q.im sh
  let mq := 4 * bl + (if 3 ≤ bl then mx / 2 ^ (bl - 3) % 4 else 0)
  let th := if x < 0 then cordicSteps 18 0 (-x) (-y) (2 ^ 31) else cordicSteps 18 0 x y 0
  (if mx = 0 then 0 else wrapS (rhu (wrapS th 32) 17) 16, mq)

/-- The temporal product d = z' × conj(ZP), each component saturated to 32 bits (R150). -/
def dprod (z zp : Cpx) : Cpx := (z.mulConj zp).sat 32

/-- The gauge product (R151). -/
def gaugeSum (dg d : List Cpx) : Cpx := sumC ((dg.zip d).map (fun e => e.1.mulConj e.2))

/-! ### Laser frequency removal (R144 to R146) -/

/-- The sum over a stretch of coil bins of the products of two launches. -/
def coilSum (zk zp : List (List Cpx)) : Cpx := sumC ((zk.zip zp).flatMap (fun e => (e.1.zip e.2).map (fun p => dprod p.1 p.2)))

/-- ω of R145 from the coil samples of a launch and the one before it in its group; none where it is forced to 0. -/
def coilSlope (coilMin h : Nat) (zk zp : List (List Cpx)) : Option Int :=
  let a1 := coilSum (zk.take h) (zp.take h)
  let a2 := coilSum ((zk.drop h).take h) ((zp.drop h).take h)
  if decide (bitlen a1.mag < coilMin) || decide (bitlen a2.mag < coilMin) then none
  else some (rhuDiv (wrapS ((cordic a2).1 - (cordic a1).1) 16 * 2 ^ 17) (Nat.max h 1))

/-- A sample rotated by the laser ramp (R146). -/
def rotate (theta b : Nat) (z : Cpx) : Cpx :=
  let idx := b * theta % 2 ^ 32 / 2 ^ 20
  let co := cosTab idx
  let si := cosTab ((idx + 3072) % 4096)
  ⟨sat (rhu (z.re * co + z.im * si) 15) 16, sat (rhu (z.im * co - z.re * si) 15) 16⟩

/-! ### Survey accumulation (R166, R169) -/

/-- The sum of the squared magnitudes over channels, per bin. -/
def powerPerBin (l : List (List Cpx)) (bins : Nat) : List Nat :=
  (perBin bins l).map (fun ch => sumN (ch.map Cpx.norm))

/-- Adds two lists of sums. -/
def addSums (a b : List Nat) : List Nat := if a.isEmpty then b else (a.zip b).map (fun e => e.1 + e.2)

/-- The flags that the samples of a launch bring to the survey frame that its route frame fills: BLANKED, GAIN_STEP and CLIPPED. -/
def Compressed.flags (c : Compressed) : Nat :=
  (if c.marks.any (· == .blanked) then 4 else 0) ||| (if c.marks.any (· == .settling) then 32 else 0) ||| (if c.clips.any id then 1024 else 0)

/-- Whether an end has had its APR phase whole. -/
def State.aprDone (s : State) (r : Route) : Bool :=
  let e := s.surveyEnd r
  !e.aprPhase || decide (s.cfg r 0x2A00 0x0A ≤ e.aprLaunches)

/-- The lane of an end whose APR phase is whole ramps back to the normal code (R169); under Loop Guard the ends keep step. -/
def State.aprBack (s : State) (r : Route) : State :=
  if !s.loopGuard then (if s.aprDone r then s.endAprPhase r else s)
  else if s.aprDone .a && s.aprDone .b then (s.endAprPhase .a).endAprPhase .b else s

/-- A launch enters the survey of its end: S and W in the normal phase up to its launch count, the window power in the
APR phase, whose last launch ends it. -/
def State.surveySums (s : State) (r : Route) (l : Launch) (c : Compressed) (bins : Nat) : State :=
  let e := s.surveyEnd r
  if s.surveyRuns && !e.ended && !l.apr && decide (e.launches < s.cfg r 0x2A00 0x01) then
    s.modSurvey r (fun e => { e with
      s := addSums e.s (powerPerBin c.x bins), w := addSums e.w (powerPerBin c.y bins)
      launches := e.launches + 1 })
  else if s.surveyRuns && e.ended && e.aprPhase && l.apr && decide (e.aprFrom ≤ l.ns) && decide (e.aprLaunches < s.cfg r 0x2A00 0x0A) then
    match e.window with
    | some w =>
      let p := powerPerBin c.y bins
      (s.modSurvey r (fun e => { e with
        aprSum := e.aprSum + sumN ((p.drop w.1).take (w.2 + 1 - w.1)), aprLaunches := e.aprLaunches + 1 })).aprBack r
    | none => s
  else s

/-- A launch processed in SURVEY: its flags and those of its samples go to the frame of its route frame (R118, R119, R130, R183), its samples
to the sums, and the frames that awaited it are sent. -/
def State.surveyAdd (s : State) (r : Route) (l : Launch) (c : Compressed) (bins : Nat) : State :=
  ((s.noteFibre r l.ns (l.frameFlags ||| c.flags)).surveySums r l c bins).sendDues r

/-- A launch that gives SURVEY no samples: its frame carries REDUCED. -/
def State.surveyMissing (s : State) (r : Route) (l : Launch) : State := (s.noteFibre r l.ns (l.frameFlags ||| 2)).sendDues r

/-! ### LAUNCH_COMPRESSED -/

/-- Marks a launch as processed; one already judged, or not to be judged, is out of flight. -/
def State.takeLaunch (s : State) (r : Route) : State :=
  let on := s.aprOn r
  s.modOptics r (fun o => { o with
    inFlight := (updFirst (fun x => !x.compressed) (fun x => { x with compressed := true }) o.inFlight).filter
      (fun x => !(x.compressed && (x.judged || !on))) })

/-- The hand-off of a missing launch: every bin carries MISSING and no sample (R147). -/
def missingBins (n : Nat) : List Bin := List.replicate n { z := [], mark := .missing, clip := false }

/-- Hands the bins of a launch to the slices. -/
def State.handBins (s : State) (r : Route) (l : Launch) (bins : List Bin) : State :=
  s.modRay r (fun y => { y with handoff := some { launch := l, bins := bins }, ring := [], updates := [] })

/-- A missing launch, or one whose shots an engine check has lost, goes to the slices without samples; the coil slope of
its group is held (R145, R147). -/
def State.handMissing (s : State) (r : Route) (l : Launch) (bins : Nat) : State :=
  let s := s.modRay r (fun y => { y with prevCoil := mapSet y.prevCoil l.group [] })
  (s.bump (at10 0x2410 r) 0x16 1).handBins r l (missingBins bins)

/-- The coil bins of a launch of stage 3 samples, or none where one is not there or is marked (R144, R145). -/
def coilBins (cf cl : Nat) (x : List (List Cpx × BinMark)) : Option (List (List Cpx)) :=
  let y := (x.drop cf).take (cl + 1 - cf)
  if y.length == cl + 1 - cf && y.all (fun e => e.2 == .none) then some (y.map (·.1)) else none

/-- ω of R145 from the stage 3 bins of a launch and those of the launch before it in its group, over the coil in force for it; none
where it is forced to 0. -/
def slopeOver (cf cl coilMin : Nat) (zk : List (List Cpx × BinMark)) (zp : Option (List (List Cpx × BinMark))) : Option Int :=
  match coilBins cf cl zk, zp.bind (coilBins cf cl) with
  | some k, some p => coilSlope coilMin ((cl + 1 - cf) / 2) k p
  | _, _ => none

/-- Normalisation, slope and rotation of a launch's compressed samples (R143 to R146). -/
def State.handSamples (s : State) (r : Route) (l : Launch) (get : CfgRead) (k : SchedKind) (c : Compressed) (bins : Nat) :
    State :=
  let o := at10 0x2410 r
  let gains := slotGains get k r l.group
  let z := (perBin bins c.x).map (normalise gains (get o 0x02))
  let stage3 := (z.map (·.1)).zip c.marks
  let w := slopeOver (get o 0x07) (get o 0x08) (get o 0x09) stage3 (mapGet (s.route r).ray.prevCoil l.group)
  let th := ((s.num o (0x12 + l.group) : Int) + w.getD 0) % 2 ^ 32
  let s := s.put o (0x12 + l.group) th.toNat
  let s := if w.isNone then s.bump o 0x16 1 else s
  let s := s.modRay r (fun y => { y with prevCoil := mapSet y.prevCoil l.group stage3 })
  s.handBins r l (((z.zip (c.marks.zip c.clips)).zip (List.range bins)).map (fun e =>
    { z := e.1.1.1.map (rotate th.toNat e.2), mark := e.1.2.1, clip := e.1.2.2 || e.1.1.2 }))

/-- A route engine check fails (R449): the launch's shots are lost, the engine leaves service and is tested; a route of
its own sends no frames meanwhile. -/
def State.engineFail (s : State) (r : Route) (l : Launch) (bins : Nat) : State :=
  let s := (s.issueR r 0x22 0x21 (routeNum r) 0).detect (.engine r) false
  let s := s.modOptics r (fun o => { o with engineOut := true })
  let s := if s.loopGuard && s.mode != 5 then s.handMissing r l bins else if s.loopGuard then s else s.modFdc r (fun _ => Fdc.reset)
  (s.noteSingle s.cyc).safeIfNoRoute

/-- LAUNCH_COMPRESSED (R134 to R147): the oldest launch in flight whose edge window has closed. -/
def launchCompressed (r : Route) (raw : List RawSample) (checkFail : Bool) (s : State) : State :=
  match (s.route r).optics.inFlight.find? (fun x => !x.compressed) with
  | none => s
  | some l =>
    if !l.closed || (s.route r).ray.handoff.isSome then s
    else
      let get := s.readAt r l.seq
      let k := s.kind
      let sc := mkSched get k r
      let bins := sc.reach + 1
      let t := s
      let s := s.takeLaunch r
      if s.engineRetired r || (s.route r).optics.engineOut || !s.crxPowered r then (if k == .survey then s.surveyMissing r l else s)
      else if checkFail then (let t := s.engineFail r l bins; if k == .survey then t.surveyMissing r l else t)
      else if l.missing then (if k == .survey then s.surveyMissing r l else s.handMissing r l bins)
      else
        let c := compressLaunch get k r l.group (t.front r l raw) s.free
        let s := { s with free := s.free + c.drawn }
        if k == .survey then s.surveyAdd r l c bins else s.handSamples r l get k c bins

/-- The last launch processed may end a transition (R439). -/
def doLaunchCompressed (r : Route) (raw : List RawSample) (checkFail : Bool) (s : State) : State :=
  (launchCompressed r raw checkFail s).finishIfQuiet

def execLaunchCompressed (r : Route) (raw : List RawSample) (checkFail : Bool) (s : State) : Out :=
  State.next (doLaunchCompressed r raw checkFail s)

/-! ### The slice update (R147 to R158) -/

/-- REDUCED. -/
def flReduced : Nat := 2

/-- BLANKED. -/
def flBlanked : Nat := 4

/-- GAIN_STEP. -/
def flGain : Nat := 32

/-- SPARE_SWAP. -/
def flSwap : Nat := 64

/-- LOOP_SINGLE. -/
def flSingle : Nat := 256

/-- FADING. -/
def flFading : Nat := 512

/-- CLIPPED. -/
def flClipped : Nat := 1024

/-- What the slices work with for a launch: positions, gauge, bridge limit, loop shift, fade depth, groups, channels. -/
structure SliceCfg where
  positions : List Nat
  pitch : Nat
  gauge : Nat
  bridge : Nat
  kl : Nat
  depth : Nat
  groups : Nat
  channels : Nat

/-- The slice configuration under a reading; the objects of route A govern both ends of a loop (R165, R176). -/
def sliceCfg (get : CfgRead) (k : SchedKind) (r : Route) : SliceCfg :=
  let c := mkSched get k r
  let o := at10 0x2410 (govRead get r)
  let b := get o 0x0B
  { positions := endPositions get k r, pitch := c.sensePitch, gauge := get o 0x01,
    bridge := if k == .sentinel then Nat.min b (Nat.max 1 (2000000 / Nat.max c.t 1)) else b,
    kl := get o 0x0C, depth := get o 0x0D, groups := c.g, channels := 2 * c.sl }

/-- The flags of a mark that removes a bin (Table 5.4). -/
def markFlags : BinMark → Nat
  | .none => 0
  | .missing => flReduced
  | .blanked => flBlanked
  | .settling => flGain

/-- Element i of a list of naturals, 0 beyond. -/
def atN (l : List Nat) (i : Nat) : Nat := l.getD i 0

/-- The 32-bit wrap of s32.15 arithmetic. -/
def w32 (x : Int) : Int := wrapS x 32

/-- Stores the samples of a group (R150). -/
def PosRec.store (st : PosRec) (ch g : Nat) (z : List Cpx) : PosRec :=
  { st with
    zp := (st.zp.zip (List.range st.zp.length)).map (fun e => if g * ch ≤ e.2 && e.2 < g * ch + ch then z.getD (e.2 - g * ch) Cpx.zero else e.1)
    gap := listSet st.gap g (fun _ => 0), why := listSet st.why g (fun _ => []) }

/-- The first part of the update of R150 and R156: the temporal products over the stored sample, the priming of a
group, the store. `bad` holds the flags of an update that a failed slice loses: nothing is written back then but the sample stored
(R161). -/
def sliceProduct (c : SliceCfg) (g lseq : Nat) (b : Bin) (bad : Nat) (ecc : Bool) (st : PosRec) : PosRec × Ring :=
  let gp := st.gap.getD g 0xFF
  let fl := markFlags b.mark ||| bad ||| (if ecc then flReduced else 0)
  let lost : Ring := { d := [], valid := false, span := 0, cause := fl, why := [], unprimed := false, reprime := false, ecc := ecc }
  match b.mark with
  | .none =>
    if bad != 0 then (st.store c.channels g b.z, lost)
    else if gp = 0xFF || decide (c.bridge < gp + 1) then
      let st := if st.vset then { st with vh := listSet st.vh g (fun _ => atI st.vh st.lastg) }
        else { st with vh := listSet st.vh g (fun _ => 0), lastg := g, vset := true, lseq := lseq % 256, plast := 0 }
      (st.store c.channels g b.z,
        { lost with cause := fl ||| (if gp = 0xFF then 0 else flReduced), unprimed := gp == 0xFF, reprime := gp != 0xFF })
    else
      let d := (List.range c.channels).map (fun h => dprod (b.z.getD h Cpx.zero) (st.zp.getD (g * c.channels + h) Cpx.zero))
      (st.store c.channels g b.z, { lost with d := d, valid := true, span := gp + 1, why := st.why.getD g [] })
  | m =>
    if bad != 0 then ({ st with why := listSet st.why g (fun x => x ++ [(2 * lseq + 1, bad)]) }, lost)
    else
      ({ st with
          gap := listSet st.gap g (fun x => if x = 0xFF then x else Nat.min (x + 1) 0xFE)
          why := listSet st.why g (fun x => x ++ [(2 * lseq, markFlags m)]) }, lost)

/-- What made the spans of a gauge's members differ in a list of the losses of one, beside that of the other: a loss that raised the gap
of this member alone gives its own flags, and a loss that a failed check kept from raising the gap (an odd entry) the flags of the
check, where the other member lost the launch and counted it. -/
def aloneCause (x y : List (Nat × Nat)) : Nat :=
  x.foldl (fun n e =>
    let other := y.any (fun f => f.1 / 2 == e.1 / 2)
    let counted := y.any (fun f => f.1 + 1 == e.1)
    if e.1 % 2 = 0 then (if other then n else n ||| e.2) else if counted then n ||| e.2 else n) 0

/-- The flags of the cause that made the spans of a gauge differ (Table 5.4). -/
def unequalCause (a b : List (Nat × Nat)) : Nat := aloneCause a b ||| aloneCause b a

/-- The valid update of R156: phase, interleave loop, confidence. -/
def sliceValid (c : SliceCfg) (g lseq span : Nat) (q : Cpx) (clip : Bool) (st : PosRec) : PosRec × Update :=
  let pm := cordic q
  let psi := pm.1
  let v0 := w32 (atI st.vh g + psi)
  let v := if 1 < c.groups && span == 1 && st.lseq == (lseq + 255) % 256 then
      let e := w32 (v0 - (atI st.vh st.lastg + rhu st.plast (Nat.log2 c.groups)))
      let n := rhu e 15
      w32 (v0 - 32768 * n - rhu (e - 32768 * n) c.kl)
    else v0
  let delta := w32 (v - atI st.vh st.lastg)
  let m : Int := ((64 * pm.2 : Nat) : Int)
  let conf := if st.lvl = 0 then m else st.conf + rhu (m - st.conf) 3
  let lvl := if st.lvl = 0 then m else st.lvl + rhu (m - st.lvl) 10
  ({ st with vh := listSet st.vh g (fun _ => v), lastg := g, lseq := lseq, plast := psi, conf := conf, lvl := lvl },
   .valid delta v pm.2 span (decide (conf + 64 * (c.depth : Nat) < lvl)) clip)

/-- The bin of a position. -/
def Handoff.bin (h : Handoff) (c : SliceCfg) (pos : Nat) : Bin := h.bins.getD (pos * c.pitch) { z := [], mark := .missing, clip := false }

/-- Whether a member of a gauge loses the update for a cause that OD 2410.17 counts: any but an unprimed group, whether a route start or a
record reset left it so. An update unprimed at one member and lost for another cause at the other counts, and so does one whose group is
unprimed at a member that a failed check loses at the same time (DESIGN CHOICE, assumption log 21: Table 5.4 gives each cause alone). -/
def Ring.lostCounted (x : Ring) : Bool := !x.valid && !x.unprimed

/-- Completes the update of the position at a place, once its own product and that of its gauge partner are known; the
places above count - 1 - g pass nothing (R148, R156). -/
def State.sliceFinish (s : State) (r : Route) (c : SliceCfg) (h : Handoff) (place : Nat) : State :=
  let y := (s.route r).ray
  match c.positions[place]?, c.positions[place + c.gauge]? with
  | some p, some q =>
    match mapGet y.ring p, mapGet y.ring q with
    | some a, some b =>
      if (mapGet y.updates p).isSome then s
      else
        let st := (mapGet y.recs p).getD freshRec
        let o := at10 0x2410 r
        if a.valid && b.valid && a.span == b.span then
          let clip := (h.bin c p).clip || (h.bin c q).clip
          let x := sliceValid c h.launch.group (h.launch.seq % 256) a.span (gaugeSum b.d a.d) clip st
          let s := s.modRay r (fun y => { y with recs := mapSet y.recs p x.1, updates := mapSet y.updates p x.2 })
          if 2 ≤ a.span then s.bump o 0x18 1 else s
        else
          let fl := if a.valid && b.valid then unequalCause a.why b.why else a.cause ||| b.cause
          let s := s.modRay r (fun y => { y with updates := mapSet y.updates p (.lost fl a.reprime a.ecc) })
          if a.lostCounted || b.lostCounted || (a.valid && b.valid) then s.bump o 0x17 1 else s
    | _, _ => s
  | _, _ => s

/-- The logical slice that serves a place of a route (R69, R147). -/
def logicalSlice (r : Route) (place : Nat) : Nat := (place / 64 + 8 * routeNum r) % 16

/-- SLICE_UPDATE (R150 to R158): a position of the launch in hand. -/
def doSliceUpdate (r : Route) (pos : Nat) (checkFail : Bool) (ecc : Option (Fin 16 × Fin 1024)) (s : State) : State :=
  match (s.route r).ray.handoff with
  | none => s
  | some h =>
    let c := sliceCfg (s.readAt r h.launch.seq) s.kind r
    match c.positions.findIdx? (fun p => p == pos) with
    | none => s
    | some place =>
      if (mapGet (s.route r).ray.ring pos).isSome then s
      else
        let f := s.physical (logicalSlice r place)
        let out := s.sliceRetired f || s.slices.inPlace.contains f.val
        let s := if checkFail then s.sliceCheck f else s
        let bad := if checkFail then flReduced ||| flSwap else if out then flReduced else 0
        let o := at10 0x2410 r
        let s := match ecc with
          | some (bank, row) => (s.rowUncorrectable .hive bank row (routeNum r) pos).bump o 0x19 1
          | none => s
        let st := if ecc.isSome then freshRec else (mapGet (s.route r).ray.recs pos).getD freshRec
        let x := sliceProduct c h.launch.group h.launch.seq (h.bin c pos) bad ecc.isSome st
        let s := s.modRay r (fun y => { y with recs := mapSet y.recs pos x.1, ring := mapSet y.ring pos x.2 })
        let s := if x.2.reprime then s.bump o 0x19 1 else s
        let s := s.sliceFinish r c h place
        if c.gauge ≤ place then s.sliceFinish r c h (place - c.gauge) else s

def execSliceUpdate (r : Route) (pos : Nat) (checkFail : Bool) (ecc : Option (Fin 16 × Fin 1024)) (s : State) : Out :=
  State.next (doSliceUpdate r pos checkFail ecc s)

end Sys2Proof.Machine
end

