-- ==== Sys2Proof/Machine/Loop.lean ====
section
/-! DEFINITION. Loop Guard in operation (R178 to R182) and the inputs of the filter chain (R219, R233, R234): the merge of
two ends at a loop instant, the location of a cut, and one input of every position of a route. -/

namespace Sys2Proof.Machine

open Sys2Proof

/-! ### The loop instant in hand -/

/-- The hand-off of a route. -/
def State.handoff (s : State) (r : Route) : Option Handoff := (s.route r).ray.handoff

/-- The instant of the loop instant in hand: that of the earliest hand-off of either end. -/
def State.loopNs (s : State) : Option Nat :=
  match s.handoff .a, s.handoff .b with
  | some a, some b => some (Nat.min a.launch.ns b.launch.ns)
  | some a, none => some a.launch.ns
  | none, some b => some b.launch.ns
  | none, none => none

/-- The hand-off of an end at an instant. -/
def State.handoffAt (s : State) (r : Route) (ns : Nat) : Option Handoff := (s.handoff r).filter (fun h => h.launch.ns == ns)

/-- Whether no end still has a launch of the instant to be processed. -/
def State.instantReady (s : State) (ns : Nat) : Bool :=
  [Route.a, Route.b].all (fun r => (s.handoff r).isSome
    || (s.route r).optics.inFlight.all (fun l => l.compressed || decide (ns < l.ns)))

/-! ### The merge (R179, R180) -/

/-- The merge record of a position that nothing has entered (Table 6.3). -/
def MergeRec.zero : MergeRec := { u := 0, ua := 0, ub := 0, mpA := false, mpB := false, mseq := 0 }

/-- A valid update as the merge takes it: Δ, m_q and flags. -/
structure EndUpdate where
  delta : Int
  mq : Nat
  flags : Nat
  deriving DecidableEq, Repr

/-- What the merge of a position does at a loop instant: its record, what it emits, and whether B was the reference. -/
structure MergeOut where
  state : MergeRec
  emit : Option (Int × Int × Nat × Nat)
  refB : Option Bool
  deriving DecidableEq, Repr

/-- merge(p, inst) of R180. -/
def mergeStep (m : MergeRec) (inst : Nat) (a b : Option EndUpdate) : MergeOut :=
  let va := a.isSome && m.mpA
  let vb := b.isSome && m.mpB
  let m := if a.isSome && !m.mpA then { m with mpA := true, ua := m.u } else m
  let m := if b.isSome && !m.mpB then { m with mpB := true, ub := m.u } else m
  let ea := a.getD ⟨0, 0, 0⟩
  let eb := b.getD ⟨0, 0, 0⟩
  if !va && !vb then { state := m, emit := none, refB := none }
  else
    let bRef := if va && vb then decide (ea.mq < eb.mq) else vb
    let x := if bRef then eb else ea
    let o := if bRef then ea else eb
    let ux := if bRef then m.ub else m.ua
    let uo := if bRef then m.ua else m.ub
    let w : Int := if va && vb then max 0 (128 - 16 * ((x.mq : Int) - o.mq)) else 0
    let e := w32 ((uo + o.delta) - (ux + x.delta))
    let n := rhu e 15
    let un := if va && vb then w32 (ux + x.delta + rhu (w * (e - 32768 * n)) 8) else w32 (ux + x.delta)
    let dm := w32 (un - m.u)
    let span := (inst + 256 - m.mseq) % 256
    let fl := if 0 < w then x.flags ||| o.flags else x.flags
    { state := { m with u := un, mseq := inst % 256, ua := if va then un else m.ua, ub := if vb then un else m.ub },
      emit := some (dm, un, span, fl), refB := some bRef }

/-- The flags of a valid update. -/
def Update.flags : Update → Nat
  | .valid _ _ _ _ faded clip => (if faded then flFading else 0) ||| (if clip then flClipped else 0)
  | .lost fl _ _ => fl

/-- A valid update for the merge. -/
def Update.entering : Update → Option EndUpdate
  | .valid d _ mq _ faded clip => some ⟨d, mq, (if faded then flFading else 0) ||| (if clip then flClipped else 0)⟩
  | .lost _ _ _ => none

/-- The B-position whose gauge covers a merged position (R178, R179): P - p - g in SENSE positions. -/
def partnerPos (get : CfgRead) (k : SchedKind) (pos : Nat) : Nat :=
  let c := mkSched get k .a
  loopP get - pos - get (at10 0x2410 .a) 0x01 * c.step

/-- The update of an end for a merged position at an instant: none where the end launched nothing there. -/
def State.endUpdate (s : State) (r : Route) (ns pos : Nat) : Option Update :=
  match s.handoffAt r ns with
  | none => none
  | some h =>
    let p := match r with
      | .a => pos
      | .b => partnerPos (s.readAt r h.launch.seq) s.kind pos
    mapGet (s.route r).ray.updates p

/-- Whether an end has passed its update of a merged position, or has none to pass. -/
def State.endPassed (s : State) (r : Route) (ns pos : Nat) : Bool :=
  (s.handoffAt r ns).isNone || (s.endUpdate r ns pos).isSome

/-- Whether a lost update was lost to its position's state. -/
def Update.isEcc : Update → Bool
  | .lost _ _ e => e
  | _ => false

/-- The merged positions of the loop: first to first + count - 1 - g of route A. -/
def mergedPositions (get : CfgRead) (k : SchedKind) : List Nat :=
  let c := mkSched get k .a
  c.positions.take (c.count - get (at10 0x2410 .a) 0x01)

/-- Counts the reference of a merged update while a cut is being located (R182). -/
def State.countCut (s : State) (ns place : Nat) (refB : Option Bool) : State :=
  match s.loop.cutFrames, refB with
  | some t0, some b =>
    if t0 ≤ ns && ns < t0 + 16 * (s.sched .a).frame then
      s.modRoute .a (fun x =>
        let c := (mapGet x.cutCount (place / 64)).getD (0, 0)
        { x with cutCount := mapSet x.cutCount (place / 64) (if b then (c.1, c.2 + 1) else (c.1 + 1, c.2)) })
    else s
  | _, _ => s

/-- The configuration that the returns in hand of a route were launched under; of the other end's where it has none. -/
def State.handRead (s : State) (r : Route) : CfgRead :=
  match s.handoff r, s.handoff (otherRoute r) with
  | some h, _ => s.readAt r h.launch.seq
  | none, some h => s.readAt (otherRoute r) h.launch.seq
  | none, none => s.read r

/-- Whether the returns in hand of a route belong to the loop: those of launches before a change of topology are
processed under the old one (R62, R63). -/
def State.handGuard (s : State) (r : Route) : Bool := s.handRead r 0x2000 0x03 == 1

/-- LOOP_MERGE (R180): a merged position at the loop instant in hand, once, when both ends have passed their updates. An
end out of service enters nothing (R181). -/
def doLoopMerge (pos : Nat) (s : State) : State :=
  match s.loopNs with
  | none => s
  | some ns =>
    let get := s.handRead .a
    match (mergedPositions get s.kind).findIdx? (fun p => p == pos) with
    | none => s
    | some place =>
      if !s.handGuard .a || !s.instantReady ns || (mapGet s.loop.emitted pos).isSome
          || !s.endPassed .a ns pos || !s.endPassed .b ns pos then s
      else
        let ua := (s.endUpdate .a ns pos).filter (fun _ => s.inService .a)
        let ub := (s.endUpdate .b ns pos).filter (fun _ => s.inService .b)
        let m := (mapGet s.loop.recs pos).getD MergeRec.zero
        let ecc := fun (u : Option Update) => match u with
          | some x => x.isEcc
          | none => false
        let m := { m with mpA := m.mpA && !ecc ua, mpB := m.mpB && !ecc ub }
        let x := mergeStep m s.loop.instant (ua.bind Update.entering) (ub.bind Update.entering)
        let s := { s with loop := { s.loop with
          recs := mapSet s.loop.recs pos x.state, emitted := mapSet s.loop.emitted pos x.emit } }
        s.countCut ns place x.refB

def execLoopMerge (pos : Nat) (s : State) : Out := State.next (doLoopMerge pos s)

/-! ### Location of a cut (R182) -/

/-- At a loop frame boundary: a count of 16 frames begins at the first one after both ends are in APR_HOLD and runs to its end (R182). A
count that has located no cut may begin again once an end has left APR_HOLD. -/
def State.cutBoundary (s : State) (ns : Nat) : State :=
  let hold := s.loopGuard && s.aprState .a == 2 && s.aprState .b == 2
  match s.loop.cutFrames with
  | none => if hold then { s with loop := { s.loop with cutFrames := some ns } } else s
  | some t0 =>
    if hold || ns < t0 + 16 * (s.sched .a).frame || !s.routeA.cutCount.isEmpty then s
    else { s with loop := { s.loop with cutFrames := none } }

/-- LOOP_CUT_LOCATED (R182): 16 loop frames have been counted; the first block in which B was the reference more often
than A holds the cut. -/
def doLoopCutLocated (s : State) : State :=
  match s.loop.cutFrames with
  | none => s
  | some t0 =>
    let c := s.sched .a
    let stop := t0 + 16 * c.frame
    let open' := [Route.a, Route.b].any (fun r =>
      (s.route r).optics.inFlight.any (fun l => !l.compressed && decide (l.ns < stop)) ||
        ((s.handoff r).filter (fun h => decide (h.launch.ns < stop))).isSome)
    if decide ((s.route .a).optics.frameNs < stop) || open' || s.routeA.cutCount.isEmpty then s
    else
      let hit := s.routeA.cutCount.find? (fun (e : Nat × Nat × Nat) => decide (e.2.1 < e.2.2))
      let s := s.modRoute .a (fun x => { x with cutCount := [] })
      match hit with
      | some e =>
        let p := c.first + 64 * e.1 * c.step
        (s.put 0x2A30 0x12 p).issueOpenAt 6 0x24 0 p
      | none => s

def execLoopCutLocated (s : State) : Out := State.next (doLoopCutLocated s)

/-! ### Inputs of the filter chain (R219, R233, R234) -/

/-- The records of a chain after the re-primings and record resets of an input (R233): OUTS alone, or every field, with the inputs of the
block in hand that a bank swap would form its partial sums from. -/
def FdcCtx.touch (c : FdcCtx) (reprimed reset : List Nat) : FdcCtx :=
  { c with
    block := c.block.map (fun (e : Nat × List Int) => if reset.contains e.1 then (e.1, e.2.map (fun _ => 0)) else e)
    recs := c.recs.map (fun (e : Nat × FdcRec) =>
      if reset.contains e.1 then (e.1, FdcRec.zero)
      else if reprimed.contains e.1 then (e.1, { e.2 with outs := 0 }) else e) }

/-- Gives one input to chains, oldest first (R221, R233): each chain up to the boundary at which the next replaced it takes the input
alone; after it, the next takes it too, until the outputs of the older are complete. -/
def State.feedChains (s : State) (q : Route) (feed : State → FdcCtx → FdcCtx × State) : List FdcCtx → List FdcCtx × State
  | [] => ([], s)
  | [c] => if c.before then (let x := feed s c; ([x.1], x.2)) else ([c], s)
  | c :: l =>
    let x := feed s c
    if c.before then (x.1 :: l, x.2)
    else
      let y := State.feedChains x.2 q feed l
      (if x.1.done then y.1 else x.1 :: y.1, y.2)

/-- One input of the chains of a route (R221, R233, R491); the last input of launches that have ended runs them out. `enters` tells that
the launch is a contributing shot. -/
def State.feedRoute (s : State) (q : Route) (l : Launch) (flags : Nat) (enters : Bool) (reprimed reset : List Nat)
    (xs : List Int) : State :=
  let pos := s.osw q
  let f := (s.route q).fdc
  let x := s.feedChains q (fun s c => s.feedCtx q (c.touch reprimed reset) l pos flags enters xs) (f.old ++ f.cur.toList)
  let s := (x.2.modFdc q (fun _ => { cur := x.1.getLast?, old := x.1.dropLast })).runOutAll q
  match (s.route q).fdc.cur with
  | some c => s.reportFade q c
  | none => s

/-- The last valid update of each position of a route: the low 16 bits of its phase, as a Comb of kind 2 repeats it (Table 10.1). -/
def State.noteLast (s : State) (r : Route) (l : List (Nat × Int)) : State :=
  s.modComb r (fun c => { c with last := l.foldl (fun m e => mapSet m e.1 (wrapS e.2 16)) c.last })

/-- Gives up a hand-off once its launch has entered the filter chain. -/
def State.clearHandoff (s : State) (r : Route) : State :=
  s.modRay r (fun y => { y with handoff := none, ring := [], updates := [] })

/-- One input of a route of its own. -/
def fdcInputRoute (r : Route) (s : State) : State :=
  match s.handoff r with
  | none => s
  | some h =>
    let c := sliceCfg (s.readAt r h.launch.seq) s.kind r
    let ps := c.positions.take (c.positions.length - c.gauge)
    let us := ps.map (fun p => (p, mapGet (s.route r).ray.updates p))
    if us.any (fun e => e.2.isNone) then s
    else
      let us := us.map (fun e => (e.1, e.2.getD (.lost 0 false false)))
      let xs := us.map (fun e => match e.2 with
        | .valid d _ _ _ _ _ => d
        | .lost .. => 0)
      let flags := us.foldl (fun a e => a ||| e.2.flags) h.launch.frameFlags
      let pick := fun (f : Update → Bool) => (us.filter (fun e => f e.2)).map (·.1)
      let reset := pick Update.isEcc
      let s := if reset.isEmpty then s else s.bump (at10 0x2610 r) 0x46 reset.length
      let enters := us.any (fun e => match e.2 with | .valid .. => true | .lost .. => false)
      let s := s.feedRoute r h.launch flags enters
        (pick (fun u => match u with | .lost _ p _ => p | _ => false)) reset xs
      let valid := us.filterMap (fun e => match e.2 with
        | .valid _ v _ _ _ _ => some (e.1, v)
        | .lost .. => none)
      (s.noteLast r valid).clearHandoff r

/-- One input of the loop: dm of R180 at every merged position, with the flags of both ends and LOOP_SINGLE while an end
is out of service or in APR_HOLD; what an end launched before it left service is lost, with REDUCED (R181). -/
def fdcInputLoop (s : State) : State :=
  match s.loopNs with
  | none => s
  | some ns =>
    let ps := mergedPositions (s.handRead .a) s.kind
    if !s.instantReady ns || ps.any (fun p => (mapGet s.loop.emitted p).isNone) then s
    else
      let ends := [Route.a, Route.b].filter (fun r => (s.handoffAt r ns).isSome)
      let launches := ends.filterMap (fun r => (s.handoffAt r ns).map (·.launch))
      match launches with
      | [] => s
      | l :: _ =>
        let em := ps.map (fun p => (mapGet s.loop.emitted p).getD none)
        let xs := em.map (fun e => match e with | some x => x.1 | none => 0)
        let ups := fun (r : Route) => ps.filterMap (fun p => (s.endUpdate r ns p).map (fun u => (p, u)))
        let lost := ends.foldl (fun a r => (ups r).foldl (fun a e => match e.2 with
          | .lost fl _ _ => a ||| fl
          | .valid .. => if s.inService r then a else a ||| flReduced) a) 0
        let single := [Route.a, Route.b].any (fun r => !s.inService r || s.aprState r == 2)
        let base := launches.foldl (fun a x => a ||| x.frameFlags) 0
        let flags := em.foldl (fun a e => match e with | some x => a ||| x.2.2.2 | none => a)
          (base ||| lost ||| (if single then flSingle else 0))
        let enters := em.any Option.isSome
        let reprimed := ends.flatMap (fun r => if s.inService (otherRoute r) then []
          else (ups r).filterMap (fun e => match e.2 with | .lost _ true _ => some e.1 | _ => none))
        let reset := (ups .a).filterMap (fun e => if e.2.isEcc then some e.1 else none)
        let s := if reset.isEmpty then s else s.bump 0x2610 0x46 reset.length
        let s := s.feedRoute .a l flags enters reprimed reset xs
        let s := s.noteLast .a ((ps.zip em).filterMap (fun e => e.2.map (fun x => (e.1, x.2.1))))
        let s := ends.foldl State.clearHandoff s
        { s with loop := { s.loop with instant := s.loop.instant + 1, emitted := [] } }

end Sys2Proof.Machine
end

