-- ==== Sys2Proof/Machine/Owners.lean ====
section
/-! DEFINITION. The owners of DRAM bursts and what an uncorrectable one costs them (R371, R386, Table 14.3). -/

namespace Sys2Proof.Machine

open Sys2Proof

/-- The key of a track: four groups to a position or window. -/
def trackKey (p g : Nat) : Nat := 4 * p + g

/-- The reference of a track. -/
def Track.ref (t : Track) : TrackRec := if t.role then t.rec1 else t.rec0

/-- A backlog frame is lost: not sent and not replayed (Table 14.3). -/
def State.loseFrame (s : State) (place : Nat) : State :=
  { s with streams := { s.streams with backlog := listSet s.streams.backlog place (fun f =>
      { f with next := Vector.replicate 2 none, lost := true }) } }

/-- A capture area that reads uncorrectable: 64 bytes of the capture held become open, so that its header CRC fails. -/
def spoil (b : Bytes) (v : Nat) (n : Nat) : Bytes :=
  let at' := v % Nat.max b.length 1 / 64 * 64
  (b.zip (List.range b.length)).map (fun e =>
    if at' ≤ e.2 ∧ e.2 < at' + 64 then byteOf (Config.freeValue (n + e.2 - at')) else e.1)

/-- The values of a line with an uncorrectable burst: the 32 values from a place on are open. -/
def spoilValues (l : List Int) (at' : Int) (v : Nat) : List Int :=
  (l.zip (List.range l.length)).map (fun e =>
    if at' ≤ (e.2 : Int) ∧ (e.2 : Int) < at' + 32 then wrapS ((Config.freeValue (v + e.2) : Nat) : Int) 16 else e.1)

/-- Who owns a DRAM burst (Table 14.3): a line of a Comb with the byte in it, a tracker record, a frame of the backlog by its place, the area of a slot, or, in the
reserve, a copy of the Keepers' control data, log records or training patterns. -/
inductive DramOwner where
  | combLine (r : Route) (n : Nat) (off : Nat)
  | tracker (r : Route) (pos : Nat) (group role : Nat)
  | backlog (place : Nat)
  | captureArea (slot : Fin 8)
  | keeperData (copy : Fin 2)
  | log (places : List Nat)
  | trainingPatterns
  | unused
  deriving DecidableEq, Repr

/-- The owner of a burst of the reserve, by its number in it. -/
def reserveOwner (ch : Fin 2) (k : Nat) : DramOwner :=
  match Config.reserveUse k with
  | 0 => .keeperData ch
  | 1 => .trainingPatterns
  | n + 2 => .log [2 * n, 2 * n + 1]

/-- The owner of a byte of the interleaved part by its address there. -/
def State.partOwner (s : State) (a : Nat) : DramOwner :=
  let get := s.layout
  let sizes := partSizes get
  let inPart := fun (i : Nat) => decide (Config.partBase sizes i ≤ a) && decide (a < Config.partBase sizes i + sizes.getD i 0)
  let off := fun (i : Nat) => a - Config.partBase sizes i
  let comb := fun (r : Route) =>
    let d := Nat.max (s.combDepth r) 1
    let m := off (routeNum r) / Nat.max (combLineBytes get r) 1
    let last := (s.route r).comb.next - 1
    DramOwner.combLine r (last - (last + d - m % d) % d) (off (routeNum r) % Nat.max (combLineBytes get r) 1)
  let track := fun (r : Route) =>
    let c := mkSched get .sense r
    let i := off (2 + routeNum r) / 32
    match (endPositions get .sense r)[i / 2 / Nat.max c.g 1]? with
    | some p => DramOwner.tracker r p (i / 2 % Nat.max c.g 1) (i % 2)
    | none => .unused
  if inPart 0 then comb .a else if inPart 1 then comb .b else if inPart 2 then track .a else if inPart 3 then track .b
  else
    let x := off 4
    match s.streams.backlog.findIdx? (fun f =>
        let o := Config.frameOffset f.stream f.route (f.fcount % 64)
        decide (o ≤ x) && decide (x < o + f.bytes.length)) with
    | some i => .backlog i
    | none => .unused

/-- The owner of a burst of a channel (R370, R371, R286). -/
def State.ownerAt (s : State) (ch : Fin 2) (b : Nat) : DramOwner :=
  let ca := 64 * b
  if s.usableBytes ≤ ca then reserveOwner ch ((ca - s.usableBytes) / 64)
  else
    let area := fun (k : Fin 8) => (areaAddr s.layout k.val, captureArea s.layout k.val)
    match (List.finRange 8).find? (fun (k : Fin 8) =>
        s.num (capIdx k) 0x01 == 1 && s.slotOn ch k && decide ((area k).1 ≤ ca) && decide (ca < (area k).1 + (area k).2)) with
    | some k => .captureArea k
    | none => s.partOwner (if s.bothChannels then deinterleave (s.geo 4) ch ca else ca)

/-- What the owner of an uncorrectable burst of a channel suffers (Table 14.3, R447, R448): a Comb line is marked for the captures that read
it, and is a lost value to the data trigger; a copy of the Keepers' control data is rewritten from the other, log records read as zeros, and
training patterns are rewritten before the next training. -/
def State.ownerLoss (s : State) (ch : Fin 2) : DramOwner → State
  | .combLine r n off =>
    let (v, s) := s.draw
    let s := s.modComb r (fun c => { c with lines := c.lines.map (fun e =>
      if e.1 == n then (e.1, { e.2 with bad := true, vals := spoilValues e.2.vals ((off / 2 : Nat) : Int) v }) else e) })
    if (s.route r).comb.next != n + 1 then s
    else (List.finRange 8).foldl (fun (s : State) (k : Fin 8) =>
      if s.num (capIdx k) 0x02 == routeNum r then s.setSlot k { s.capture.get k with prev := none } else s) s
  | .tracker r p g role =>
    let (v, s) := s.draw
    s.modThermal r (fun t => { t with tracks := match mapGet t.tracks (trackKey p g) with
      | some x =>
        if x.role != (role == 1) then t.tracks
        else
          let bad : TrackRec := { x.ref with ofs := toSigned (v % 2 ^ 32) 32 }
          mapSet t.tracks (trackKey p g) { (if x.role then { x with rec1 := bad } else { x with rec0 := bad }) with rebase := true }
      | none => t.tracks })
  | .backlog place => s.loseFrame place
  | .captureArea k =>
    let x := s.capture.get k
    match x.held with
    | none => s
    | some h =>
      let (v, s) := s.draw
      let t := s.setSlot k { x with held := some { h with data := spoil h.data v s.free } }
      { t with free := t.free + 64 }
  | .keeperData i => if s.copyChannel i == ch then s.rewriteCopy i else s
  | .log l =>
    { s with streams := { s.streams with log := l.foldl (fun l k => listSet l k (fun _ => blankRecord)) s.streams.log } }
  | .trainingPatterns => s.modDram ch (fun d => { d with patternsBad := true })
  | .unused => s

/-- The bursts that a reader found in error: each counted and tested (R386), and the owners of the uncorrectable ones suffer their loss. -/
def State.readLoss (s : State) (errors : List BurstError) : State :=
  errors.foldl (fun (s : State) e =>
    let o := s.ownerAt e.ch e.burst
    let s := s.readErrors [e]
    if e.bad && s.chServing e.ch then s.ownerLoss e.ch o else s) s

end Sys2Proof.Machine
end

