-- ==== Sys2Proof/Machine/Survey.lean ====
section
/-! DEFINITION. SURVEY (06_survey_loop.md): levels and events of the fibre map (R171, R172), the end of the normal phase,
the proposals of a completed run (R173, R175), registration (R174). -/

namespace Sys2Proof.Machine

open Sys2Proof

/-! ### Least-squares lines (R172) -/

/-- D of the fit over the offsets 3 to w + 2. -/
def fitDen (w : Nat) : Int :=
  let xs := (List.range w).map (fun i => ((i + 3 : Nat) : Int))
  (w : Int) * sumI (xs.map (fun x => x * x)) - sumI xs * sumI xs

/-- The value at offset 0, times D, of the line through the levels at the offsets 3 to w + 2 on one side. -/
def fitNum (w : Nat) (y : Nat → Int) : Int :=
  let xs : List Nat := (List.range w).map (fun (i : Nat) => i + 3)
  let sx := sumI (xs.map (fun (x : Nat) => (x : Int)))
  let sxx := sumI (xs.map (fun (x : Nat) => (x : Int) * x))
  sumI (xs.map y) * sxx - sx * sumI (xs.map (fun (x : Nat) => (x : Int) * y x))

/-- A level of the list as an integer. -/
def lvAt (l : List Nat) (b : Nat) : Int := (l.getD b 0 : Nat)

/-- The before-line at a bin, times D. -/
def beforeLine (l : List Nat) (w b : Nat) : Int := fitNum w (fun x => lvAt l (b - x))

/-- The after-line at a bin, times D. -/
def afterLine (l : List Nat) (w b : Nat) : Int := fitNum w (fun x => lvAt l (b + x))

/-! ### Events (R172) -/

/-- A reflective event at a bin: a local maximum whose excess over the before-line reaches the threshold. -/
def reflectAt (l : List Nat) (w thr tbin b : Nat) : Option (Nat × FibreEvent) :=
  let d := fitDen w
  let p := lvAt l (b - 1)
  let q := lvAt l b
  let n := lvAt l (b + 1)
  let ex := q * d - beforeLine l w b
  if p < q && n ≤ q && decide ((thr : Int) * d ≤ ex) then
    let den := 2 * q - p - n
    let loc := rhuDiv (4 * (tbin : Int) * (2 * (b : Int) * den + (n - p))) (2 * den)
    some (b, { loc := loc.toNat, type := 1, height := rhuDiv ex d, loss := 0, level := (rhuDiv (beforeLine l w b) d).toNat })
  else none

/-- Runs of bins where a difference reaches the threshold, each at the bin of its greatest difference, the first at a
tie. -/
def lossRuns (thr : Int) (l : List (Nat × Int)) : List (Nat × Int) :=
  (l.foldl (fun (acc : List (Nat × Int) × Option (Nat × Int)) e =>
    if thr ≤ e.2 then
      match acc.2 with
      | none => (acc.1, some e)
      | some x => (acc.1, some (if x.2 < e.2 then e else x))
    else match acc.2 with
      | none => acc
      | some x => (acc.1 ++ [x], none)) ([], none)) |> fun r => match r.2 with
      | some x => r.1 ++ [x]
      | none => r.1

/-- A loss or gain event. -/
def lossEvent (l : List Nat) (w tbin : Nat) (b : Nat) : FibreEvent :=
  let d := fitDen w
  let diff := beforeLine l w b - afterLine l w b
  { loc := b * 4 * tbin, type := if diff < 0 then 3 else 2, height := 0, loss := rhuDiv diff d,
    level := (rhuDiv (beforeLine l w b) d).toNat }

/-- Joins each reflective event with the first loss event within w bins of it. -/
def joinEvents (w : Nat) (refl : List (Nat × FibreEvent)) (loss : List (Nat × FibreEvent)) : List (Nat × FibreEvent) :=
  let near := fun (a b : Nat) => decide (a ≤ b + w) && decide (b ≤ a + w)
  let r := refl.map (fun e => match loss.find? (fun x => near e.1 x.1 && x.2.type == 2) with
    | some x => (e.1, { e.2 with loss := x.2.loss })
    | none => e)
  let rest := loss.filter (fun x => !(x.2.type == 2 && refl.any (fun e => near e.1 x.1)))
  r ++ rest

/-- Insertion sort of events by location. -/
def sortEvents (l : List FibreEvent) : List FibreEvent :=
  l.foldl (fun acc e => acc.filter (fun x => decide (x.loc ≤ e.loc)) ++ [e] ++ acc.filter (fun x => decide (e.loc < x.loc))) []

/-- The end event at a bin, with the figures of the before-line and, where its bins lie within the reach, the after-line (Table 6.5). An end
too near the origin for a before-line has a LEVEL that the manual does not state, `v`. -/
def endEvent (l : List Nat) (w tbin b v : Nat) : FibreEvent :=
  let d := fitDen w
  let bl : Int := if w + 2 ≤ b then rhuDiv (beforeLine l w b) d else ((v % 65536 : Nat) : Int)
  { loc := b * 4 * tbin, type := 4, height := lvAt l b - bl
    loss := if b + w + 2 < l.length && decide (w + 2 ≤ b) then rhuDiv (beforeLine l w b - afterLine l w b) d else 0, level := bl.toNat }

/-- The events of a list of levels from the first bin considered to the reach; a reflective event needs the before-line alone. The fitted lines
and the floor of a loop take every bin from 0, those of the AGC exclusion too (DESIGN CHOICE, assumption log 23: R172 has the events alone
found beyond the exclusion). -/
def findEvents (l : List Nat) (w refl loss tbin first reach : Nat) : List FibreEvent :=
  let d := fitDen w
  let near := (List.range reach).filter (fun b => decide (first ≤ b) && decide (w + 2 ≤ b))
  let bins := near.filter (fun b => decide (b + w + 2 ≤ reach))
  let rs := near.filterMap (reflectAt l w refl tbin)
  let diffs := bins.map (fun b => (b, beforeLine l w b - afterLine l w b))
  let ls := lossRuns ((loss : Int) * d) diffs
  let gs := lossRuns ((loss : Int) * d) (diffs.map (fun e => (e.1, -e.2)))
  let ev := (ls ++ gs).map (fun e => (e.1, lossEvent l w tbin e.1))
  sortEvents ((joinEvents w rs ev).map (·.2))

/-- The mean of a list, half up, as every figure of an event and the noise floor are rounded (DESIGN CHOICE, assumption log 23: R172 names
no rounding for HEIGHT, LOSS, LEVEL and the floor). -/
def meanLevel (l : List Nat) : Nat := (rhuDiv (sumN l) (Nat.max l.length 1)).toNat

/-- Ascending insertion sort of naturals. -/
def sortN (l : List Nat) : List Nat :=
  l.foldl (fun acc e => acc.filter (fun x => decide (x ≤ e)) ++ [e] ++ acc.filter (fun x => decide (e < x))) []

/-- The noise floor: the mean of the last 1,024 bins, or of the 1,024 lowest under Loop Guard. -/
def noiseFloor (l : List Nat) (loop : Bool) : Nat := meanLevel (if loop then (sortN l).take 1024 else l.drop (l.length - 1024))

/-- The end of fibre from the first bin considered: the last bin at or above the floor and the end threshold, with 256 bins below that level
after it. -/
def endOfFibre (l : List Nat) (thr first : Nat) : Option Nat :=
  match (List.range l.length).reverse.find? (fun b => decide (first ≤ b) && decide (thr ≤ l.getD b 0)) with
  | some e => if e + 256 < l.length then some e else none
  | none => none

/-! ### Loop matching (R175) -/

/-- The sums of the pairs of reflective events whose heights differ by at most 3.00 dB. -/
def loopSums (a b : List FibreEvent) : List Nat :=
  (a.filter (fun e => e.type == 1)).flatMap (fun x => (b.filter (fun e => e.type == 1)).filterMap (fun y =>
    if (x.height - y.height).natAbs ≤ 300 then some (x.loc + y.loc) else none))

/-- The sums within 8 units of one. -/
def supporters (l : List Nat) (s : Nat) : List Nat := l.filter (fun x => decide (x ≤ s + 8) && decide (s ≤ x + 8))

/-- Λ_p with the number of supporting pairs: none with fewer than 2. -/
def loopMatch (l : List Nat) : Option (Nat × Nat) :=
  let best := l.foldl (fun (b : Option (Nat × Nat)) s =>
    let n := (supporters l s).length
    match b with
    | none => some (s, n)
    | some (t, m) => if m < n || (m == n && s < t) then some (s, n) else b) none
  match best with
  | some (s, n) => if 2 ≤ n then some ((rhuDiv (sumN (supporters l s)) n).toNat, n) else none
  | none => none

/-! ### The end of the normal phase (R169, R172, R173) -/

/-- The enabled routes of the state. -/
def State.surveyRoutes (s : State) : List Route := [Route.a, Route.b].filter s.enabled

/-- The events, floor and end of one end from its sums. -/
def State.formEvents (s : State) (r : Route) : State :=
  let e := s.surveyEnd r
  let c := s.sched r
  let l := levels e.s e.launches s.free
  let v := Config.freeValue (s.free + e.s.length)
  let s := { s with free := s.free + e.s.length + 1 }
  let first := cdiv (s.r100 r 0x2180 0x08) c.tbin
  let all := findEvents l (s.cfg r 0x2A00 0x06) (s.cfg r 0x2A00 0x04) (s.cfg r 0x2A00 0x05) c.tbin first c.reach
  let fl := noiseFloor l s.loopGuard
  let fin := if s.loopGuard then none else endOfFibre l (fl + s.cfg r 0x2A00 0x07) first
  let ends := match fin with
    | some b => [endEvent l (s.cfg r 0x2A00 0x06) c.tbin b v]
    | none => []
  let ev := sortEvents (all ++ ends)
  s.modSurvey r (fun e => { e with
    events := ev.take 64, overflow := decide (64 < ev.length), floor := fl, endBin := fin })

/-- The window proposal of one end (Table 6.1). -/
def State.formWindow (s : State) (r : Route) (lambda : Nat) : State :=
  let e := s.surveyEnd r
  let c := s.sched r
  let m := s.cfg r 0x2A00 0x0B
  let len := s.cfg r 0x2A00 0x0C
  let at' := if s.loopGuard then some (lambda / (4 * c.tbin)) else e.endBin
  let w := match at' with
    | some b => if m + len ≤ b then some (b - m + 1 - len, b - m) else none
    | none => none
  let pn := match w with
    | some x => sumN ((e.w.drop x.1).take (x.2 + 1 - x.1)) / Nat.max e.launches 1
    | none => 0
  s.modSurvey r (fun e => { e with window := w, pn := pn })

/-- Begins the APR phase of an end that has one: the lane steps down to the APR code, and the launches from 2 shot
periods on count. -/
def State.beginApr (s : State) (r : Route) : State :=
  let on := decide (1 ≤ s.aprCode r) && decide (s.aprCode r < s.normalCode r)
  let t := s.cyc + 2 * (s.sched r).t
  let s := s.modSurvey r (fun e => { e with ended := true, aprPhase := on, aprFrom := t })
  if on then s.setPump r (s.aprCode r) else s

/-- The ends whose normal phase ends now: those that have accumulated their launches, under Loop Guard both at once (R169). -/
def State.endsReady (s : State) : List Route :=
  let rs := s.surveyRoutes
  let ready := rs.filter (fun r => !(s.surveyEnd r).ended && decide (s.cfg r 0x2A00 0x01 ≤ (s.surveyEnd r).launches))
  if s.loopGuard && ready.length != rs.length then [] else ready

/-- SURVEY_NORMAL_PHASE_END (R169): the ends that have accumulated their launches form their events and windows and go on to their APR
phase. -/
def doSurveyNormalPhaseEnd (s : State) : State :=
  let rs := s.endsReady
  if s.survey.phase != 1 || (rs.isEmpty && !s.surveyRoutes.isEmpty) then s
  else
    let s := rs.foldl State.formEvents s
    let m := if s.loopGuard then loopMatch (loopSums s.survey.endA.events s.survey.endB.events) else none
    let s := match m with
      | some x => { s with survey := { s.survey with lambda := x.1, supporters := x.2 } }
      | none => { s with survey := { s.survey with lambda := 0, supporters := 0 } }
    if s.loopGuard && m.isNone then s.surveyFail 5
    else
      let s := rs.foldl (fun (s : State) r => s.formWindow r s.survey.lambda) s
      if rs.any (fun r => (s.surveyEnd r).window.isNone) then s.surveyFail (if s.loopGuard then 5 else 4)
      else
        let s := rs.foldl State.beginApr s
        if s.surveyRoutes.all (fun r => (s.surveyEnd r).ended) then { s with survey := { s.survey with phase := 2 } } else s

def execSurveyNormalPhaseEnd (s : State) : Out := State.next (doSurveyNormalPhaseEnd s)

/-! ### The end of a run (R173) -/

/-- The light speed in m/s. -/
def lightSpeed : Nat := 299792458

/-- The proposed group index as binary32, 0 when there is none. -/
def proposedIndex (loc len : Nat) : Nat :=
  let a := lightSpeed * loc
  let b := 8000000000 * len
  if len = 0 || decide (10 * a < 14 * b) || decide (100 * a > 155 * b) then 0 else toF32 a b

/-- Whether the distance of two events fits the coil of nominal length: within a twentieth of x_c. -/
def coilFits (ng : Dy) (len d : Nat) : Bool :=
  let k : Nat := if ng.e < 0 then (-ng.e).toNat else 0
  let up : Nat := if ng.e < 0 then 0 else ng.e.toNat
  let a : Int := 8000000000 * (len : Int) * (ng.m * 2 ^ up)
  let b : Int := (d : Int) * lightSpeed * 2 ^ k
  decide (20 * (b - a).natAbs ≤ a.natAbs) && decide (0 < a)

/-- The first pair of reflective events beyond the AGC exclusion that fits the coil. -/
def coilPair (ng : Dy) (len : Nat) : List FibreEvent → Option (Nat × Nat)
  | [] => none
  | x :: t =>
    match t.find? (fun y => coilFits ng len (y.loc - x.loc)) with
    | some y => some (x.loc, y.loc)
    | none => coilPair ng len t

/-- The coil of an end: its pair of events, with the proposed bins; the last is 0 where they do not span enough (Table 6.1). -/
def State.coilOf (s : State) (r : Route) : Option ((Nat × Nat) × (Nat × Nat)) :=
  let e := s.surveyEnd r
  let len := s.cfg r (at10 0x2A10 r) 0x02
  if len = 0 then none
  else
    let tb := (s.sched r).tbin
    let g := s.cfg r 0x2A00 0x0D
    (coilPair (ofF32 (s.g100 r 0x2110 0x07)) len (e.events.filter (fun x => x.type == 1))).map (fun p =>
      let f := cdiv p.1 (4 * tb) + g
      let l := p.2 / (4 * tb) - g
      (p, (f, if f + 15 ≤ l && g ≤ p.2 / (4 * tb) then l else 0)))

/-- Two bin numbers as one object value. -/
def binPair (p : Option (Nat × Nat)) : Nat :=
  match p with
  | some x => x.1 * 2 ^ 32 + x.2
  | none => 0

/-- The results of a completed run at one end: its proposals, and the objects that report them. -/
def State.completeEnd (s : State) (r : Route) : State :=
  let c := s.coilOf r
  let e := s.surveyEnd r
  let ev := match c with
    | some x => e.events.map (fun y =>
        if y.loc == x.1.1 && y.type == 1 then { y with type := 5 }
        else if y.loc == x.1.2 && y.type == 1 then { y with type := 6 } else y)
    | none => e.events
  let pa := if e.aprPhase then e.aprSum / Nat.max e.aprLaunches 1 else 0
  let tb := (s.sched r).tbin
  let o := at10 0x2A10 r
  let fin := match e.endBin with
    | some b => b * 4 * tb
    | none => 0xFFFFFFFF
  let ix := match e.endBin with
    | some b => proposedIndex (b * 4 * tb) (s.cfg r o 0x01)
    | none => 0
  let coil := c.map (·.2)
  let p : Proposals := { index := ix, coil := coil, window := e.window, pn := e.pn, pa := pa, codes := e.codes }
  let s := s.modSurvey r (fun e => { e with events := ev, pa := some pa, mapDue := true })
  let s := match r with
    | .a => { s with survey := { s.survey with propA := p } }
    | .b => { s with survey := { s.survey with propB := p } }
  let s := ((s.put o 0x10 fin).put o 0x11 ix).put o 0x12 (binPair coil)
  let s := ((s.put o 0x13 (binPair e.window)).put o 0x14 e.pn).put o 0x15 pa
  s.putB o 0x20 (s.mapPayload r)

/-- SURVEY_RUN_COMPLETE (R170, R173): every end has completed its phases. -/
def doSurveyRunComplete (s : State) : State :=
  let rs := s.surveyRoutes
  if s.survey.phase != 2
      || rs.any (fun r => !s.aprDone r) then s
  else
    let s := rs.foldl State.completeEnd s
    let s := (s.put 0x2A30 0x10 s.survey.lambda).put 0x2A30 0x11 s.survey.supporters
    { s.put 0x2A00 0x10 2 with survey := { s.survey with phase := 0, done := true, propLambda := s.survey.lambda } }

def execSurveyRunComplete (s : State) : Out := State.next (doSurveyRunComplete s)

/-! ### Writes: a run request and Register (R169, R174) -/

/-- A write of OD 2A00.09: a run starts once every route start has completed; BUSY during a run, WRONG_MODE outside
SURVEY. A run that still waits for the route starts is not active, and the write asks for no second one. -/
def surveyRunWrite (s : State) : Reply :=
  if s.mode != 5 then ⟨9, s, id⟩
  else if s.surveyRuns then ⟨1, s, id⟩
  else
    let s := (s.flushDues .a).flushDues .b
    ⟨0, { s with survey := { s.survey with phase := 3 } }.surveyIfReady, id⟩

/-- Sets a draft number unless the proposal is zero. -/
def State.propose (s : State) (idx sub n : Nat) : State := if n = 0 then s else s.draftNum idx sub n

/-- Bytes of a registration record (Table 3.10) in the place of a switch position. -/
def patchBytes (b : Bytes) (off : Nat) (x : Bytes) : Bytes :=
  let b := b ++ List.replicate (off + x.length - b.length) 0
  b.take off ++ x ++ b.drop (off + x.length)

/-- Copies the proposals of one end into the draft (R174). -/
def State.registerEnd (s : State) (r : Route) : State :=
  let p := match r with
    | .a => s.survey.propA
    | .b => s.survey.propB
  let s := s.propose (at100 0x2110 r) 0x07 p.index
  let s := match p.coil with
    | some c => (s.propose (at10 0x2410 r) 0x07 c.1).propose (at10 0x2410 r) 0x08 c.2
    | none => s
  match p.window with
  | none => s
  | some w =>
    let o := at100 0x2160 r
    if s.g100 r 0x2140 0x01 == 1 then
      let k := objKey o 0x20
      let off := 32 * s.cfg r 0x2A00 0x0E
      let old := regRecord (dictGet s.control.draft k).toBytes (s.cfg r 0x2A00 0x0E)
      let z := fun (n m : Nat) => if n = 0 then m else n
      let rec' := beBytes 4 (z w.1 old.firstBin) ++ beBytes 4 (z w.2 old.lastBin) ++ beBytes 8 (z p.pn old.pn)
        ++ beBytes 8 (z p.pa old.pa) ++ beBytes 2 p.codes.1 ++ beBytes 2 p.codes.2
      s.setDraft k (.blob (patchBytes (dictGet s.control.draft k).toBytes off rec'))
    else
      let s := (((s.propose o 0x08 w.1).propose o 0x09 w.2).propose o 0x0A p.pn).propose o 0x0B p.pa
      (s.draftNum o 0x0C p.codes.1).draftNum o 0x0D p.codes.2

/-- A write of OD 2A00.08 by a client (R174): BUSY during a run or while another client holds the draft, INCOMPLETE when
no run has completed since entry to SURVEY. -/
def registerWrite (c : Client) (s : State) : Reply :=
  if s.surveyRuns then ⟨1, s, id⟩
  else if !s.survey.done then ⟨13, s, id⟩
  else if s.draftBusy c then ⟨1, s, id⟩
  else
    let s := s.surveyRoutes.foldl State.registerEnd (s.takeDraft c)
    let l := s.survey.propLambda
    let s := if s.loopGuard && l != 0 then (s.draftNum 0x2A30 0x01 (rhu l 2).toNat).draftNum 0x2A30 0x02 1 else s
    ⟨0, s.reportDraft, id⟩

end Sys2Proof.Machine
end

