-- ==== Sys2Proof/Machine/Thermal.lean ====
section
/-! DEFINITION. Temperature (07_temperature.md): the DRX lanes and their supervision (R186 to R191), Raman blocks from
accumulation to temperature (R192 to R202), the quasi-static tracker (R203 to R211) and fusion (R212 to R214). -/

namespace Sys2Proof.Machine

open Sys2Proof

/-! ### Samples and points (R188, R195) -/

/-- s(p): the DRX sample of a position (R195). -/
def drxSample (c : Sched) (p : Nat) : Nat := p * c.sensePitch * c.tbin / 4

/-- Raman pitch P_R of the governing route. -/
def ramanPitch (get : CfgRead) (r : Route) : Nat := Nat.max (get (at10 0x2510 (govRead get r)) 0x02) 1

/-- The Raman points of a route. -/
def ramanPoints (get : CfgRead) (r : Route) : Nat := cdiv (mkSched get .sense r).count (ramanPitch get r)

/-- Whether point j holds P_R positions, as all but the last do. -/
def wholePoint (get : CfgRead) (r : Route) (j : Nat) : Bool := decide ((j + 1) * ramanPitch get r ≤ (mkSched get .sense r).count)

/-- The positions of point j, first and last. -/
def pointPositions (get : CfgRead) (r : Route) (j : Nat) : Nat × Nat :=
  let c := mkSched get .sense r
  let p := ramanPitch get r
  (c.first + j * p, Nat.min (c.first + (j + 1) * p - 1) (c.first + c.count - 1))

/-- Whether a route is the B end of a loop under a reading. -/
def isLoopB (get : CfgRead) (r : Route) : Bool := get 0x2000 0x03 == 1 && r == .b

/-- The span of point j at an end: first sample and number of samples (R195). At the B end of a loop, the samples of
B-positions P - (first + (j + 1) P_R - 1) to P - (first + j P_R), of the last point too. -/
def pointSpan (get : CfgRead) (r : Route) (j : Nat) : Nat × Nat :=
  let c := mkSched get .sense r
  let x := pointPositions get r j
  if isLoopB get r then
    let a := drxSample c (loopP get - (c.first + (j + 1) * ramanPitch get r - 1))
    let e := drxSample c (loopP get - x.1 + 1)
    (a, e - a)
  else
    let a := drxSample c x.1
    let e := if j + 1 = ramanPoints get r then drxSample c x.2 + 1 else drxSample c (x.2 + 1)
    (a, e - a)

/-- The coil span of a route: first sample and number of samples (R198). -/
def coilSpan (get : CfgRead) (r : Route) : Nat × Nat :=
  let c := mkSched get .sense r
  let o := at10 0x2410 r
  let gd := get (at10 0x2510 (govRead get r)) 0x06
  let lo := cdiv (get o 0x07 * c.tbin) 4 + gd
  let hi := get o 0x08 * c.tbin / 4 - gd
  (lo, hi + 1 - lo)

/-- A span as the other end of the loop sees it: sample m there is sample floor((Λ - a - 4m) / 4) here (R201). -/
def farSpan (get : CfgRead) (x : Nat × Nat) : Nat × Nat :=
  let far := (get 0x2A30 0x01 - loopA get) / 4
  (far + 1 - (x.1 + x.2), x.2)

/-- The samples an end takes of a pulse: to s_last, and under Loop Guard to the end of the far coil (R188, R201). -/
def drxCount (get : CfgRead) (r : Route) : Nat :=
  let n := ramanPoints get r
  let last := pointSpan get r (if isLoopB get r then 0 else n - 1)
  let far := farSpan get (coilSpan get (otherRoute r))
  if get 0x2000 0x03 == 1 then Nat.max (last.1 + last.2) (far.1 + far.2) else last.1 + last.2

/-! ### DRX window (R187 to R191) -/

/-- A clipped DRX code (R190). -/
def drxClip (x : Int) : Bool := x == -32768 || x == 32767

/-- A code referred to gain x128 (R187). -/
def drxRef (gain : Nat) (x : Int) : Int := x * 2 ^ (7 - gain)

/-- Adds a pulse to an accumulator, at the samples that are not excluded (R190, R191). -/
def drxAdd (gain : Nat) (out : List Bool) (base codes acc : List Int) : List Int :=
  let b := sumI (base.map (drxRef gain))
  (out.zip (List.range out.length)).map (fun e =>
    let a := atI acc e.2
    if e.1 then a else a + 64 * drxRef gain (atI codes e.2) - b)

/-- Whether supervision is skipped: the window of the next pulse would open before this one closes (R188). -/
def State.drxSkip (s : State) (r : Route) : Bool :=
  let d := s.r100 r 0x21A0 0x05
  let org := s.r100 r 0x21A0 0x06 + (if isLoopB (s.read r) r then loopA (s.read r) else 0)
  let close := org + 4 * drxCount (s.read r) r + 2 * d + 256 + 1024
  let period := Nat.max (s.g100 r 0x2170 0x02) 1 * (if s.loopGuard then 2 else 1) * (s.sched r).t
  decide (period < close + 2272 + d)

/-- Supervision of one lane (R189): the zero reading, and the gain ratio of its tone samples against the tone reference of -6 dBFS (R479),
by a measure that the manual does not give (assumption log 24). Answers whether the lane is beyond its limits. -/
def State.superviseLane (s : State) (r : Route) (lane : Nat) (x : DrxSamples) : Bool × State :=
  let o := at100 0x21A0 r
  let off := rhuDiv (sumI x.zero) (Nat.max x.zero.length 1)
  let ratio := Config.toneRatio x.tone % 65536
  let s := (s.putI o (0x10 + lane) 16 off).put o (0x12 + lane) ratio
  (decide (200 < off.natAbs) || decide (20 * ((ratio : Int) - 4096).natAbs > 4096), s)

/-- Supervision of both lanes: the SUPERVISION bit, with a record, and the test of the pair (R189, R450). -/
def State.supervise (s : State) (r : Route) (st an : DrxSamples) : State :=
  let o := at100 0x21A0 r
  let a := s.superviseLane r 0 st
  let b := a.2.superviseLane r 1 an
  let s := b.2
  if a.1 || b.1 then
    let lane := 2 * routeNum r + (if a.1 then 0 else 1)
    ((s.putBit o 0x15 1 true).issueR r 0x2D 0x22 (lane : Nat) 0).detect (.drx r) false
  else s

/-- DRX_WINDOW_END (R188 to R191): the pulse whose window is open is accumulated, and the lanes are supervised. Clipped zero and tone codes
count and enter no output. The whole window is processed with the gain and the origin in force at its end, also where a commit took effect
while it was open (DESIGN CHOICE, assumption log 24: the manual does not say). -/
def doDrxWindowEnd (r : Route) (st an : DrxSamples) (s : State) : State :=
  match (s.route r).thermal.pulse with
  | none => s
  | some (td, t0) =>
    let get := s.read r
    let o := at100 0x21A0 r
    let skip := s.drxSkip r
    let n := drxCount get r
    let org : Int := (td : Int) + (get o 0x06 : Nat) + (if isLoopB get r then (loopA get : Int) else 0)
    let b64 := List.range 64
    let clips := (st.baseline ++ st.samples ++ an.baseline ++ an.samples).filter drxClip
    let other := if skip then [] else (st.zero ++ st.tone ++ an.zero ++ an.tone).filter drxClip
    let baseBad := (st.baseline ++ an.baseline).any drxClip
    let baseBlank := b64.any (fun i => s.blankedAt r ((td : Int) - 272 + 4 * (i : Int)))
    let blank := (List.range n).map (fun (m : Nat) => s.blankedAt r (org + 4 * (m : Int)))
    let out := (blank.zip (List.range n)).map (fun e => e.1 || drxClip (atI st.samples e.2) || drxClip (atI an.samples e.2))
    let ok := !baseBad && !baseBlank
    let fl := (if baseBlank || blank.any id then flBlanked else 0) ||| (if clips.isEmpty then 0 else flClipped)
    let t := s
    let s := s.modBlock r t0 (fun x => { x with
      flags := x.flags ||| fl, pulses := x.pulses + b2n ok
      stokes := if ok then drxAdd (t.r100 r 0x21A0 0x03) out st.baseline st.samples x.stokes else x.stokes
      anti := if ok then drxAdd (t.r100 r 0x21A0 0x04) out an.baseline an.samples x.anti else x.anti })
    let s := s.modThermal r (fun x => { x with pulse := none })
    let s := if (clips ++ other).isEmpty then s else s.bump o 0x14 (clips ++ other).length
    if skip then s else (s.putBit o 0x15 0 false).supervise r st an

def execDrxWindowEnd (r : Route) (stokes anti : DrxSamples) (s : State) : Out := State.next (doDrxWindowEnd r stokes anti s)

/-! ### Ratio and temperature (R196 to R199) -/

/-- The sum of an accumulator over a span. -/
def spanSum (acc : List Int) (x : Nat × Nat) : Int := sumI ((acc.drop x.1).take x.2)

/-- The log ratio of R196 over a span, none where the point is not valid. The manual states no logarithm of 0: a Stokes
sum of 0, possible only with S_min 0, takes the free value `v`. -/
def logRatio (t : Thermal) (smin : Nat) (v : Nat) (x : Nat × Nat) : Option Int :=
  let a := spanSum t.block.anti x
  let b := spanSum t.block.stokes x
  if 0 < a && decide (((64 * t.block.pulses * x.2 * smin : Nat) : Int) ≤ b) && t.block.pulses != 0 && !t.retired then
    some (log2fix a.toNat - (if b = 0 then toSigned (v % 2 ^ 32) 32 else log2fix b.toNat))
  else none

/-- Γ of R201, the reference term of R198: γ_q × 2^16 × 1,000 over a temperature in mK; none at no positive
temperature. -/
def gammaOver (gq : Nat) (mk : Int) : Option Int := if 0 < mk then some (rhuDiv ((gq * 2 ^ 16 * 1000 : Nat) : Int) mk) else none

/-- The reference-coil temperature in mK when the AIN0 result is settled and has not failed (R198, R414). -/
def State.coilMk (s : State) : Option Int :=
  let st := s.num 0x1830 0x11
  if bit st 0 && !bit st 1 && !bit st 2 && !bit st 3 then some (s.int 0x1830 0x10 32 + 273150) else none

/-- A value of s32.24, which saturates at its width (R15). -/
def s32 (x : Int) : Int := sat x 32

/-- The temperature of R197 in 0.01 °C of a v that is held in s32.24, none for v ≤ 0. -/
def ramanTemp (gq : Nat) (v : Int) : Option Int :=
  let v := s32 v
  if 0 < v then some (sat (rhuDiv ((gq * 100 * 2 ^ 16 : Nat) : Int) v - 27315) 16) else none

/-- The differential attenuation term of R199 between two spans. -/
def attenTerm (alpha : Int) (x c : Nat × Nat) : Int :=
  let mid := fun (y : Nat × Nat) => ((2 * y.1 + y.2 : Nat) : Int) - 1
  rhu (alpha * (mid x - mid c)) 17

/-- What a block yields: the temperature of each point, the log ratio of each, that of the coil, the constants and profile that it leaves,
whether the coil constant is held, and whether one end alone gave it. -/
structure RamanResult where
  temps : List (Option Int)
  us : List (Option Int)
  uc : Option Int
  kc : Int
  kEnds : Int × Int
  hold : Bool
  profile : List (Option Int)
  deltaB : Int
  profileSet : Bool
  single : Bool

/-- The draws of a block: one per point and coil span at each end. -/
def ramanDraws (get : CfgRead) (r : Route) : Nat := 2 * (ramanPoints get r + 2)

/-- A point by an end alone from its constant (R198, R199). -/
def singlePoint (get : CfgRead) (r : Route) (k : Int) (u : Option Int) (j : Nat) : Option Int :=
  u.bind (fun u => ramanTemp (get (at10 0x2510 (govRead get r)) 0x04)
    (k - u - attenTerm (toSigned (get (at10 0x2510 (govRead get r)) 0x05) 32) (pointSpan get r j) (coilSpan get r)))

/-- The single-ended result of a route (R197 to R199). -/
def ramanSingle (get : CfgRead) (r : Route) (t : Thermal) (mk : Option Int) (base : Nat) : RamanResult :=
  let o := at10 0x2510 r
  let n := ramanPoints get r
  let fv := fun (i : Nat) => Config.freeValue (base + i)
  let us := (List.range n).map (fun j => logRatio t (get o 0x03) (fv j) (pointSpan get r j))
  let uc := logRatio t (get o 0x03) (fv n) (coilSpan get r)
  let new := uc.bind (fun u => (mk.bind (gammaOver (get o 0x04))).map (fun g => s32 (u + g)))
  let kc := new.getD t.kc
  { temps := (us.zip (List.range n)).map (fun e => singlePoint get r kc e.1 e.2), us := us, uc := uc, kc := kc, kEnds := t.kEnds,
    hold := new.isNone, profile := t.profile, deltaB := t.deltaB, profileSet := t.profileSet, single := false }

/-- The two-ended result of a loop, with the update of the profile (R201, R202); `ta` holds the loop's state. -/
def ramanDouble (get : CfgRead) (ta tb : Thermal) (mk : Option Int) (base : Nat) : RamanResult :=
  let n := ramanPoints get .a
  let gq := get 0x2510 0x04
  let smin := get 0x2510 0x03
  let fv := fun (i : Nat) => Config.freeValue (base + i)
  let uf := (List.range n).map (fun j => logRatio ta smin (fv j) (pointSpan get .a j))
  let ub := (List.range n).map (fun j => logRatio tb smin (fv (n + 2 + j)) (pointSpan get .b j))
  let ca := coilSpan get .a
  let cb := coilSpan get .b
  let ufA := logRatio ta smin (fv n) ca
  let ufB := logRatio ta smin (fv (n + 1)) (farSpan get cb)
  let ubB := logRatio tb smin (fv (2 * n + 2)) cb
  let ubA := logRatio tb smin (fv (2 * n + 3)) (farSpan get ca)
  let hold : RamanResult → RamanResult := fun x => { x with hold := true }
  let base' : RamanResult :=
    { temps := [], us := uf, uc := ufA, kc := ta.kc, kEnds := ta.kEnds, hold := false, profile := ta.profile, deltaB := ta.deltaB,
      profileSet := ta.profileSet, single := false }
  let vOf := fun (k : Int) (e : Option Int × Option Int) =>
    e.1.bind (fun (x : Int) => e.2.map (fun (y : Int) => s32 (rhu (k - x - y) 1)))
  match mk.bind (gammaOver gq), ufA, ufB, ubA, ubB with
  | some g, some fa, some fb, some ba, some bb =>
    let k2 := s32 (rhuDiv ((fa + ba + 2 * g) + (fb + bb + 2 * g)) 2)
    let kA := s32 (fa + g)
    let vs := (uf.zip ub).map (vOf k2)
    let step := fun (old : Option Int) (new : Int) => match old with
      | some o => s32 (o + rhu (new - o) 3)
      | none => s32 new
    let prof := ((vs.zip uf).zip (List.range n)).map (fun e =>
      let old := ta.profile.getD e.2 none
      match e.1.1, e.1.2 with
      | some v, some u => some (step old (kA - v - u))
      | _, _ => old)
    { base' with
      temps := vs.map (fun v => v.bind (ramanTemp gq)), kc := k2, kEnds := (kA, s32 (bb + g)), profile := prof
      deltaB := step (if ta.profileSet then some ta.deltaB else none) (fa - fb), profileSet := true }
  | _, _, _, _, _ => hold { base' with temps := (uf.zip ub).map (fun e => (vOf ta.kc e).bind (ramanTemp gq)) }

/-- A loop frame from the end in service alone: from the profile, or at a point without one by the single-ended term of R199 with
the α_d of route A (R202). -/
def ramanOneEnd (get : CfgRead) (r : Route) (ta t : Thermal) (mk : Option Int) (base : Nat) : RamanResult :=
  let n := ramanPoints get .a
  let gq := get 0x2510 0x04
  let fv := fun (i : Nat) => Config.freeValue (base + i)
  let us := (List.range n).map (fun j => logRatio t (get 0x2510 0x03) (fv j) (pointSpan get r j))
  let uc := logRatio t (get 0x2510 0x03) (fv n) (coilSpan get r)
  let new := uc.bind (fun u => (mk.bind (gammaOver gq)).map (fun g => s32 (u + g)))
  let old := match r with | .a => ta.kEnds.1 | .b => ta.kEnds.2
  let k := new.getD old
  let pt := fun (e : Option Int × Nat) =>
    match ta.profile.getD e.2 none with
    | some d => e.1.bind (fun u => ramanTemp gq (k - u - (match r with | .a => d | .b => ta.deltaB - d)))
    | none => singlePoint get r k e.1 e.2
  { temps := (us.zip (List.range n)).map pt, us := us, uc := uc, kc := ta.kc,
    kEnds := (match r with | .a => (k, ta.kEnds.2) | .b => (ta.kEnds.1, k)), hold := new.isNone, profile := ta.profile,
    deltaB := ta.deltaB, profileSet := ta.profileSet, single := true }

/-! ### Scales of the tracker (R206) -/

/-- The integer nearest to x / den. -/
def nearestDy (x : Dy) (den : Nat) : Int :=
  if 0 ≤ x.e then rhuDiv (x.m * 2 ^ x.e.toNat) den else rhuDiv x.m ((den * 2 ^ (-x.e).toNat : Nat) : Int)

/-- κ_q of R206; λ in nm absorbs the 10^9. -/
def kappaQ (get : CfgRead) (r : Route) : Nat :=
  let g := govRead get r
  let c := mkSched get .sense g
  let lam := ofF32 (get (at10 0x2410 g) 0x0E)
  (nearestDy (lam.mul (Dy.ofInt ((2 ^ 24 * c.tbin * (get (at100 0x2120 g) 0x02 * 1000000) : Nat) : Int)))
    (Nat.max (256 * c.tp * 299792458) 1)).toNat

/-- c_T of R206 in ppb per K. -/
def cTemp (get : CfgRead) (r : Route) : Nat :=
  (nearestDy ((ofF32 (get (at10 0x2530 (govRead get r)) 0x07)).mul (Dy.ofInt 1000)) 1).toNat

/-- η of R206. -/
def etaQ (get : CfgRead) (r : Route) : Int :=
  rhuDiv ((2 ^ 40 * cTemp get r : Nat) : Int) ((Nat.max (1000 * kappaQ get r) 1 : Nat) : Int)

/-- d_g of R80. -/
def chirpSign (get : CfgRead) (r : Route) (g : Nat) : Int := if bit (get (at100 0x2120 (govRead get r)) 0x03) g then -1 else 1

/-! ### Fusion (R212, R213) -/

/-- The thermal-only sections. -/
def thermalSections (b : Bytes) : List (Nat × Nat) :=
  (List.range (b.length / 8)).map (fun i => (beField b (8 * i) 4, beField b (8 * i + 4) 4))

/-- Whether a Raman point lies wholly within a thermal-only section. -/
def fusedPoint (get : CfgRead) (secs : List (Nat × Nat)) (r : Route) (j : Nat) : Bool :=
  let x := pointPositions get r j
  secs.any (fun e => decide (e.1 ≤ x.1) && decide (x.2 ≤ e.2))

/-- One fusion update of R213: the state and the output, none for an invalid point. A point without state is in its first frame after a
route start, or after the reset of R216; where that frame has no Raman value, o and T hold 0 (DESIGN CHOICE, assumption log 24: the
manual gives them no value then). -/
def fuse (kf : Nat) (old : Option Fusion) (q : Option Int) (rebased : Bool) (rv : Option Int) : Fusion × Option Int :=
  match old with
  | none =>
    match rv with
    | some x => ({ o := x - q.getD 0, t := x, qLast := q.isSome }, some x)
    | none => ({ o := 0, t := 0, qLast := q.isSome }, none)
  | some st =>
    let o := match q with
      | some x => if rebased || !st.qLast then st.t - x else st.o
      | none => st.o
    match q, rv with
    | some x, some y =>
      let o := o + rhu ((y - x) - o) kf
      ({ o := o, t := x + o, qLast := true }, some (x + o))
    | some x, none => ({ o := o, t := x + o, qLast := true }, some (x + o))
    | none, some y =>
      let t := st.t + rhu (y - st.t) kf
      ({ st with t := t, qLast := false }, some t)
    | none, none => ({ st with qLast := false }, none)

/-- The sums of the tracker over the positions of a point: updates, sum, re-base. -/
def pointSums (sums : Map TrackSum) (x : Nat × Nat) : TrackSum :=
  (sums.filter (fun e => decide (x.1 ≤ e.1) && decide (e.1 ≤ x.2))).foldl (fun (a : TrackSum) (e : Nat × TrackSum) =>
    { n := a.n + e.2.n, sum := a.sum + e.2.sum, rebased := a.rebased || e.2.rebased }) { n := 0, sum := 0, rebased := false }

/-! ### Raman frames (R192 to R194, R214) -/

/-- The block period of a route in ns. -/
def ramanPeriod (get : CfgRead) (r : Route) : Nat :=
  let g := govRead get r
  2 ^ (get (at10 0x2510 g) 0x01 + (if get 0x2000 0x03 == 1 then 1 else 0)) * Nat.max (get (at100 0x2170 g) 0x02) 1
    * (mkSched get .sense g).t

/-- The calibration point of R200: the Raman point of P_R positions wholly within the section that lies nearest its centre, of two as near
the lower-numbered (DESIGN CHOICE, assumption log 24: the manual does not say which). -/
def calPoint (get : CfgRead) (r : Route) : Option Nat :=
  let o := at10 0x2510 r
  let a := get o 0x07
  let b := get o 0x08
  let dist := fun (j : Nat) => let x := pointPositions get r j; (((x.1 + x.2 : Nat) : Int) - ((a + b : Nat) : Int)).natAbs
  ((List.range (ramanPoints get r)).filter (fun j =>
    let x := pointPositions get r j; wholePoint get r j && decide (a ≤ x.1) && decide (x.2 ≤ b))).foldl (fun (m : Option Nat) j =>
      match m with
      | none => some j
      | some i => if dist j < dist i then some j else some i) none

/-- One frame of a calibration run (R200): a_σ from the log ratio of the point in this frame, where the point and the temperature give one. -/
def State.calFrame (s : State) (get : CfgRead) (r : Route) (k : Int) (us : List (Option Int)) : State :=
  match (s.route r).thermal.calFrames with
  | none => s
  | some 0 => s
  | some (n + 1) =>
    let o := at10 0x2510 r
    let a : Option Int := (calPoint get r).bind (fun j =>
      (us.getD j none).bind (fun u =>
        (gammaOver (get o 0x04) (toSigned (get o 0x09) 32 + 273150)).map (fun g => k - u - g)))
    s.modThermal r (fun x => { x with
      calFrames := some n, calSum := x.calSum + a.getD 0, calN := x.calN + b2n a.isSome })

/-- The ends of a Raman frame: the route, or both ends of the loop. -/
def ramanEnds (get : CfgRead) (r : Route) : List Route := if get 0x2000 0x03 == 1 then [.a, .b] else [r]

/-- The next block of an end becomes the one in progress. -/
def nextBlock (ns : Nat) (x : Thermal) : Thermal := { x with block := x.next, next := RamanBlock.reset, blockNs := ns, cut := none }

/-- The result of a block of the route, or of the loop by the ends in service. -/
def State.ramanResult (s : State) (get : CfgRead) (r : Route) : RamanResult :=
  let ta := s.routeA.thermal
  let tb := s.routeB.thermal
  let mk := s.coilMk
  if get 0x2000 0x03 == 1 then
    if s.inService .a && !s.inService .b then ramanOneEnd get .a ta ta mk s.free
    else if s.inService .b && !s.inService .a then ramanOneEnd get .b ta tb mk s.free
    else ramanDouble get ta tb mk s.free
  else ramanSingle get r (s.route r).thermal mk s.free

/-- Reports the coil constant, under Loop Guard K_2, the log ratio, the temperature used, the status and the pulses of a block (Table
7.4). -/
def State.reportRaman (s : State) (r : Route) (x : RamanResult) (pulses : Nat) : State :=
  let o := at10 0x2510 r
  let s := (s.putI o 0x10 32 x.kc).put o 0x15 (pulses % 2 ^ 32)
  let s := match x.uc with
    | some u => s.putI o 0x11 32 u
    | none => s
  let s := if x.hold then s else s.put o 0x12 (s.num 0x1830 0x10)
  (s.putBit o 0x14 0 x.hold).putBit o 0x14 1 x.profileSet

/-- The pulses that a block schedules at an end (R192): 2^k, or of a block that a commit cut those of the shots until then, of which an
end of a loop that launches nothing has its half of the runs. -/
def State.pulsesDue (s : State) (get : CfgRead) (cut : Bool) (q : Route) (len : Nat) : Nat :=
  let b := (s.route q).thermal.block
  if !cut then 2 ^ get (at10 0x2510 (govRead get q)) 0x01
  else if get 0x2000 0x03 != 1 || s.inService q then b.scheduled
  else Nat.max b.scheduled (len / Nat.max (mkSched get .sense q).t 1 / (2 * Nat.max (get (at100 0x2170 (govRead get q)) 0x02) 1))

/-- Whether an end of a Raman frame has a missing pulse (R193): one scheduled that did not fire, also while its end is out of service, one
excluded, or a retired lane pair (Table 17.2). -/
def State.pulsesMissing (s : State) (get : CfgRead) (cut : Bool) (len : Nat) (q : Route) : Bool :=
  let t := (s.route q).thermal
  decide (t.block.pulses < t.block.scheduled) || t.retired || decide (t.block.pulses < s.pulsesDue get cut q len)

/-- The earliest of the first contributing shots of the ends of a Raman frame, with the delivery bound then. -/
def firstPulse (l : List RamanBlock) : Option (Nat × Nat) :=
  (l.filterMap (·.first)).foldl (fun (m : Option (Nat × Nat)) x => match m with
    | some y => some (if x.1 < y.1 then x else y)
    | none => some x) none

/-- The points of a Raman frame under fusion: the output, the state left, and whether a fused point had no tracker value (R212 to R214). -/
def fusedFrame (get : CfgRead) (r : Route) (secs : List (Nat × Nat)) (t : Thermal) (temps : List (Option Int)) :
    List (Option Int × Option (Nat × Fusion) × Bool) :=
  let ct := cTemp get r
  (temps.zip (List.range temps.length)).map (fun e =>
    let rv := e.1.map (10 * ·)
    if fusedPoint get secs r e.2 then
      let y := pointSums t.block.sums (pointPositions get r e.2)
      let q := if y.n = 0 then none else some (rhuDiv (1000 * y.sum) ((ct * 2 ^ 24 * y.n : Nat) : Int))
      let z := fuse (get (at10 0x2550 (govRead get r)) 0x01) (mapGet t.fusion e.2) q y.rebased rv
      (z.2, some (e.2, z.1), q.isNone)
    else (rv, none, false))

/-- Closes the Raman block of a route, or of the loop as route A, at an instant: streams 0x05 and 0x06 (R192 to R202, R212
to R214). `cut` tells that a commit ended the block before its boundary. -/
def State.closeRaman (s : State) (get : CfgRead) (r : Route) (secs : List (Nat × Nat)) (cut : Bool) (stop : Nat) : State :=
  let t := (s.route r).thermal
  let ends := ramanEnds get r
  let x := s.ramanResult get r
  let s := { s with free := s.free + ramanDraws get r }
  let o := at10 0x2510 r
  let s := if x.hold && !t.hold then s.issueR r 0x2E 0x22 (routeNum r) 0 else s
  let all := ends.map (fun q => (s.route q).thermal.block)
  let total := sumN (all.map (·.pulses))
  let missing := total == 0 || ends.any (s.pulsesMissing get cut (stop - t.blockNs))
  let cal := match t.calUsed with
    | some n => !x.hold && n != s.hka.coilRun
    | none => false
  let fl := all.foldl (fun a y => a ||| y.flags) (if (firstPulse all).isNone then s.timeFlagsAt t.blockNs else 0) ||| (if missing then flReduced else 0)
    ||| (if s.loopSingle then flSingle else 0) ||| (if cal then 8 else 0) ||| (if cut then 2 ^ 11 else 0)
  let pts := fusedFrame get r secs t x.temps
  let raman := x.temps.flatMap (fun v => beInt 2 (v.getD (-32768)))
  let fusedB := pts.flatMap (fun e => beInt 4 ((e.1.map (fun v => sat v 32)).getD (-2147483648)))
  let fl6 := fl ||| (if pts.any (fun e => e.2.2) then flReduced else 0)
    ||| (if t.frames < 2 ^ (get (at10 0x2550 (govRead get r)) 0x01 + 2) then 1 else 0)
  let c := mkSched get .sense r
  let (c5, s) := s.takeCarry r 5
  let (c6, s) := s.takeCarry r 6
  let (n5, s) := s.nextCount r 5
  let (n6, s) := s.nextCount r 6
  let first := (firstPulse all).getD (t.blockNs, s.bound r)
  let f : ReadyFrame :=
    { stream := 5, routeCode := routeNum r, fcount := n5, tstart := s.stampOf first.1, period := stop - t.blockNs, first := c.first,
      count := ramanPoints get r, pitch := c.sensePitch * ramanPitch get r, quality := fl ||| c5, cseq := s.cseq r, pos := s.osw r,
      payload := raman, plane := x.temps.map (fun v => [v.getD (-32768)]), cols := 1,
      deadline := first.1 + first.2, send := true, events := [],
      block := x.temps.map (fun v => v.getD (-32768)), inputs := [], closing := stop }
  let s := s.addReady r f
  let s := s.addReady r { f with
    stream := 6, fcount := n6, quality := fl6 ||| c6, payload := fusedB, plane := []
    block := pts.map (fun e => (e.1.map (fun v => sat v 32)).getD (-2147483648)) }
  let s := s.calFrame get r (if x.single then (match r with | .a => x.kEnds.1 | .b => x.kEnds.2) else x.kc) x.us
  let s := s.reportRaman r x total
  let s := ends.foldl (fun s q => s.modThermal q (nextBlock stop)) s
  let s := s.putBit o 0x14 2 (t.calFrames.isSome)
  let run := s.hka.coilRun
  s.modThermal r (fun y => { y with
    kc := x.kc, kEnds := x.kEnds, hold := x.hold, profile := x.profile, deltaB := x.deltaB, profileSet := x.profileSet
    fusion := pts.foldl (fun (m : Map Fusion) e => match e.2.1 with | some (j, st) => mapSet m j st | none => m) y.fusion
    frames := y.frames + 1, calUsed := if x.hold then y.calUsed else some run })

/-- The ends whose launches fill the frames of a route. -/
def State.frameEnds (s : State) (r : Route) : List Route := if s.loopGuard then [.a, .b] else [r]

/-- The boundary that the frames of a route, or of the loop, have reached. -/
def State.reached (s : State) (r : Route) : Nat :=
  if s.loopGuard then
    let a := s.routeA.optics
    let b := s.routeB.optics
    if a.launching && b.launching then Nat.min a.frameNs b.frameNs else if b.launching then b.frameNs else a.frameNs
  else (s.route r).optics.frameNs

/-- Whether every launch before an instant has been processed. -/
def State.launchesDone (s : State) (r : Route) (stop : Nat) : Bool :=
  !(s.frameEnds r).any (fun q => (s.route q).optics.inFlight.any (fun l => !l.compressed && decide (l.ns < stop))
    || ((s.route q).ray.handoff.filter (fun h => decide (h.launch.ns < stop))).isSome)

/-- Whether the windows of every pulse before an instant are over. -/
def State.windowsDone (s : State) (r : Route) (stop : Nat) : Bool :=
  (s.frameEnds r).all (fun q => match (s.route q).thermal.pulse with
    | some (_, t0) => decide (stop ≤ t0)
    | none => true)

/-- The configuration of the Raman block in progress: the one before the commit that cut it (R194). -/
def State.blockRead (s : State) (r : Route) : CfgRead :=
  match (s.route r).thermal.cut with
  | some c => fun i j => dictNum c.2 i j
  | none => s.read r

/-- The thermal-only sections of the Raman block in progress. -/
def State.blockSections (s : State) (r : Route) : List (Nat × Nat) :=
  match (s.route r).thermal.cut with
  | some c => thermalSections (dictBlob c.2 (at10 0x2550 r) 0x20)
  | none => thermalSections (s.cfgB r (at10 0x2550 r) 0x20)

/-- The block of a route ends: its frame, where Raman frames are produced, and the next block. -/
def State.endBlock (s : State) (r : Route) : State :=
  let get := s.blockRead r
  let stop := s.blockStop r
  if s.ramanUnder get r then
    s.closeRaman get r (s.blockSections r) (decide (stop < (s.route r).thermal.blockNs + ramanPeriod get r)) stop
  else (s.frameEnds r).foldl (fun (s : State) q => s.modThermal q (nextBlock stop)) s

/-- RAMAN_BLOCK_CLOSE (R192 to R194): the block of a route has reached its boundary, its last window is over and every launch of it has
been processed (R212); route A closes the frame of the loop. -/
def doRamanBlockClose (r : Route) (s : State) : State :=
  let stop := s.blockStop r
  if s.gov r == r && decide (stop ≤ s.reached r) && s.launchesDone r stop && s.windowsDone r stop then s.endBlock r else s

def execRamanBlockClose (r : Route) (s : State) : Out := State.next (doRamanBlockClose r s)

/-- The objects whose change ends the Raman block of a route (R194); of the loop those of the DRX lanes of both ends. -/
def ramanKeys (loop : Bool) (r : Route) : List Nat :=
  keysOf (at100 0x21A0 r) 0x01 0x06 ++ (if loop then keysOf 0x22A0 0x01 0x06 else []) ++ keysOf (at10 0x2510 r) 0x01 0x09
    ++ [objKey (at10 0x2510 r) 0x0B] ++ keysOf (at10 0x2530 r) 0x01 0x08 ++ [objKey (at10 0x2550 r) 0x01, objKey (at10 0x2550 r) 0x20]

/-- A commit that changes a Raman object takes effect at the boundary reached: the block in progress ends there, with CONFIG_CHANGE where
that is before its own boundary, and is emitted under the configuration before as soon as its returns have been processed; the grid restarts
(R194). -/
def State.ramanShort (s : State) (r : Route) : State :=
  let ns := s.reached r
  let s := if s.blockStop r < ns then s.endBlock r else s
  if ns ≤ (s.route r).thermal.blockNs then s
  else doRamanBlockClose r (s.modThermal r (fun x => { x with cut := some (ns, s.od) }))

/-! ### Calibration of the attenuation (R200) -/

/-- A write of OD 2510.0A: BUSY during a run, OUT_OF_RANGE when the section in force holds no Raman point of the route. -/
def attenCalWrite (r : Route) (s : State) : Reply :=
  let get := s.read r
  let o := at10 0x2510 r
  let c := mkSched get .sense r
  let a := get o 0x07
  let b := get o 0x08
  if (s.route r).thermal.calFrames.isSome then ⟨1, s, id⟩
  else if b < a || a < c.first || c.first + c.count ≤ b || (calPoint get r).isNone then ⟨7, s, id⟩
  else
    ⟨0, (s.modThermal r (fun t => { t with calFrames := some (get o 0x0B), calSum := 0, calN := 0 })).putBit o 0x14 2 true, id⟩

/-- A quotient rounded half up for a divisor of either sign; a zero divisor gives the free value `v`. -/
def quotOr (a b : Int) (v : Nat) : Int :=
  if 0 < b then rhuDiv a b else if b < 0 then rhuDiv (-a) (-b) else toSigned (v % 2 ^ 32) 32

/-- ATTENUATION_CALIBRATION_COMPLETE (R200): the frames have been summed, and α_d is proposed in OD 2510.13. A run
without a valid frame, or a point as far as the coil, has no quotient that the manual states. -/
def doAttenuationCalibrationComplete (r : Route) (s : State) : State :=
  let t := (s.route r).thermal
  match t.calFrames with
  | some 0 =>
    let get := s.read r
    let o := at10 0x2510 r
    let mid := fun (y : Nat × Nat) => ((2 * y.1 + y.2 : Nat) : Int) - 1
    let (v, s) := s.draw
    let d : Int := match calPoint get r with
      | some j => mid (pointSpan get r j) - mid (coilSpan get r)
      | none => 0
    let s := s.putI o 0x13 32 (s32 (quotOr (2 ^ 17 * t.calSum) ((t.calN : Int) * d) v))
    (s.modThermal r (fun x => { x with calFrames := none })).putBit o 0x14 2 false
  | _ => s

def execAttenuationCalibrationComplete (r : Route) (s : State) : Out := State.next (doAttenuationCalibrationComplete r s)

/-! ### Correlation (R204, R205) -/

/-- a[b] of R204: the amplitude of a bin, 0 outside the bins handed over. -/
def binAmp (h : Handoff) (b : Int) : Int :=
  if b < 0 then 0
  else match h.bins[b.toNat]? with
    | some x => ((satU (isqrt (sumN (x.z.map Cpx.norm)) : Nat) 16 : Nat) : Int)
    | none => 0

/-- The twelve amplitudes of a window at a lag. -/
def windowAmp (amp : Int → Int) (w0 l : Int) : List Int := (List.range 12).map (fun (i : Nat) => amp (w0 + (i : Int) + l))

/-- The deviations of R205. -/
def deviations (x : List Int) : List Int := x.map (fun v => 12 * v - sumI x)

/-- The correlation with a reference. -/
def correlate (ref live : List Int) : Int := sumI (((deviations ref).zip (deviations live)).map (fun e => e.1 * e.2))

/-- The lags in the order of R205's ties: smaller magnitude first, the negative before the positive. -/
def lagOrder (lq : Nat) : List Int := 0 :: (List.range lq).flatMap (fun (k : Nat) => [-((k : Int) + 1), (k : Int) + 1])

/-- What a correlation gives: the lag of the peak and the raw shift of a strong update. -/
structure Shift where
  lag : Int
  raw : Int
  deriving DecidableEq, Repr

/-- The correlation of R205: the raw shift when the update is strong. -/
def findShift (amp : Int → Int) (ref : List Int) (w0 : Int) (lq rho : Nat) : Option Shift :=
  let c := fun (l : Int) => correlate ref (windowAmp amp w0 l)
  let cs := (lagOrder lq).map (fun l => (l, c l))
  let best := cs.foldl (fun (b : Int × Int) e => if b.2 < e.2 then e else b) (cs.headD (0, 0))
  let r2 := sumI ((deviations ref).map (fun x => x * x))
  let e2 := sumI ((deviations (windowAmp amp w0 best.1)).map (fun x => x * x))
  if best.1.natAbs < lq && decide (0 < best.2) && decide (((rho * rho : Nat) : Int) * r2 * e2 ≤ 65536 * best.2 * best.2) then
    let cp := c (best.1 + 1)
    let cm := c (best.1 - 1)
    let d := 2 * best.2 - cm - cp
    let fr := if d = 0 then 0 else rhuDiv (128 * (cp - cm)) d
    some ⟨best.1, 256 * best.1 + fr⟩
  else none

/-- Writes the candidate; OFS and LREF are I32 (Table 7.3, R15). -/
def Track.setCandidate (t : Track) (x : TrackRec) : Track :=
  let x := { x with ofs := s32 x.ofs, lref := s32 x.lref }
  if t.role then { t with rec0 := x } else { t with rec1 := x }

/-- A track before any update. -/
def Track.zero : Track :=
  let z : TrackRec := { amp := List.replicate 12 0, ofs := 0, lref := 0 }
  { rec0 := z, rec1 := z, role := false, weak := 0, rebase := false }

/-! ### The coil windows (R207) -/

/-- The first bin of coil window i. -/
def coilWindow (get : CfgRead) (r : Route) (i : Nat) : Int :=
  let o := at10 0x2410 r
  ((get o 0x07 + (i + 1) * (get o 0x08 - get o 0x07) / 5 : Nat) : Int) - 6

/-- The bins of a window and its lags. -/
def windowBins (h : Handoff) (w0 : Int) (lq : Nat) : List Bin :=
  (List.range (12 + 2 * lq)).filterMap (fun (i : Nat) =>
    let b := w0 - (lq : Int) + (i : Int)
    if b < 0 then none else h.bins[b.toNat]?)

/-- Whether an update at a window is shut out, with the flags that tells: its launch is missing, or a bin of the window and its lags is
blanked or settling (R117, R205). -/
def shutOut (h : Handoff) (w0 : Int) (lq : Nat) : Bool × Nat :=
  let marks := (windowBins h w0 lq).map (·.mark)
  (h.launch.missing || marks.any (· != BinMark.none),
    marks.foldl (fun a m => match m with
      | .blanked => a ||| flBlanked
      | .settling => a ||| flGain
      | _ => a) 0)

/-- CLIPPED where a window or its lags holds a bin computed from a marked sample (R119). -/
def windowClip (h : Handoff) (w0 : Int) (lq : Nat) : Nat := if (windowBins h w0 lq).any (·.clip) then flClipped else 0

/-- The route whose merged values an end's updates give: its own, and under Loop Guard route A's from the end in service, route A first
(R210). -/
def State.trackRoute (s : State) (get : CfgRead) (r : Route) : Option Route :=
  if get 0x2000 0x03 == 1 then
    match r with
    | .a => if s.inService .a then some .a else none
    | .b => if s.inService .a then none else some .a
  else some r

/-- A tracked launch enters the quasi-static frame as a contributing shot: the first gives its TSTART, each its flags and the calibration run
of the coil result that it takes (R118, R130, R211, R406). -/
def State.enterLaunch (s : State) (get : CfgRead) (r : Route) (l : Launch) : State :=
  match s.trackRoute get r with
  | none => s
  | some q =>
    let run := s.hka.coilRun
    s.modThermal q (fun t => { t with
      qFirst := if t.qFirst.isSome then t.qFirst else some (l.ns, l.bound)
      qFlags := t.qFlags ||| l.frameFlags, calNowQ := some run })

/-- The four coil windows of a tracked launch, processed before any position (R207, R210). -/
def State.coilTracks (s : State) (r : Route) (h : Handoff) : State :=
  let get := s.readAt r h.launch.seq
  let g := h.launch.group
  let o := at10 0x2530 r
  let go := at10 0x2530 (govRead get r)
  let t := (s.route r).thermal
  let lq := get go 0x02
  let amp := binAmp h
  let tc := s.int 0x1830 0x10 32
  let s := (s.enterLaunch get r h.launch).noteSingle h.launch.ns
  let seen := fun (x : Thermal) => { x with trackSeq := some h.launch.seq, trackDone := [] }
  if (mapGet t.primed g).isNone then
    let s := s.put o (0x10 + g) 0
    s.modThermal r (fun x => { seen x with
      primed := mapSet x.primed g h.launch.seq, tc0 := mapSet x.tc0 g tc
      coil := (List.range 4).foldl (fun (m : Map Track) i =>
        let old := (mapGet m (trackKey i g)).getD Track.zero
        let new := old.setCandidate { amp := windowAmp amp (coilWindow get r i) 0, ofs := 0, lref := 0 }
        mapSet m (trackKey i g) { new with role := !new.role, weak := 0, rebase := false }) x.coil })
  else
    let e := rhu (chirpSign get r g * etaQ get r * (tc - (mapGet t.tc0 g).getD 0)) 16
    let ws := (List.range 4).map (fun i =>
      let w0 := coilWindow get r i
      let tr := (mapGet t.coil (trackKey i g)).getD Track.zero
      (i, tr, if (shutOut h w0 lq).1 then none else findShift amp tr.ref.amp w0 lq (get go 0x04)))
    let ls := ws.filterMap (fun w => w.2.2.map (fun sh => w.2.1.ref.ofs + sh.raw + w.2.1.ref.lref - e))
    let lg := if ls.isEmpty then s.int o (0x10 + g) 32 else s32 (rhuDiv (sumI ls) (ls.length : Nat))
    let s := if ls.isEmpty then s.bump o 0x18 1 else s.putI o (0x10 + g) 32 lg
    s.modThermal r (fun x => { seen x with
      coil := ws.foldl (fun (m : Map Track) w =>
        let cand := w.2.1.setCandidate { amp := windowAmp amp (coilWindow get r w.1) 0, ofs := e, lref := lg }
        let weak := if w.2.2.isSome then 0 else w.2.1.weak + 1
        let far := match w.2.2 with
          | some sh => decide (get go 0x03 ≤ sh.lag.natAbs)
          | none => decide (get go 0x05 ≤ weak)
        mapSet m (trackKey w.1 g) { cand with role := if far then !cand.role else cand.role, weak := if far then 0 else weak }) x.coil })

/-! ### Tracked updates of positions (R208 to R210) -/

/-- The merged position and the loop's route for an update: route A's own, or the partner's while route A is out of
service; none where the values of the end are not taken (R210). -/
def State.trackTarget (s : State) (get : CfgRead) (r : Route) (pos : Nat) : Option (Route × Nat) :=
  (s.trackRoute get r).map (fun q => (q, if q == r then pos else loopP get - pos))

/-- Adds to a sum. -/
def addTrack (m : Map TrackSum) (p : Nat) (v : Option Int) (rebased : Bool) : Map TrackSum :=
  let o := (mapGet m p).getD { n := 0, sum := 0, rebased := false }
  mapSet m p { n := o.n + b2n v.isSome, sum := o.sum + v.getD 0, rebased := o.rebased || rebased }

/-- Enters an update of a launch in the sums of the Raman frame and of the quasi-static frame; a change of the source end marks a
re-base. -/
def State.enterTrack (s : State) (get : CfgRead) (r : Route) (l : Launch) (pos : Nat) (c : Option Int) (rebased : Bool) (fl : Nat) : State :=
  match s.trackTarget get r pos with
  | none => s
  | some (q, p) =>
    let kg := chirpSign get r l.group * ((kappaQ get r : Nat) : Int)
    let src := r == .b && q == .a
    let v := c.map (fun x => kg * x)
    let changed := match mapGet (s.route q).thermal.sources p with
      | some b => b != src
      | none => false
    let s := s.modBlock q l.ns (fun b => { b with sums := addTrack b.sums p v (rebased || changed) })
    s.modThermal q (fun t =>
      { t with
        qSums := addTrack t.qSums p v (rebased || changed)
        qFlags := t.qFlags ||| fl, sources := if get 0x2000 0x03 == 1 then mapSet t.sources p src else t.sources })

/-- A tracked update of a position (R208, R209); the first launch of a group after a route start, or after the position's state was reset
(R216), adopts its candidate without output (R210), and reports the re-base where the records restarted at a retirement (R384). `late` tells
that the record came too late: the update is not strong (R376). -/
def State.positionTrack (s : State) (r : Route) (h : Handoff) (pos : Nat) (ecc : Option BurstError) (late : Bool) : State :=
  let get := s.readAt r h.launch.seq
  let g := h.launch.group
  let o := at10 0x2530 r
  let go := at10 0x2530 (govRead get r)
  let t := (s.route r).thermal
  let lq := get go 0x02
  let w0 : Int := ((pos * (mkSched get .sense r).sensePitch : Nat) : Int) - 6
  let live := windowAmp (binAmp h) w0 0
  let k := trackKey pos g
  let tr := (mapGet t.tracks k).getD Track.zero
  let put := fun (s : State) (x : Track) => s.modThermal r (fun y => { y with
    tracks := mapSet y.tracks k x, trackDone := y.trackDone ++ [pos] })
  let lg := s.int o (0x10 + g) 32
  if mapGet t.primed g == some h.launch.seq || (mapGet t.tracks k).isNone then
    let new := tr.setCandidate { amp := live, ofs := 0, lref := 0 }
    let s := put s { new with role := !new.role, weak := 0, rebase := false }
    if tr.rebase then (s.bump o 0x15 1).enterTrack get r h.launch pos none true 0 else s
  else
    let out := shutOut h w0 lq
    let sh := if out.1 || tr.rebase || ecc.isSome || late then none else findShift (binAmp h) tr.ref.amp w0 lq (get go 0x04)
    match sh with
    | some x =>
      let c := s32 (tr.ref.ofs + x.raw - (lg - tr.ref.lref))
      let far := decide (get go 0x03 ≤ x.lag.natAbs)
      let new := tr.setCandidate { amp := live, ofs := c, lref := lg }
      let s := if far then s.bump o 0x14 1 else s
      (put s { new with role := if far then !new.role else new.role, weak := 0 }).enterTrack get r h.launch pos (some c) false
        (windowClip h w0 lq)
    | none =>
      let s := s.bump o 0x16 1
      let fl := flReduced ||| out.2
      match ecc with
      | some e =>
        let s := s.readErrors [e]
        let (v, s) := s.draw
        let bad : TrackRec := { tr.ref with ofs := toSigned (v % 2 ^ 32) 32 }
        let tr := if tr.role then { tr with rec1 := bad } else { tr with rec0 := bad }
        (put s { tr with weak := tr.weak + 1, rebase := true }).enterTrack get r h.launch pos none false fl
      | none =>
        if tr.rebase || decide (get go 0x05 ≤ tr.weak + 1) then
          let new := tr.setCandidate { amp := live, ofs := tr.ref.ofs, lref := lg }
          (put (s.bump o 0x15 1) { new with role := !new.role, weak := 0, rebase := false }).enterTrack get r h.launch pos none true fl
        else
          let new := tr.setCandidate { amp := live, ofs := tr.ref.ofs, lref := lg }
          (put s { new with weak := tr.weak + 1 }).enterTrack get r h.launch pos none false fl

/-- Whether the launch in hand is a tracked launch (R203). -/
def State.trackedLaunch (s : State) (r : Route) (h : Handoff) : Bool :=
  let m := s.readAt r h.launch.seq (at10 0x2530 (govRead (s.readAt r h.launch.seq) r)) 0x01
  s.mode == 4 && m != 0 && h.launch.shot % Nat.max m 1 == 0

/-- TRACKED_UPDATE (R203, R207, R208): the coil windows of the launch in hand, then each position once. -/
def doTrackedUpdate (r : Route) (pos : Option Nat) (ecc : Option BurstError) (s : State) : State :=
  match s.handoff r with
  | none => s
  | some h =>
    let t := (s.route r).thermal
    if !s.trackedLaunch r h then s
    else
      match pos with
      | none => if t.trackSeq == some h.launch.seq then s else s.coilTracks r h
      | some p =>
        if t.trackSeq != some h.launch.seq || t.trackDone.contains p
            || !(endPositions (s.readAt r h.launch.seq) .sense r).contains p then s
        else
          let s := s.requestTrack r p h.launch.group (h.launch.ns + s.bound r)
          match ecc with
          | some e => if e.bad then s.positionTrack r h p (some e) false else (s.readErrors [e]).positionTrack r h p none false
          | none => s.positionTrack r h p none false

def execTrackedUpdate (r : Route) (pos : Option Nat) (ecc : Option BurstError) (s : State) : Out :=
  State.next (doTrackedUpdate r pos ecc s)

/-! ### Quasi-static frames (R211) -/

/-- The payload of stream 0x04: the mean shift of every position in ppb, then the re-base bitmap. -/
def quasiPayload (positions : List Nat) (sums : Map TrackSum) : Bytes :=
  let at' := fun (p : Nat) => (mapGet sums p).getD { n := 0, sum := 0, rebased := false }
  let vals := positions.map (fun p =>
    let x := at' p
    if x.n = 0 then (-2147483648 : Int) else sat (rhuDiv x.sum ((x.n * 2 ^ 24 : Nat) : Int)) 32)
  let bits := positions.map (fun p => (at' p).rebased)
  let words := (List.range (cdiv positions.length 32)).map (fun w =>
    sumN (((bits.drop (32 * w)).take 32).zip (List.range 32) |>.map (fun e => b2n e.1 * 2 ^ e.2)))
  vals.flatMap (beInt 4) ++ words.flatMap (beBytes 4)

/-- The quasi-static frame of a route ends at an instant: stream 0x04 (R211, R214). `short` tells that a change of topology ended it (R63). -/
def State.quasiFrame (s : State) (r : Route) (stop : Nat) (short : Bool) : State :=
  let t := (s.route r).thermal
  let get := s.read r
  let c := mkSched get .sense r
  let (fc, s) := s.takeCarry r 4
  let (n, s) := s.nextCount r 4
  let cal := match t.calUsedQ, t.calNowQ with
    | some a, some b => a != b
    | _, _ => false
  let fl := t.qFlags ||| fc ||| (if t.qFirst.isNone then s.timeFlagsAt t.qNs else 0) ||| (if cal then 8 else 0)
    ||| (if s.loopSingle then flSingle else 0) ||| (if short then 2 ^ 11 else 0)
  let first := t.qFirst.getD (t.qNs, s.bound r)
  let ps := endPositions get .sense r
  let vals := ps.map (fun p =>
    let x := (mapGet t.qSums p).getD { n := 0, sum := 0, rebased := false }
    if x.n = 0 then (-2147483648 : Int) else sat (rhuDiv x.sum ((x.n * 2 ^ 24 : Nat) : Int)) 32)
  s.addReady r
    { stream := 4, routeCode := routeNum r, fcount := n, tstart := s.stampOf first.1, period := stop - t.qNs, first := c.first,
      count := c.count, pitch := c.sensePitch, quality := fl, cseq := s.cseq r, pos := s.osw r,
      payload := quasiPayload ps t.qSums, plane := [], cols := 0, deadline := first.1 + first.2, send := true, events := [],
      block := vals, inputs := [], closing := stop }

/-- The quasi-static frame in progress ends and the next begins. -/
def State.endQuasi (s : State) (r : Route) (stop : Nat) (short : Bool) : State :=
  let s := if s.quasiOn r then s.quasiFrame r stop short else s
  s.modThermal r (fun x => { x with
    qSums := [], qFlags := 0, qFirst := none, qNs := stop
    calUsedQ := if x.calNowQ.isSome then x.calNowQ else x.calUsedQ, calNowQ := none })

/-- Closes the quasi-static frame of a route once its period is over and every launch in it has been processed (R211). -/
def State.closeQuasi (s : State) (r : Route) : State :=
  let get := s.read r
  let stop := (s.route r).thermal.qNs + Nat.max (get (at10 0x2530 (govRead get r)) 0x06) 1 * (mkSched get .sense r).frame
  if s.mode == 4 && s.gov r == r && decide (stop ≤ s.reached r) && s.launchesDone r stop then s.endQuasi r stop false else s

/-- A change of topology at a boundary ends the quasi-static frame of a route with what it holds, with CONFIG_CHANGE (R63). -/
def State.quasiShort (s : State) (r : Route) (ns : Nat) : State :=
  if s.quasiOn r && decide ((s.route r).thermal.qNs < ns) then s.endQuasi r ns true else s

/-- A change of topology at an instant ends the Raman and quasi-static frames of route B with what they hold (R63). -/
def State.topologyShort (s : State) (ns : Nat) : State :=
  let s := if decide ((s.route .b).thermal.blockNs < ns) then (s.modThermal .b (fun x => { x with cut := some (ns, s.od) })).endBlock .b else s
  s.quasiShort .b ns

/-! ### Reads (Table 7.4) -/

/-- OD 2510.30: δ_B, then δ_j of every point. -/
def State.attenProfile (s : State) (r : Route) : Bytes :=
  let t := (s.route r).thermal
  beInt 4 t.deltaB ++ t.profile.flatMap (fun d => beInt 4 (d.getD 0))

/-- OD 2550.10: the points under fusion. -/
def State.fusedPoints (s : State) (r : Route) : Nat :=
  let get := s.read r
  let secs := thermalSections (s.cfgB r (at10 0x2550 (s.gov r)) 0x20)
  ((List.range (ramanPoints get r)).filter (fusedPoint get secs r)).length

end Sys2Proof.Machine
end

