-- ==== Sys2Proof/Machine/Frames.lean ====
section
/-! DEFINITION. Inputs of the filter chain and the hand-over of the frames it closes (R221, R225 to R227, R234, R237): the
deadline test of R77 with what R39 drops, the threshold records with what they set off, and the frame port. -/

namespace Sys2Proof.Machine

open Sys2Proof

/-- FDC_INPUT (R219, R221): one input of every position of a route, or of the loop as route A, once the updates of the
launch are complete; it may close the quasi-static frame (R211) and end a transition (R439). -/
def doFdcInput (r : Route) (s : State) : State :=
  let s := if s.handGuard r then (match r with | .a => fdcInputLoop s | .b => s) else fdcInputRoute r s
  (s.closeQuasi (s.gov r)).finishIfQuiet

def execFdcInput (r : Route) (s : State) : Out := State.next (doFdcInput r s)

/-- Sends a frame that waits for its hand-over. -/
def State.sendReady (s : State) (r : Route) (f : ReadyFrame) (quality : Nat) : State :=
  if !f.send then s
  else
    let x := s.codePayload f.stream f.plane f.cols f.payload
    let c := if f.plane.isEmpty then (f.payload, false, s) else x
    let h := c.2.2.handRoute r
      { stream := f.stream, routeCode := f.routeCode, fcount := f.fcount, tstart := f.tstart, period := f.period,
        first := f.first, count := f.count, pitch := f.pitch, quality := quality, cseq := f.cseq, switchPos := some f.pos,
        payload := c.1, coded := c.2.1, deadline := some f.deadline, records := 0 }
    if h.1 then h.2.dropBehind r f.stream else h.2

/-- What one threshold record sets off: captures, queues of the cores, the count of the sentinel return (R277, R259,
R441). -/
def State.thresholdOut (s : State) (e : EventRec) : State :=
  let s := { s with power := { s.power with lastThreshold := s.cyc } }
  (s.queueThreshold e).triggerThreshold e

/-- A THRESHOLD record in SENTINEL starts a transition to SENSE, which begins at the next frame boundary (R440). -/
def State.thresholdMode (s : State) (n : Nat) : State :=
  if s.mode == 3 && n != 0 && s.power.transition.isNone then
    { s with power := { s.power with awaited := some 4 } }
  else s

/-- FRAME_HANDOVER (R225): the oldest waiting frame of a stream and route goes to the stream engine, its threshold records
to stream 0x07 with the same deadline, and the frame to the frame port. LATE_DROP stays owed over a frame that is not sent (R39). The last
frame may end a transition (R439). -/
def doFrameHandover (stream : Nat) (r : Route) (s : State) : State :=
  match (s.route r).ready.find? (fun f => f.stream == stream) with
  | none => s
  | some f =>
    let s := s.modRoute r (fun x => { x with ready := x.ready.erase f })
    let owed := s.takeCarry r stream
    let x := if f.send then owed else (owed.1 &&& (65535 - flLate), owed.2.addCarry r stream (owed.1 &&& flLate))
    let q := s.withDegraded (f.quality ||| x.1)
    let s := x.2.sendReady r f q
    let y := s.handEvents r (f.events.map (fun e => { e with flags := q })) q f.period f.cseq f.pos f.deadline
    let s := (y.1.foldl State.thresholdOut y.2).bump (at10 0x2610 r) 0x45 y.1.length
    let s := if decide (stream ≤ 3) then s.framePort f q else s
    (s.thresholdMode y.1.length).finishIfQuiet

def execFrameHandover (stream : Fin 16) (r : Route) (s : State) : Out := State.next (doFrameHandover stream.val r s)

end Sys2Proof.Machine
end

