-- ==== Sys2Proof/Machine/Hka.lean ====
section
/-! DEFINITION. The housekeeping converters (15_housekeeping_adc.md): passes and injected conversions (R397 to R400),
excitation (R401, R402, R409), calibration runs (R403 to R406), and the reference-coil chain (R410 to R414). -/

namespace Sys2Proof.Machine

open Sys2Proof

/-! ### Converters and their settings -/

/-- One converter. -/
def State.conv (s : State) (c : Fin 2) : Hka := if c.val = 0 then s.hka.hka0 else s.hka.hka1

/-- Updates one converter. -/
def State.modConv (s : State) (c : Fin 2) (f : Hka → Hka) : State :=
  if c.val = 0 then { s with hka := { s.hka with hka0 := f s.hka.hka0 } }
  else { s with hka := { s.hka with hka1 := f s.hka.hka1 } }

/-- The other converter. -/
def otherConv (c : Fin 2) : Fin 2 := if c.val = 0 then 1 else 0

/-- Whether the converters run: from the end of BRING-UP, HIBERNATE excepted (R407), but not in local reset (R428). -/
def State.hkaRuns (s : State) : Bool := s.mode != 0 && s.mode != 1 && s.power.supplyOk && !(s.power.domains.get 3).localReset

/-- Whether a converter is gated: it stands still until its gate opens (R430; assumption log 35). -/
def State.convGated (s : State) (c : Fin 2) : Bool := c.val = 1 && s.gated 3

/-- A filter profile (Table 15.2): order, decimation, outputs averaged, settle delay in µs. -/
structure Profile where
  k : Nat
  n : Nat
  a : Nat
  settle : Nat
  deriving DecidableEq, Repr

/-- A profile word as a profile. -/
def profileOf (w : Nat) : Profile := ⟨field w 63 61, field w 18 0, field w 55 48 + 1, field w 47 32⟩

/-- The conversion time in 1/256 µs (R396). -/
def Profile.time256 (p : Profile) : Nat := 256 * p.settle + (p.k + p.a - 1) * p.n * 125

/-- Profile i of a configuration. -/
def hkaProfile (d : Dict) (i : Nat) : Profile := profileOf (dictNum d 0x1808 (i + 1))

/-- The calibration profile (R403). -/
def calProfile : Profile := ⟨3, 4096, 4, 100⟩

/-- Whether the coil chain is enabled in a configuration. -/
def coilOn (d : Dict) : Bool := dictNum d 0x1830 0x01 == 1

/-- The number of entries of a converter's sequence. -/
def seqLen (d : Dict) (c : Fin 2) : Nat := dictNum d 0x1800 (0x04 + c.val)

/-- Entry i of a converter's sequence. -/
def seqEntry (d : Dict) (c : Fin 2) (i : Nat) : Nat := dictNum d (0x1810 + c.val) (i + 1)

/-- Injected entry i. -/
def injEntry (d : Dict) (i : Nat) : Nat := dictNum d 0x1812 (i + 1)

/-- The gain of an entry (Table 15.3). -/
def entryGain (w : Nat) : Nat := field w 20 18

/-- The profile of an entry. -/
def entryProfile (d : Dict) (w : Nat) : Profile := hkaProfile d (field w 17 16)

/-- The profiles of a converter's whole sequence; entry 0 is the coil entry while the chain is enabled (R411). -/
def seqProfiles (d : Dict) (c : Fin 2) : List Profile :=
  (List.range (seqLen d c)).map (fun i =>
    if i = 0 && coilOn d then hkaProfile d (dictNum d 0x1830 0x09) else entryProfile d (seqEntry d c i))

/-- The pass time of a configuration in 1/256 µs: the longer sequence (OD 1800.14). -/
def passTime256 (d : Dict) : Nat :=
  Nat.max (sumN ((seqProfiles d 0).map Profile.time256)) (sumN ((seqProfiles d 1).map Profile.time256))

/-- The gain codes in use on a converter (R403). -/
def gainsInUse (d : Dict) (c : Fin 2) : List Nat :=
  let seq := ((List.range (seqLen d c)).filter (fun i => !(i = 0 && coilOn d))).map (fun i => entryGain (seqEntry d c i))
  let inj := ((List.range (dictNum d 0x1800 0x07)).map (injEntry d)).filter (fun w => bit w 15 == (c.val == 1))
  let all := seq ++ inj.map entryGain ++ (if coilOn d then [dictNum d 0x1830 0x08] else [])
  (List.range 8).filter (fun g => all.contains g)

/-- The profile of the job in hand. -/
def Hka.profile (h : Hka) (c : Fin 2) : Profile :=
  match h.job with
  | .idle => calProfile
  | .coil => hkaProfile h.cfg (dictNum h.cfg 0x1830 0x09)
  | .entry i => entryProfile h.cfg (seqEntry h.cfg c i)
  | .injected i => entryProfile h.cfg (injEntry h.cfg i)
  | .cal _ _ => calProfile

/-- The gain of the job in hand. -/
def Hka.gain (h : Hka) (c : Fin 2) : Nat :=
  match h.job with
  | .idle => 0
  | .coil => dictNum h.cfg 0x1830 0x08
  | .entry i => entryGain (seqEntry h.cfg c i)
  | .injected i => entryGain (injEntry h.cfg i)
  | .cal g _ => g

/-- Reports OD 1800.13 and OD 1850.10. -/
def State.reportHka (s : State) : State :=
  let h := s.hka
  let pend := h.hka0.corrNew.isSome || h.hka1.corrNew.isSome
  (s.put 0x1800 0x13 (if h.calRunning then 2 else if h.passing then 1 else 0)).put 0x1850 0x10
    (b2n h.calHeld * 4 + b2n pend * 2 + b2n h.calRunning)

/-! ### The next entry (R399, R408) -/

/-- Whether a commit changes the coil chain's objects. -/
def coilChanged (a b : Dict) : Bool := (List.range 9).any (fun i => dictGet a (objKey 0x1830 (i + 1)) != dictGet b (objKey 0x1830 (i + 1)))

/-- A converter at an entry boundary takes the objects committed at least 2 ms before; a change of the coil chain clears
VALID in the coil status (R408, Table 15.5). In SAFE the converters go on with the configuration in force (R407). -/
def State.takeHkaCfg (s : State) (c : Fin 2) : State :=
  if s.cyc < s.hka.cfgFrom || s.mode == 7 then s
  else
    let new := chapter15 s.base
    let old := (s.conv c).cfg
    if new == old then s
    else
      let s := s.modConv c (fun h => { h with cfg := new })
      if coilChanged old new then s.putBit 0x1830 0x11 0 false else s

/-- An idle converter is at an entry boundary. -/
def State.takeIdle (s : State) : State :=
  let go := fun (s : State) (c : Fin 2) => if (s.conv c).job == .idle then s.takeHkaCfg c else s
  go (go s 0) 1

/-- An object of OD 1800 that both converters share, as HKA0 runs on it, or HKA1 where HKA0 is retired (DESIGN CHOICE, assumption log 34). -/
def State.hkaNum (s : State) (sub : Nat) : Nat := dictNum (if s.hka.hka0.retired then s.hka.hka1.cfg else s.hka.hka0.cfg) 0x1800 sub

/-- Starts the coil entry on the converters that are not retired, together (R411, R451). -/
def State.startCoil (s : State) : State :=
  let go := fun (h : Hka) => if h.retired then h else { h with job := .coil, coilDue := false }
  { s with hka := { s.hka with hka0 := go s.hka.hka0, hka1 := go s.hka.hka1, coil0 := none, coil1 := none } }

/-- Whether entry 0 of a pass, the coil entry, is due on a converter. -/
def Hka.coilWaits (h : Hka) : Bool := h.inPass && h.coilDue && coilOn h.cfg

/-- A converter at whose boundary the coil entry is due: both start it together, and it waits for the other where that is not yet at a
boundary. Where the other has passed its entry 0 under the configuration without the chain, the pass has no coil entry (DESIGN CHOICE,
assumption log 34). Answers whether the converter goes on to what else is due. -/
def State.coilTogether (s : State) (c : Fin 2) : Bool × State :=
  let o := otherConv c
  let skip := (true, s.modConv c (fun h => { h with coilDue := false }))
  if (s.conv o).retired then (false, s.startCoil)
  else if !(s.conv o).inPass || !(s.conv o).coilDue then skip
  else if (s.conv o).job != .idle || s.convGated o then (false, s)
  else
    let s := s.takeHkaCfg o
    if (s.conv o).coilWaits then (false, s.startCoil) else skip

/-- A run begins on a converter at its entry boundary, with the gain codes then in use (R403). -/
def Hka.beginCal (h : Hka) (c : Fin 2) : Hka :=
  if h.calAsked then
    { h with
      calAsked := false, calLeft := gainsInUse h.cfg c, calGains := gainsInUse h.cfg c, calZero := none
      calNew := (h.corrNew.map (·.1)).getD h.corr }
  else h

/-- What an idle converter takes beside the coil entry: a pending injected entry, a pending calibration, the next entry of its sequence; else
its part of the pass is over. -/
def Hka.take (h : Hka) (c : Fin 2) : Hka :=
  match h.injected with
  | i :: t => { h with job := .injected i, injected := t }
  | [] =>
    let h := h.beginCal c
    match h.calLeft with
    | g :: _ => { h with job := .cal g h.calZero.isSome }
    | [] =>
      if !h.inPass then h
      else if h.coilDue then { h with job := .entry 0, coilDue := false }
      else if h.next < seqLen h.cfg c then { h with job := .entry h.next, next := h.next + 1 }
      else { h with inPass := false }

/-- What an idle converter does next: the coil entry of a pass, then what `Hka.take` says (R399). -/
def State.hkaNext (s : State) (c : Fin 2) : State :=
  if (s.conv c).job != .idle || s.convGated c then s
  else
    let s := s.takeHkaCfg c
    if (s.conv c).retired then
      s.modConv c (fun h => { h with inPass := false, injected := [], calLeft := [], calAsked := false, coilDue := false })
    else
      let x := if (s.conv c).coilWaits then s.coilTogether c else (true, s)
      if x.1 then x.2.modConv c (fun h => h.take c) else x.2

/-- Both converters look for work. -/
def State.hkaKick (s : State) : State := ((s.hkaNext 0).hkaNext 1).reportHka

/-- A converter whose gate has opened goes on where it stood; `was` are the gates that were in force. -/
def State.openGates (s : State) (was : Nat) : State := if bit was 3 && !s.gated 3 then s.hkaKick else s

/-! ### Passes (R398) -/

/-- A pass starts: the sequence boundary, at which new corrections of both converters take effect together (R405). -/
def State.startPass (s : State) : State :=
  let s := s.takeIdle
  if s.hka.hka0.retired && s.hka.hka1.retired then s
  else
    let fresh := s.hka.hka0.corrNew.isSome || s.hka.hka1.corrNew.isSome
    let go := fun (h : Hka) => match h.corrNew with
      | some x => { h with corr := x.1, corrNew := none, calibrated := h.calibrated ++ x.2.filter (fun g => !h.calibrated.contains g) }
      | none => h
    let begin' := fun (h : Hka) => if h.retired then h else
      { go h with inPass := true, next := 1, coilDue := true }
    let s := { s with hka := { s.hka with
      passing := true, trigHeld := false, hka0 := begin' s.hka.hka0, hka1 := begin' s.hka.hka1
      applied := if fresh then s.num 0x1850 0x11 else s.hka.applied } }
    s.hkaKick

/-- A sequence trigger: a pass, an overrun during a pass, or a trigger held during a calibration run (R398, R404). -/
def State.hkaTrigger (s : State) : State :=
  if !s.hkaRuns then s
  else if s.hka.passing then s.bump 0x1800 0x11 1
  else if s.hka.calRunning then { s with hka := { s.hka with trigHeld := true } }
  else s.startPass

/-- Whether some route launches. -/
def State.anyLaunching (s : State) : Bool := s.routeA.optics.launching || s.routeB.optics.launching

/-- Whether an injected entry is pending or running. -/
def Hka.injectedBusy (h : Hka) : Bool :=
  !h.injected.isEmpty || (match h.job with | .injected _ => true | _ => false)

/-- The injected trigger. -/
def State.injectTrigger (s : State) : State :=
  if !s.hkaRuns then s
  else if s.hka.hka0.injectedBusy || s.hka.hka1.injectedBusy then s.bump 0x1800 0x12 1
  else
    let s := s.takeIdle
    let all := List.range (s.hkaNum 0x07)
    let of := fun (c : Fin 2) => if (s.conv c).retired then [] else
      all.filter (fun i => bit (injEntry (s.conv c).cfg i) 15 == (c.val == 1))
    ((s.modConv 0 (fun h => { h with injected := of 0 })).modConv 1 (fun h => { h with injected := of 1 })).hkaKick

/-- SEQUENCE_PASS_START (R398): the sequence period under trigger 1, and under trigger 2 while no route launches; the
first pass under trigger 4. Injected trigger 7 falls back to the period in the same way (Table 15.6). -/
def doSequencePassStart (s : State) : State :=
  let s := s.takeIdle
  let s := if s.hkaNum 0x06 == 7 && !s.anyLaunching then s.injectTrigger else s
  match s.hkaNum 0x01 with
  | 1 => s.hkaTrigger
  | 2 => if s.anyLaunching then s else s.hkaTrigger
  | 4 => if s.hka.passing then s else s.hkaTrigger
  | _ => s

def execSequencePassStart (s : State) : Out := State.next (doSequencePassStart s)

/-- A write of OD 1800.03: trigger 3. -/
def sequenceWrite (s : State) : Reply := ⟨0, if s.takeIdle.hkaNum 0x01 == 3 then s.takeIdle.hkaTrigger else s, id⟩

/-- The end of a pass: counted, and under trigger 4 the start of the next. -/
def State.passEnd (s : State) : State :=
  if s.hka.passing && !s.hka.hka0.inPass && !s.hka.hka1.inPass then
    let s := ({ s with hka := { s.hka with passing := false } }).bump 0x1800 0x10 1
    let s := s.takeIdle
    if s.hkaNum 0x01 == 4 then s.hkaTrigger.reportHka else s.reportHka
  else s

/-! ### Injected conversions (R399) -/

/-- A write of OD 1800.08: injected trigger 0. -/
def injectedWrite (s : State) : Reply := ⟨0, if s.takeIdle.hkaNum 0x06 == 0 then s.takeIdle.injectTrigger else s, id⟩

/-- The triggers of a route frame boundary: of route A, or of route B while route A is not enabled; the period takes their place while no
route launches (R398, R399). -/
def State.hkaFrame (s : State) (r : Route) : State :=
  if (r == .a || !s.enabled .a) && s.anyLaunching then
    let s := s.takeIdle
    let s := if s.hkaNum 0x01 == 2 then s.hkaTrigger else s
    if s.hkaNum 0x06 == 7 then s.injectTrigger else s
  else s

/-- The injected trigger of an input edge: triggers 1 to 6 are TS0 to TS5. -/
def State.hkaInput (s : State) (input : Nat) : State :=
  if s.takeIdle.hkaNum 0x06 == input + 1 then s.takeIdle.injectTrigger else s

/-! ### Calibration (R403 to R406) -/

/-- Starts a calibration run on the converters that are not retired: each begins it at its next entry boundary (R403). -/
def State.startCal (s : State) : State :=
  let go := fun (h : Hka) => { h with calAsked := !h.retired }
  { s with hka := { s.hka with calRunning := true, hka0 := go s.hka.hka0, hka1 := go s.hka.hka1 } }.hkaKick

/-- A request of a run; one made during a run is held (R404). -/
def State.requestCal (s : State) : State :=
  if !s.hkaRuns then s
  else if s.hka.calRunning then { s with hka := { s.hka with calHeld := true } }.reportHka
  else s.startCal

/-- A write of OD 1850.03. -/
def hkaCalWrite (s : State) : Reply := ⟨0, s.requestCal, id⟩

/-- Whether a converter has finished its part of a run. -/
def Hka.calOver (h : Hka) : Bool := !h.calAsked && h.calLeft.isEmpty && (match h.job with | .cal _ _ => false | _ => true)

/-- HKA_CALIBRATION_COMPLETE (R404, R405): the corrections of both converters wait for the next sequence boundary; a
held trigger starts its pass, a held request the next run. -/
def doHkaCalibrationComplete (s : State) : State :=
  if !s.hka.calRunning || !s.hka.hka0.calOver || !s.hka.hka1.calOver then s
  else
    let go := fun (h : Hka) => if h.retired then h else
      { h with corrNew := some (h.calNew, (h.corrNew.map (·.2)).getD [] ++ h.calGains) }
    let held := s.hka.calHeld
    let trig := s.hka.trigHeld
    let s := { s with hka := { s.hka with
      calRunning := false, calHeld := false, hka0 := go s.hka.hka0, hka1 := go s.hka.hka1 } }
    let s := s.bump 0x1850 0x11 1
    let s := if trig then s.startPass else s
    (if held then s.startCal else s).reportHka

def execHkaCalibrationComplete (s : State) : Out := State.next (doHkaCalibrationComplete s)

/-- m_g of R403, saturated to u24.22 (R15): 0 where the reference lies below the zero. A divisor of 0 gives no quotient that the manual
states, and the free value `v`. -/
def calGain (xz xr : Int) (v : Nat) : Nat :=
  let d := xr - xz
  if d = 0 then v % 2 ^ 24 else if d < 0 then 0 else satU (rhuDiv (2 ^ 44) d) 24

/-- A calibration conversion ends: the zero, then the reference of the gain in hand. -/
def State.calResult (s : State) (c : Fin 2) (g : Nat) (ref : Bool) (x : Int) : State :=
  if !ref then s.modConv c (fun h => { h with calZero := some x })
  else
    let (v, s) := s.draw
    s.modConv c (fun h =>
      let z := h.calZero.getD 0
      { h with calZero := none, calLeft := h.calLeft.drop 1
               calNew := (h.calNew.zip (List.range 8)).map (fun e => if e.2 = g then (z, calGain z x v) else e.1) })

/-- The correction of R405. -/
def Hka.correct (h : Hka) (g : Nat) (x : Int) : Int :=
  let e := h.corr.getD g (0, 4194304)
  sat (rhu ((x - e.1) * (e.2 : Nat)) 22) 24

/-! ### Results (R394, R396, R400, R402) -/

/-- A result register with a new result (Table 15.4). -/
def hkaResult (old : Nat) (v : Int) (unset clip cal : Bool) : Nat :=
  ofSigned v 24 * 256 + (field old 7 5 + 1) % 8 * 32 + b2n unset * 16 + b2n clip * 8 + b2n cal * 2 + 1

/-- Whether an output averaged into a conversion that ends now was produced less than k output periods after the last
reset of the filters (R402); in units of 1/32 ns. Only a conversion in progress at that reset can be: every later one resets its filter
itself before its outputs (R396). -/
def State.unsettled (s : State) (c : Fin 2) (p : Profile) : Bool :=
  match (s.conv c).resetNs with
  | some t => decide (32 * (s.cyc : Int) - (((p.a - 1) * p.n * 15625 : Nat) : Int) < ((32 * t + p.k * p.n * 15625 : Nat) : Int))
  | none => false

/-- Whether an averaged output reaches full scale (R394). -/
def fullScale (outputs : List Int) : Bool := outputs.any (fun x => decide (8388608 ≤ x) || decide (x ≤ -8388608))

/-- Whether a completed run has calibrated the gain of the conversion in hand. -/
def State.calHas (s : State) (c : Fin 2) : Bool := (s.conv c).calibrated.contains ((s.conv c).gain c)

/-- Writes a result register. -/
def State.writeResult (s : State) (c : Fin 2) (idx sub : Nat) (v : Int) (unset clip : Bool) : State :=
  s.put idx sub (hkaResult (s.num idx sub) v unset clip (s.calHas c))

/-! ### The coil chain (R410 to R414) -/

/-- The numerator of code(T) of R413 at h / 2,000 °C, for ρ_0, the coefficients and the gain; over ρ_ref × 2,000^4. -/
def coilNum (d : Dict) (h : Int) : Dy :=
  let a := ofF32 (dictNum d 0x1830 0x04)
  let b := ofF32 (dictNum d 0x1830 0x05)
  let c := ofF32 (dictNum d 0x1830 0x06)
  let q : Int := 2000
  let base := ((Dy.ofInt (q ^ 4)).add (a.mul (Dy.ofInt (h * q ^ 3)))).add (b.mul (Dy.ofInt (h * h * q ^ 2)))
  let full := if h < 0 then base.add (c.mul (Dy.ofInt ((h - 200000) * h * h * h))) else base
  full.mul ⟨(dictNum d 0x1830 0x03 : Nat), 23 + (dictNum d 0x1830 0x08 : Nat)⟩

/-- The denominator of code(T). -/
def coilDen (d : Dict) : Int := (dictNum d 0x1830 0x02 : Nat) * 2000 ^ 4

/-- floor(code(T)) at h / 2,000 °C. -/
def coilCode (d : Dict) (h : Int) : Int :=
  let x := coilNum d h
  if 0 ≤ x.e then x.m * 2 ^ x.e.toNat / coilDen d else x.m / (coilDen d * 2 ^ (-x.e).toNat)

/-- xlo of R413 for a shift. -/
def coilXlo (d : Dict) (sh : Nat) : Int := coilCode d (-100000) / 2 ^ sh * 2 ^ sh

/-- Whether code(+150 °C) is at most a code. -/
def coilTop (d : Dict) (x : Int) : Bool :=
  !((Dy.ofInt (x * coilDen d)).lt (coilNum d 300000))

/-- sh of R413: the least of 8 to 20 that covers +150 °C. -/
def coilShift (d : Dict) : Nat :=
  ((List.range 13).map (· + 8)).foldl (fun (r : Option Nat) sh =>
    match r with
    | some x => some x
    | none => if coilTop d (coilXlo d sh + 256 * 2 ^ sh) then some sh else none) none |>.getD 20

/-- The greatest m of R413's table, in m°C above -300 °C, with code(m - 0.5 m°C) at most x, by bits. -/
def coilTempAux (d : Dict) (x : Int) : Nat → Int → Int
  | 0, t => t
  | k + 1, t =>
    let u := t + 2 ^ k
    coilTempAux d x k (if !((Dy.ofInt (x * coilDen d)).lt (coilNum d (2 * u - 1))) then u else t)

/-- tt of R413 at a code: the temperature in m°C, rounded to the nearest integer. -/
def coilTemp (d : Dict) (x : Int) : Int := coilTempAux d x 21 (-300000)

/-- The coil temperature of v_c, none outside the table (R413). -/
def coilTc (d : Dict) (vc : Int) : Option Int :=
  let sh := coilShift d
  let xlo := coilXlo d sh
  if vc < xlo || xlo + 256 * 2 ^ sh ≤ vc then none
  else
    let i := (vc - xlo) / 2 ^ sh
    let f := (vc - xlo) % 2 ^ sh
    let t0 := coilTemp d (xlo + i * 2 ^ sh)
    let t1 := coilTemp d (xlo + (i + 1) * 2 ^ sh)
    some (t0 + rhu ((t1 - t0) * f) sh)

/-- The coil status and temperature from v_c (R413, R414); `failed` is the outcome of the cross-check. -/
def State.coilValue (s : State) (d : Dict) (vc : Int) (unset failed : Bool) : State :=
  let st := 1 + b2n unset * 2 + b2n failed * 4
  let s := { s with hka := { s.hka with coilRun := s.hka.applied } }
  match coilTc d vc with
  | some t => (s.putI 0x1830 0x10 32 t).put 0x1830 0x11 st
  | none => (s.putI 0x1830 0x10 32 (-2147483648)).put 0x1830 0x11 (st + 8)

/-- The cross-check of R412 once every converter in service has its coil code; with one retired there is none (R451). The
coil code is v_c whether it passes or fails. -/
def State.coilCheck (s : State) (d : Dict) : State :=
  match s.hka.coil0, s.hka.coil1 with
  | some a, some b =>
    let w := 2 ^ 23 * dictNum d 0x1830 0x07 / 10000
    let u := a.2 || b.2
    let vc := rhu (a.1 + b.1) 1
    if (a.1 - b.1).natAbs ≤ w then s.coilValue d vc u false
    else
      let s := ((s.putBit 0x1820 0x01 2 true).putBit 0x1821 0x01 2 true).coilValue d vc u true
      ((s.bump 0x1830 0x14 1).issueOpen 0x2F 0x22 0).detect .hka false
  | some a, none => if s.hka.hka1.retired then s.coilValue d a.1 a.2 false else s
  | none, some b => if s.hka.hka0.retired then s.coilValue d b.1 b.2 false else s
  | none, none => s

/-- The coil code of one converter. -/
def State.coilResult (s : State) (c : Fin 2) (v : Int) (unset clip : Bool) : State :=
  let d := (s.conv c).cfg
  let s := (s.writeResult c (0x1820 + c.val) 0x01 v unset clip).putI 0x1830 (0x12 + c.val) 32 v
  let s := if c.val = 0 then { s with hka := { s.hka with coil0 := some (v, unset) } }
    else { s with hka := { s.hka with coil1 := some (v, unset) } }
  s.coilCheck d

/-! ### Commands -/

/-- CONVERSION_COMPLETE (R396): the outputs averaged, `a` of them, become the result of the conversion in hand; the
converter then takes its next entry (R399). A pass ends when both converters have written their last result (R398). -/
def doConversionComplete (conv : Fin 2) (outputs : List Int) (s : State) : State :=
  let h := s.conv conv
  let p := h.profile conv
  if !s.hkaRuns || s.convGated conv || h.job == .idle || outputs.length != p.a then s
  else
    let x := rhuDiv (sumI outputs) p.a
    let v := h.correct (h.gain conv) x
    let unset := s.unsettled conv p
    let clip := fullScale outputs
    let s := match h.job with
      | .idle => s
      | .coil => s.coilResult conv v unset clip
      | .entry i => s.writeResult conv (0x1820 + conv.val) (i + 1) v unset clip
      | .injected i => s.writeResult conv 0x1822 (i + 1) v unset clip
      | .cal g ref => s.calResult conv g ref x
    let last := match h.job with
      | .coil => decide (seqLen h.cfg conv ≤ h.next)
      | .entry _ => decide (seqLen h.cfg conv ≤ h.next)
      | _ => false
    let s := s.modConv conv (fun h => { h with job := .idle, resetNs := none, inPass := h.inPass && !last })
    s.passEnd.hkaKick.passEnd

def execConversionComplete (conv : Fin 2) (outputs : List Int) (s : State) : Out := State.next (doConversionComplete conv outputs s)

/-- A converter resets its filter in a conversion in progress (R402). -/
def Hka.resetFilter (h : Hka) (now : Nat) : Hka := if h.job == .idle then h else { h with resetNs := some now }

/-- EXCITATION_CHANGE (R402, R409): the committed currents are applied and both converters reset their filters; in SAFE the currents in force
stay (R407). -/
def doExcitationChange (s : State) : State :=
  match s.hka.excitationDue with
  | some x =>
    if !s.hkaRuns || s.mode == 7 then s
    else { s with hka := { s.hka with
      iexc := x, excitationDue := none, hka0 := s.hka.hka0.resetFilter s.cyc, hka1 := s.hka.hka1.resetFilter s.cyc } }
  | none => s

def execExcitationChange (s : State) : Out := State.next (doExcitationChange s)

/-- An admitted configuration reaches the converters 2 ms later (R408, R409). -/
def State.commitHka (s : State) (values : Dict) : State :=
  let x := (dictNum values 0x1840 0x01, dictNum values 0x1840 0x02)
  { s with hka := { s.hka with
    cfgFrom := s.cyc + 2000000
    excitationDue := if x == s.hka.iexc then none else some x } }

/-- OD 1850.12 (R416): the corrections in force of both converters. -/
def State.hkaCorrections (s : State) : Bytes :=
  (s.hka.hka0.corr ++ s.hka.hka1.corr).flatMap (fun e => beInt 4 e.1 ++ beBytes 4 e.2)

end Sys2Proof.Machine
end

