-- ==== Sys2Proof/Machine/Judge.lean ====
section
/-! DEFINITION. The commit-time rules of check CONSISTENCY (R490): Tables 2.1, 3.10, 4.8, 5.8, 6.2, 7.6, 8.7, 9.13, 10.6,
13.7 and 15.7, and R311. A row answers the object that breaks it and the route code of Table 2.5, or nothing. Rows stand in
the order of the chapters; within a row the routes, slots and entries rise. -/

namespace Sys2Proof.Machine

open Sys2Proof

/-- What a configuration is judged on: its values, the usable capacity of a channel, the channels in service, the position
pool, the limits of the links in bit/s, and the retired cores (R78, R299, R392, R451). -/
structure Resources where
  usable : Nat
  channels : List Nat
  peak : Nat
  pool : Nat
  links : List Nat
  retired : List Bool
  deriving DecidableEq, Repr

/-- The object that breaks a row, with the route code of Table 2.5. -/
abbrev Broken := Option (Nat × Nat)

/-- A row on a route's own objects (R490). -/
def onEnds (get : CfgRead) (key : Route → Nat) (ok : Route → Bool) : Broken :=
  (enabledRoutes get).findSome? (fun r => if ok r then none else some (key r, routeNum r + 1))

/-- A row on the objects that govern a route: under Loop Guard those of route A, judged for both ends. -/
def onGov (get : CfgRead) (key : Route → Nat) (ok : Route → Bool) : Broken :=
  (enabledRoutes get).findSome? (fun r => if ok r then none else some (key (govOf get r), routeNum (govOf get r) + 1))

/-- A row on a device-wide object. -/
def device (key : Nat) (ok : Bool) : Broken := if ok then none else some (key, 0)

/-- The key of a route's object 0x100 apart. -/
def key100 (base sub : Nat) (r : Route) : Nat := objKey (at100 base r) sub

/-- The key of a route's object 0x10 apart. -/
def key10 (base sub : Nat) (r : Route) : Nat := objKey (at10 base r) sub

/-- A number of the governing route's objects, 0x100 apart. -/
def gv100 (get : CfgRead) (base sub : Nat) (r : Route) : Nat := get (at100 base (govOf get r)) sub

/-- A number of the governing route's objects, 0x10 apart. -/
def gv10 (get : CfgRead) (base sub : Nat) (r : Route) : Nat := get (at10 base (govOf get r)) sub

/-- Whether Raman is enabled on a route and a SENSE schedule is held (Tables 3.10, 7.6). -/
def ramanJudged (get : CfgRead) (r : Route) : Bool := gv100 get 0x2170 0x01 r == 1 && !commissioning get

/-- Whether rows on the SENTINEL schedule are judged with a schedule: SENTINEL, or the survey schedule held alone. -/
def sentinelRow (get : CfgRead) (k : SchedKind) : Bool := k == .sentinel || commissioning get

/-! ### Chapters 2 and 3 -/

/-- The registrations in use of an end (R96). -/
def registrations (v : CfgVal) (r : Route) : List Registration :=
  let get := v.num
  if get (at100 0x2160 r) 0x01 != 1 then []
  else if gv100 get 0x2140 0x01 r == 0 then [regFixed get r]
  else
    let seq := (List.range (gv100 get 0x2140 0x04 r)).map (fun i => field (gv100 get 0x2140 (0x10 + i) r) 19 16)
    (seq ++ [get 0x2A00 0x0E]).map (regRecord (v.blob (at100 0x2160 r) 0x20))

/-- Rows of Tables 2.1 and 3.10. -/
def rulesProbe (v : CfgVal) (k : SchedKind) : List Broken :=
  let get := v.num
  let c := fun r => mkSched get k r
  let cs := fun r => mkSched get .sense r
  [onGov get (key100 0x2110 0x06) (fun r => (c r).plan == 3 || decide ((c r).reach ≤ 245000)),
   onGov get (key100 0x2110 0x0C) (fun r => decide (gv100 get 0x2110 0x0C r < (c r).frame)),
   onGov get (key100 0x2110 0x08) (fun r =>
     let tp := (c r).tp
     if gv100 get 0x2120 0x01 r == 0 then decide (20 ≤ tp) && decide (tp ≤ 2000) && (c r).plan != 3
     else decide (1000 ≤ tp) && decide (tp ≤ 20000)),
   onGov get (key100 0x2120 0x01) (fun r => (c r).plan != 3 || gv100 get 0x2120 0x01 r == 1),
   onGov get (key100 0x2120 0x02) (fun r =>
     let b := gv100 get 0x2120 0x02 r
     if (c r).plan == 3 then decide (200 ≤ b) && decide (b ≤ 800) else decide (10 ≤ b) && decide (b ≤ 200)),
   onGov get (key100 0x2120 0x05) (fun r => gv100 get 0x2120 0x04 r != 1 || decide (gv100 get 0x2120 0x05 r ≤ (c r).tp / 2)),
   onEnds get (key100 0x2160 0x02) (fun r =>
     let a := get (at100 0x2160 r) 0x02
     get (at100 0x2160 r) 0x01 != 1 || (decide (1 ≤ a) && decide (a < get (at100 0x2130 r) 0x02))),
   onEnds get (key100 0x2160 0x09) (fun r => (registrations v r).all (fun g =>
     decide (g.firstBin ≤ g.lastBin) && decide (g.lastBin ≤ (c r).reach))),
   onEnds get (key100 0x2160 0x0C) (fun r => (registrations v r).all (fun g =>
     g.codeN == get (at100 0x2130 r) 0x02 && g.codeA == get (at100 0x2160 r) 0x02)),
   onEnds get (key100 0x2160 0x04) (fun r => !isLoop get || get (at100 0x2160 r) 0x04 == 0),
   onGov get (key100 0x2170 0x02) (fun r => !ramanJudged get r ||
     decide ((cs r).rt + gv100 get 0x2170 0x04 r + 5000 ≤ gv100 get 0x2170 0x02 r * (cs r).t)),
   onGov get (key100 0x2170 0x03) (fun r => !ramanJudged get r ||
     decide (gv100 get 0x2170 0x03 r + gv100 get 0x2170 0x04 r ≤ (cs r).t)),
   onEnds get (key100 0x2150 0x03) (fun r =>
     let a := if isLoop get && r == .b then loopA get else 0
     decide (get (at100 0x2150 r) 0x03 + a + get (at100 0x2150 r) 0x02 + 5000 + (c r).rt + (c r).tp ≤ (c r).t)),
   onGov get (key100 0x2140 0x04) (fun r => gv100 get 0x2140 0x01 r != 1 ||
     (List.range (gv100 get 0x2140 0x04 r)).all (fun i => field (gv100 get 0x2140 (0x10 + i) r) 15 0 != 0))]

/-! ### Chapters 4 to 7 -/

/-- Rows of Table 4.8. -/
def rulesCrx (v : CfgVal) (k : SchedKind) : List Broken :=
  let get := v.num
  let c := fun r => mkSched get k r
  let o := fun r s => get (at100 0x2180 r) s
  [onEnds get (key100 0x2180 0x03) (fun r => decide (o r 0x03 ≤ o r 0x04)),
   onEnds get (key100 0x2180 0x02) (fun r => o r 0x01 != 0 || (decide (o r 0x03 ≤ o r 0x02) && decide (o r 0x02 ≤ o r 0x04))),
   onEnds get (key100 0x2180 0x08) (fun r => decide (o r 0x08 * (c r).g < (c r).t)),
   onEnds get (key100 0x2190 0x07) (fun r => decide (get (at100 0x2190 r) 0x07 * (c r).frame ≤ 60000000000)),
   device (objKey 0x2032 0x02) (decide (get 0x2032 0x02 + get 0x2032 0x03 ≤ 2048))]

/-- Rows of Table 5.8. -/
def rulesRayleigh (v : CfgVal) (k : SchedKind) : List Broken :=
  let get := v.num
  let c := fun r => mkSched get k r
  let cs := fun r => mkSched get .sense r
  [onGov get (key10 0x2410 0x01) (fun r => decide (gv10 get 0x2410 0x01 r < gv100 get 0x2110 0x05 r)),
   onGov get (key100 0x2110 0x08) (fun r => (c r).plan != 3 || decide ((c r).tp ≤ 8000)),
   onEnds get (key10 0x2410 0x08) (fun r => k == .survey ||
     (decide (get (at10 0x2410 r) 0x07 + 15 ≤ get (at10 0x2410 r) 0x08) && decide (get (at10 0x2410 r) 0x08 ≤ (c r).reach))),
   onGov get (key10 0x2410 0x0B) (fun r => k == .sentinel || decide (gv10 get 0x2410 0x0B r * (cs r).t ≤ 2000000))]

/-- Rows of Table 6.2. -/
def rulesLoop (v : CfgVal) (k : SchedKind) : List Broken :=
  let get := v.num
  let c := mkSched get k .a
  let cs := mkSched get .sense .a
  let len := get 0x2A30 0x01
  if !isLoop get then []
  else
    [onGov get (key100 0x2110 0x02) (fun _ => decide (c.plan ≤ 1)),
     device (objKey 0x2A30 0x01) (get 0x2A30 0x02 != 1 ||
       (decide ((cs.first + cs.count - 1) * cs.pitch * cs.tbin ≤ len) && decide (len ≤ c.reach * c.tbin)))]

/-- Whether thermal-only sections ascend without overlap within the positions `lo` to `hi`. -/
def sectionsRise (lo hi : Nat) : List (Nat × Nat) → Bool
  | [] => true
  | x :: t => decide (lo ≤ x.1) && decide (x.1 ≤ x.2) && decide (x.2 ≤ hi) && sectionsRise (x.2 + 1) hi t

/-- Rows of Table 7.6. -/
def rulesThermal (v : CfgVal) (_ : SchedKind) : List Broken :=
  let get := v.num
  let cs := fun r => mkSched get .sense r
  let m := fun r => gv10 get 0x2530 0x01 r
  [onGov get (key10 0x2510 0x01) (fun r => !ramanJudged get r ||
     2 ^ (gv10 get 0x2510 0x01 r + b2n (isLoop get)) * gv100 get 0x2170 0x02 r % Nat.max (cs r).f 1 == 0),
   onGov get (key10 0x2510 0x02) (fun r => decide (gv10 get 0x2510 0x02 r ≤ gv100 get 0x2110 0x05 r)),
   onGov get (key10 0x2510 0x06) (fun r => decide (4 ≤ (coilSpan get r).2)),
   onGov get (key10 0x2530 0x01) (fun r => m r == 0 || gv100 get 0x2120 0x01 r == 1),
   onGov get (key10 0x2530 0x03) (fun r => decide (gv10 get 0x2530 0x03 r < gv10 get 0x2530 0x02 r)),
   onGov get (key10 0x2550 0x20) (fun r =>
     let secs := thermalSections (v.blob (at10 0x2550 (govOf get r)) 0x20)
     secs.isEmpty || (sectionsRise (cs r).first ((cs r).first + (cs r).count - 1) secs && m r != 0
       && gv100 get 0x2170 0x01 r == 1))]

/-! ### Chapter 8 -/

/-- Whether a value is the sign extension of 18 bits. -/
def ext18 (x : Int) : Bool := decide (-131072 ≤ x) && decide (x < 131072)

/-- Whether a bank record is valid at a decimation: Table 8.2, R229 and its bound on L. -/
def bankValid (nb dec : Nat) (b : Bytes) : Bool :=
  let l := beField b 2 2
  let m := parseBank b
  decide (96 ≤ b.length) && beField b 0 1 == 1 && decide (beField b 1 1 ≤ 1) && (slice b 8 8).all (fun x => x == 0)
    && b.length == 96 + 4 * l && decide (1 ≤ l) && decide (l ≤ 2 * dec) && beField b 6 1 == nb && decide (beField b 7 1 ≤ 62)
    && m.bands.all (fun w => w.all ext18) && m.taps.all ext18 && (m.bands.drop nb).all (fun w => w.all (fun x => x == 0))
    && (if beField b 1 1 == 1 then decide (beField b 4 2 ≤ 2 * (l - 1))
        else beField b 4 2 == l - 1 && m.taps == m.taps.reverse)

/-- Whether a bank of a route is valid at a decimation; an empty bank is the boxcar of bank 0 alone (R228). -/
def bankOk (v : CfgVal) (q : Route) (i dec : Nat) : Bool :=
  let b := v.blob (at10 0x2610 q) (0x30 + i)
  if b.isEmpty then i == 0 else bankValid (v.num (at10 0x2610 q) 0x10) dec b

/-- Whether a held bank meets its bounds (Table 8.7): that of the SENSE schedule where it selects the bank, that of the
SENTINEL schedule where it names it; another bank may be longer than 2R, and is then no bank of SENSE (R230). -/
def bankRow (v : CfgVal) (q : Route) (i : Nat) : Bool :=
  let o := at10 0x2610 q
  let sel := v.num o 0x0A == i
  let sen := v.num o 0x0C == i
  if (v.blob o (0x30 + i)).isEmpty then true
  else if sel || sen then (!sel || bankOk v q i (v.num o 0x03)) && (!sen || bankOk v q i (v.num o 0x0B))
  else bankOk v q i (v.num o 0x03)

/-- Rows of Table 8.7. -/
def rulesFdc (v : CfgVal) (k : SchedKind) : List Broken :=
  let get := v.num
  let cs := fun r => mkSched get .sense r
  let o := fun r s => gv10 get 0x2610 s r
  [onGov get (key10 0x2610 0x03) (fun r => (cs r).f * (cs r).g % Nat.max (o r 0x03) 1 == 0),
   onGov get (key10 0x2610 0x0B) (fun r => !sentinelRow get k || (cs r).f * (if isLoop get then 2 else 1) % Nat.max (o r 0x0B) 1 == 0)]
  ++ (List.range 4).map (fun i => onGov get (key10 0x2610 (0x30 + i)) (fun r => bankRow v (govOf get r) i))
  ++ [onGov get (key10 0x2610 0x0A) (fun r => bankOk v (govOf get r) (o r 0x0A) (o r 0x03)),
   onGov get (key10 0x2610 0x0C) (fun r => !sentinelRow get k ||
     (bankOk v (govOf get r) (o r 0x0C) (o r 0x0B) && decide (fdcDelay v .sentinel r ≤ (mkSched get .sentinel r).frame))),
   onGov get (key10 0x2610 0x18) (fun r => decide (o r 0x18 % 16 < 2 ^ o r 0x10)),
   onGov get (key10 0x2610 0x07) (fun r => o r 0x02 != 0 || o r 0x07 == 0)]

/-! ### Chapter 9 -/

/-- The bits of an opcode's word that the format marks zero (R250, R252), `none` for a reserved opcode. -/
def zeroBits (op : Nat) : Option Nat :=
  if op == 0x00 || op == 0x5C || op == 0x5D || op == 0x45 then some 0xFFFFFF
  else if decide (0x01 ≤ op) && decide (op ≤ 0x14) || op == 0x18 || op == 0x19 then some 0xFFF
  else match op with
    | 0x20 | 0x21 | 0x22 | 0x23 | 0x26 | 0x27 | 0x28 => some 0
    | 0x24 => some 0xF0000
    | 0x25 => some 0xFFE0
    | 0x30 | 0x31 => some 0x7FFF
    | 0x32 | 0x33 => some 0x7E000
    | 0x38 => some 0x1E000
    | 0x39 | 0x3E => some 0x10000
    | 0x3A | 0x3B | 0x3C | 0x3D => some 0x1FFFF
    | 0x40 | 0x42 | 0x43 => some 0x7FEC0
    | 0x41 => some 0xF7FFFF
    | 0x44 => some 0xFFFFF
    | 0x50 => some 0xFFF000
    | 0x51 | 0x52 | 0x53 | 0x54 | 0x55 => some 0xF000
    | 0x56 => some 0xFFFFF
    | 0x58 => some 0
    | 0x59 => some 0xFF
    | 0x60 => some 0xFFFFF
    | 0x61 => some 0x9FFFF
    | _ => none

/-- Whether a word of P is an instruction of R250 to R252. -/
def wordOk (w : Nat) : Bool :=
  if w / 2 ^ 28 == 15 then w % 16 == 0
  else match zeroBits (w / 2 ^ 24) with
    | some m => w &&& m == 0 && !((w / 2 ^ 24 == 0x13 || w / 2 ^ 24 == 0x14) && bit w 20)
    | none => false

/-- Whether an opcode is of the branch class (R253). -/
def branchClass (op : Nat) : Bool :=
  (decide (0x50 ≤ op) && decide (op ≤ 0x56)) || op == 0x58 || op == 0x59 || op == 0x5C || op == 0x5D

/-- Whether a program image meets R253; words beyond it read as HALT. -/
def programOk (b : Bytes) : Bool :=
  let ws := (beWords (b.length / 4) b).map BitVec.toNat
  let op := fun (a : Nat) => (ws.getD (a % 4096) haltWord.toNat) / 2 ^ 24
  (ws.zip (List.range ws.length)).all (fun e =>
    let o := e.1 / 2 ^ 24
    let stop := e.1 / 4096 % 4096
    wordOk e.1
      && !(decide (0x50 ≤ o) && decide (o ≤ 0x56) && (branchClass (op (e.2 + 1)) || branchClass (op (e.2 + 2))))
      && !((o == 0x58 || o == 0x59) && (branchClass (op stop) || branchClass (op (stop + 4095)) || branchClass (op (stop + 4094)))))

/-- The gauge-output positions of a route: first and last. -/
def gaugeSpan (get : CfgRead) (r : Route) : Nat × Nat :=
  let c := mkSched get .sense r
  (c.first, c.first + c.count - 1 - gv10 get 0x2410 0x01 r)

/-- The words of a slot's block (Table 9.9). -/
def blockWords (get : CfgRead) (x : SlotRec) : Nat :=
  let r := routeOf x.route
  let c := mkSched get .sense r
  let nin := gv10 get 0x2610 0x04 r * c.f * c.g
  x.count * (match x.kind with
    | 0 => cdiv (gv10 get 0x2610 0x10 r) 2 + gv10 get 0x2610 0x12 r
    | 1 => cdiv (nin / Nat.max (gv10 get 0x2610 0x03 r) 1) 2
    | _ => nin)

/-- The fields of an enabled slot (Table 9.13, first slot row). -/
def slotOk (v : CfgVal) (core : Nat) (x : SlotRec) : Bool :=
  let get := v.num
  let p := (v.blob (coreIdx core) 0x01).length / 4
  x.reserved == 0 && decide (x.kind ≤ 2) && decide (x.route ≤ 1) && routeEnabled get (routeOf x.route)
    && (!isLoop get || x.route == 0) && decide (x.esrc ≤ 7) && decide (x.emax ≤ 64) && decide (x.omax ≤ 2048)
    && decide (x.vmax ≤ 256) && decide (x.entry < p) && (x.esrc == 0 || decide (x.handler < p))
    && decide (x.wbase + x.wlen ≤ 8192) && decide (8 + blockWords get x ≤ x.wlen) && decide (x.mailbox + 8 ≤ 8192)
    && decide (17 ≤ x.w)

/-- The positions of a raw list. -/
def rawPositions (b : Bytes) : List Nat := (List.range (b.length / 4)).map (fun i => beField b (4 * i) 4)

/-- Whether numbers ascend strictly. -/
def ascending : List Nat → Bool
  | a :: b :: t => decide (a < b) && ascending (b :: t)
  | _ => true

/-- The first slot at which a row over the slots of one core breaks. -/
def slotRow (v : CfgVal) (ok : Nat → Nat → SlotRec → Bool) (sub : Nat) : Broken :=
  ((slotsOf v).find? (fun e => !ok e.1 e.2.1 e.2.2)).map (fun e => (objKey (coreIdx e.1) (sub + e.2.1), 0))

/-- The slots of a core up to a slot. -/
def coreSlots (v : CfgVal) (core upto : Nat) : List SlotRec :=
  ((slotsOf v).filter (fun e => e.1 == core && decide (e.2.1 < upto))).map (fun e => e.2.2)

/-- Rows of Table 9.13. -/
def rulesForager (v : CfgVal) (_ : SchedKind) : List Broken :=
  let get := v.num
  let inside := fun (x : SlotRec) (p : Nat) =>
    let g := gaugeSpan get (routeOf x.route)
    decide (g.1 ≤ p) && decide (p ≤ g.2)
  ((List.range 8).map (fun c => device (objKey (coreIdx c) 0x01) (programOk (v.blob (coreIdx c) 0x01))))
  ++ ((List.range 8).flatMap (fun c => (List.range 4).map (fun k =>
      device (objKey (coreIdx c) (0x10 + k)) (decide (beField (v.blob (coreIdx c) (0x10 + k)) 0 1 ≤ 1)))))
  ++ [slotRow v (fun c _ x => slotOk v c x) 0x10,
    slotRow v (fun _ _ x => x.kind == 2 ||
      ((x.count == 0 || (inside x x.first && inside x (x.first + x.count - 1)))
        && (x.kind != 0 || gv10 get 0x2610 0x10 (routeOf x.route) != 0 || gv10 get 0x2610 0x12 (routeOf x.route) == 1))) 0x10,
    slotRow v (fun c k x => x.kind != 2 ||
      (let l := rawPositions (v.blob (coreIdx c) (0x18 + k))
       l.length == x.count && ascending l && l.all (inside x))) 0x18,
    slotRow v (fun c k x => (coreSlots v c k).all (fun y =>
      decide (y.wbase + y.wlen ≤ x.wbase) || decide (x.wbase + x.wlen ≤ y.wbase))) 0x10,
    slotRow v (fun c k x =>
      let all := coreSlots v c 4
      let tmin := (all.map (fun y => (slotPeriod v y).1)).foldl Nat.min (slotPeriod v x).1
      decide (sumN ((coreSlots v c (k + 1)).map (·.w)) ≤ 720 * tmin / 1000)) 0x10,
    device (objKey 0x2700 0x01) ((slotsOf v).all (fun e => bit (get 0x2700 0x01) e.1))]

/-! ### Chapter 10 -/

/-- The positions that a route's Comb may hold: its own, or its gauge-output positions under kinds 2 and 3. -/
def combSpan (get : CfgRead) (r : Route) : Nat × Nat :=
  let l := endPositions get .sense r
  if decide (2 ≤ get (at10 0x2810 r) 0x01) then gaugeSpan get r else (l.headD 0, l.getLastD 0)

/-- The enabled capture slots. -/
def capSlots (get : CfgRead) : List Nat := (List.range 8).filter (fun k => get (capIdx k) 0x01 == 1)

/-- The route of a capture slot. -/
def capRoute (get : CfgRead) (k : Nat) : Route := routeOf (get (capIdx k) 0x02)

/-- The kind of the Comb that a slot reads. -/
def capKind (get : CfgRead) (k : Nat) : Nat := get (at10 0x2810 (capRoute get k)) 0x01

/-- A row over the enabled capture slots. -/
def capRow (get : CfgRead) (sub : Nat) (ok : Nat → Bool) : Broken :=
  ((capSlots get).find? (fun k => !ok k)).map (fun k => (objKey (capIdx k) sub, 0))

/-- The bytes of the output backlog: the last 64 frames of each stream and route routed to a link; stream 0x09 is held by the
capture areas (R295). -/
def backlogBytes (v : CfgVal) (k : SchedKind) : Nat :=
  let l := (routedStreams v k).filter (fun p => p.stream != 9)
  64 * sumN (((l.map (fun p => (p.stream, p.route))).eraseDups).map (fun e =>
    maxN ((l.filter (fun p => (p.stream, p.route) == e)).map (fun p => p.b + 64))))

/-- The bytes of the Combs and of the tracker records (R203, R272). -/
def combBytes (get : CfgRead) : Nat × Nat :=
  let l := enabledRoutes get
  (sumN (l.map (fun r => if get (at10 0x2810 r) 0x01 == 0 then 0 else get (at10 0x2810 r) 0x04 * 2 ^ 20)),
   sumN (l.map (fun r => let c := mkSched get .sense r; if gv10 get 0x2530 0x01 r == 0 then 0 else 64 * c.count * c.g)))

/-- The row of Table 10.6 that names OD 2840.1A, in the form of R385: on each channel in service its capture areas, half the
Combs, the tracker records and the backlog; and everything within the channels together. -/
def dramFits (v : CfgVal) (k : SchedKind) (res : Resources) : Bool :=
  let get := v.num
  let x := combBytes get
  let rest := x.2 + backlogBytes v k
  let both := decide (2 ≤ res.channels.length)
  let areas := fun (ch : Nat) => sumN (((capSlots get).filter (fun i => !both || i % 2 == ch)).map (captureArea get))
  res.channels.all (fun ch => decide (areas ch + x.1 / 2 + rest ≤ res.usable))
    && decide (sumN ((capSlots get).map (captureArea get)) + x.1 + rest ≤ res.channels.length * res.usable)

/-- Rows of Table 10.6. -/
def rulesCapture (v : CfgVal) (k : SchedKind) (res : Resources) : List Broken :=
  let get := v.num
  let comb := fun r s => get (at10 0x2810 r) s
  let depth := fun i => combDepth get (capRoute get i)
  [onEnds get (key10 0x2810 0x03) (fun r => comb r 0x01 == 0 ||
     (decide ((combSpan get r).1 ≤ comb r 0x02) && decide (comb r 0x02 + comb r 0x03 ≤ (combSpan get r).2 + 1))),
   onEnds get (key10 0x2810 0x01) (fun r => !(isLoop get && r == .b) || decide (comb r 0x01 ≤ 1)),
   onEnds get (key10 0x2810 0x04) (fun r => comb r 0x01 == 0 || decide (2 ≤ combDepth get r)),
   capRow get 0x02 (fun i => capKind get i != 0),
   capRow get 0x08 (fun i =>
     let r := capRoute get i
     decide (comb r 0x02 ≤ get (capIdx i) 0x07) && decide (get (capIdx i) 0x07 + get (capIdx i) 0x08 ≤ comb r 0x02 + comb r 0x03)),
   capRow get 0x0B (fun i => decide (get (capIdx i) 0x0B ≤ 1) || decide (2 ≤ capKind get i)),
   capRow get 0x09 (fun i => decide (windowLines get i ≤ depth i / 2)),
   capRow get 0x0E (fun i =>
     let c := mkSched get k (capRoute get i)
     decide (windowLines get i * get (capIdx i) 0x08 * 2 * combEntry get (capRoute get i) * 1000
       ≤ get (capIdx i) 0x0E * (depth i / 2) * (c.t / c.g))),
   capRow get 0x0F (fun i => !bit (get (capIdx i) 0x03) 6 ||
     (decide (2 ≤ capKind get i) && decide (get (capIdx i) 0x07 ≤ get (capIdx i) 0x0F)
       && decide (get (capIdx i) 0x0F < get (capIdx i) 0x07 + get (capIdx i) 0x08))),
   device (objKey 0x2840 0x1A) (dramFits v k res)]

/-! ### Chapters 11, 13 and 15 -/

/-- The rate of an effort in samples per second (Table 11.9). -/
def effortRate (e : Nat) : Nat := if e ≤ 3 then 2000000000 else 2000000000 / 2 ^ (e - 3)

/-- The samples and periods of the frames of a coded stream (R311). -/
def codedFrames (v : CfgVal) (st : Nat) : List (Nat × Nat) :=
  let get := v.num
  (chainRoutes get).flatMap (fun r =>
    let c := mkSched get .sense r
    let o := at10 0x2610 r
    let n := c.count - get (at10 0x2410 r) 0x01
    if st == strainStream r && get o 0x01 == 1 then
      [(get o 0x04 * c.f * c.g / Nat.max (get o 0x03) 1 * n, get o 0x04 * c.frame)]
    else if st == 3 && get o 0x14 == 1 then [((get o 0x10 + 2 * get o 0x12) * n, get o 0x11 * c.frame)]
    else [])
  ++ (if st == 9 && (capSlots get).any (fun k => get (capIdx k) 0x13 == 1) then [(get 0x2900 0x03 * 62500, 1000000000)] else [])

/-- The share of the codec that a stream takes, in thousandths. -/
def codecShare (v : CfgVal) (st : Nat) : Frac :=
  Frac.sum ((codedFrames v st).map (fun e => frac (e.1 * 1000000000000) (e.2 * effortRate (v.num (streamIdx st) 0x06))))

/-- R311: Pannier on a stream that has none; the sum over the coded streams; one frame in 500 µs. -/
def rulesCodec (v : CfgVal) (_ : SchedKind) : List Broken :=
  let get := v.num
  let on := fun st => get (streamIdx st) 0x05 == 1
  let may := fun (st : Nat) => st == 1 || st == 2 || st == 3 || st == 9
  let coded := [1, 2, 3, 9].filter on
  ((List.range 12).map (fun i => device (objKey (streamIdx (i + 1)) 0x05) (!on (i + 1) || may (i + 1))))
  ++ coded.map (fun st => device (objKey (streamIdx st) 0x05)
      ((Frac.sum ((coded.filter (fun x => decide (x ≤ st))).map (codecShare v))).le 900))
  ++ coded.map (fun st => device (objKey (streamIdx st) 0x05)
      (st == 9 || (codedFrames v st).all (fun e => decide (e.1 * 2000 ≤ effortRate (get (streamIdx st) 0x06)))))

/-- Rows of Table 13.7. -/
def rulesTime (v : CfgVal) (_ : SchedKind) : List Broken :=
  let get := v.num
  let ok := fun (kind : Nat) => (kind != 2 || get 0x1150 0x01 == 1) && (kind != 3 || get 0x1450 0x01 != 0)
  [device (objKey 0x1400 0x03) (get 0x1400 0x02 != get 0x1400 0x03 || get 0x1400 0x02 == 0),
   device (objKey 0x1400 0x02) (ok (get 0x1400 0x02)),
   device (objKey 0x1400 0x03) (ok (get 0x1400 0x03)),
   device (objKey 0x1150 0x02) (get (0x1110 + get 0x1150 0x02) 0x01 == 1),
   device (objKey 0x1400 0x05) (decide (get 0x1400 0x04 ≤ get 0x1400 0x05))]
  ++ (List.range 8).map (fun i => device (objKey (0x1420 + i) 0x04) (get (0x1420 + i) 0x04 % 1000 == 0))

/-- Whether a profile word keeps its layout (Table 15.2). -/
def profileOk (w : Nat) : Bool :=
  let p := profileOf w
  decide (1 ≤ p.k) && decide (p.k ≤ 5) && decide (16 ≤ p.n) && decide (p.n ≤ 262144) && field w 60 56 == 0 && field w 31 19 == 0

/-- Whether a sequence entry keeps its layout (Table 15.3). -/
def entryOk (w : Nat) (injected : Bool) : Bool :=
  field w 14 0 == 0 && decide (field w 26 22 ≤ 16) && (!bit w 21 || (field w 31 27 == 0 && field w 26 22 == 16))
    && (injected || !bit w 15)

/-- Whether the coil chain can convert: 0 < code(-50 °C) < code(+150 °C) < 2^23 (R413). -/
def coilCodesOk (d : Dict) : Bool :=
  let a := coilNum d (-100000)
  let b := coilNum d 300000
  decide (0 < a.m) && a.lt b && b.lt (Dy.ofInt (2 ^ 23 * coilDen d))

/-- Rows of Table 15.7. -/
def rulesHka (d : Dict) : List Broken :=
  let n := fun i j => dictNum d i j
  ((List.range 4).map (fun i => device (objKey 0x1808 (i + 1)) (profileOk (n 0x1808 (i + 1)))))
  ++ ((List.range 32).map (fun i => device (objKey 0x1810 (i + 1)) (entryOk (n 0x1810 (i + 1)) false)))
  ++ ((List.range 32).map (fun i => device (objKey 0x1811 (i + 1)) (entryOk (n 0x1811 (i + 1)) false)))
  ++ ((List.range 4).map (fun i => device (objKey 0x1812 (i + 1)) (entryOk (n 0x1812 (i + 1)) true)))
  ++ [device (objKey 0x1830 0x01) (n 0x1830 0x01 != 1 || (n 0x1840 0x01 != 0 && coilCodesOk d)),
    device (objKey 0x1800 0x02) (n 0x1800 0x01 != 1 || decide (passTime256 d ≤ 256000 * n 0x1800 0x02))]

/-! ### The check -/

/-- The first object that breaks a rule under a schedule. -/
def firstBroken (d : Dict) (k : SchedKind) (res : Resources) : Broken :=
  let v : CfgVal := dictGet d
  (rulesProbe v k ++ rulesCrx v k ++ rulesRayleigh v k ++ rulesLoop v k ++ rulesThermal v k ++ rulesFdc v k ++ rulesForager v k
    ++ rulesCapture v k res ++ rulesCodec v k ++ rulesTime v k ++ rulesHka d).findSome? id

end Sys2Proof.Machine
end

