-- ==== Sys2Proof/Machine/Capture.lean ====
section
/-! DEFINITION. The commands of the capture engine (10_capture.md): Comb lines (R270 to R274), triggers of the host
(R277), the end of a capture (R282), re-arming (R276) and the EVT_OUT pulses (R285). -/

namespace Sys2Proof.Machine

open Sys2Proof

/-! ### Comb lines -/

/-- The launch whose line the Comb of a route writes next: its number, its instant, its route frame and its flags; under
Loop Guard kinds 2 and 3 take the loop instant in hand (R271, R273). -/
structure LineSource where
  seq : Nat
  ns : Nat
  frame : Nat
  flags : Nat

/-- Launches of a route in one route frame. -/
def State.frameLaunches (s : State) (r : Route) : Nat := let c := s.sched r; Nat.max (c.f * c.g) 1

/-- The flags that a launch in hand brings to its route frame: those of its updates so far (R234), LOOP_SINGLE (R181), DEGRADED_MEM (R303),
and UNSETTLED while an output of the chain is within its settling count (R232). -/
def State.handFlags (s : State) (r : Route) (h : Handoff) : Nat :=
  let unset := match (s.route (s.gov r)).fdc.cur with
    | some c => c.list.any (fun e => decide (e.2.outs < c.par.ns1))
    | none => false
  (s.route r).ray.updates.foldl (fun a (e : Nat × Update) => a ||| e.2.flags) h.launch.frameFlags
    ||| (if s.loopSingle then flSingle else 0) ||| (if s.streams.degraded then 2 ^ 12 else 0) ||| b2n unset

/-- The positions of a Comb. -/
def combPositions (get : CfgRead) (r : Route) : List Nat :=
  let o := at10 0x2810 r
  (List.range (get o 0x03)).map (fun i => get o 0x02 + i)

/-- The entry of a position in a line of kind 1: the channels of the launch, or zeros where its bin or update is lost
(Table 10.1). -/
def State.sampleEntry (s : State) (r : Route) (h : Handoff) (c : SliceCfg) (n : Nat) (p : Nat) : List Int :=
  let b := h.bin c p
  let lost := b.mark != .none || (match mapGet (s.route r).ray.updates p with
    | some (.lost ..) => true
    | _ => false)
  let l := b.z.flatMap (fun z => [z.re, z.im])
  if lost then List.replicate n 0 else (l ++ List.replicate n 0).take n

/-- What the update of a position gives the Comb: its phase and its input, none where it is lost. -/
def State.updateEntry (s : State) (r : Route) (p : Nat) : Option (Option (Int × Int)) :=
  if s.loopGuard then
    (mapGet s.loop.emitted p).map (fun e => e.map (fun x => (x.2.1, x.1)))
  else
    (mapGet (s.route r).ray.updates p).map (fun u => match u with
      | .valid d _ _ _ _ _ => ((mapGet (s.route r).ray.recs p).map (fun st => (atI st.vh st.lastg, d)))
      | .lost .. => none)

/-- Where the line in hand comes from, when a launch or a loop instant is in hand. -/
def State.lineSource (s : State) (r : Route) (kind : Nat) : Option LineSource :=
  if s.loopGuard && kind != 1 then
    match s.loopNs with
    | none => none
    | some ns =>
      let fl := [Route.a, Route.b].foldl (fun a q => match s.handoffAt q ns with
        | some h => a ||| s.handFlags q h
        | none => a) 0
      let fg := Nat.max ((((s.routeA.fdc.cur).map (fun c => c.par.fg)).getD 1)) 1
      if s.instantReady ns then some ⟨s.loop.instant, ns, s.loop.instant / fg, fl⟩ else none
  else
    (s.handoff r).map (fun h => ⟨h.launch.seq, h.launch.ns, h.launch.seq / s.frameLaunches r, s.handFlags r h⟩)

/-- The write of a line to the Comb; a discarded line is not written (R274). -/
def State.requestWritten (s : State) (r : Route) (n : Nat) (written : Bool) : State := if written then s.requestLine r n else s

/-- Writes line n of a Comb: the ring keeps `depth` lines, captures in progress read it, data triggers are evaluated
(R272, R279, R282). -/
def State.putLine (s : State) (r : Route) (src : LineSource) (l : CombLine) (vals : Nat → Option Int) : State :=
  let mine := fun (k : Fin 8) => match (s.capture.get k).copying with
    | some c => c.route == r
    | none => false
  let s := (List.finRange 8).foldl (fun (s : State) (k : Fin 8) => if mine k then s.catchUp k else s) s
  let d := s.combDepth r
  let c := (s.route r).comb
  let n := c.next
  let s := s.modComb r (fun c => { c with
    started := true, tC := if c.started then c.tC else src.ns, next := n + 1, lastSeq := some src.seq
    lines := (mapSet c.lines n l).filter (fun (e : Nat × CombLine) => decide (n < e.1 + d))
    quals := (mapSet c.quals src.frame (((mapGet c.quals src.frame).getD 0) ||| src.flags)).filter
      (fun (e : Nat × Nat) => decide (src.frame ≤ e.1 + d)) })
  let s := (s.put (at10 0x2810 r) 0x13 (n + 1)).requestWritten r n l.written
  (List.finRange 8).foldl (fun (s : State) (k : Fin 8) =>
    let i := capIdx k
    let s := if mine k then (s.placeSlot k).catchUp k else s
    if s.num i 0x01 == 1 && s.num i 0x02 == routeNum r && bit (s.num i 0x03) 6 then s.dataTrigger k r n (vals (s.num i 0x0F)) else s) s

/-- Whether a Comb may take the line of a launch in hand: SENSE, a Comb, and a line not yet written for it. -/
def State.combOpen (s : State) (r : Route) (kind : Nat) : Option LineSource :=
  if s.mode != 4 || kind == 0 || (s.loopGuard && r == .b && kind != 1) || s.combDepth r == 0 then none
  else (s.lineSource r kind).filter (fun x => (s.route r).comb.lastSeq != some x.seq)

/-- COMB_LINE_WRITE (R270 to R272): the line of the launch in hand, once its values are known. -/
def doCombLineWrite (r : Route) (s : State) : State :=
  let get := s.read r
  let kind := get (at10 0x2810 r) 0x01
  match s.combOpen r kind with
  | none => s
  | some src =>
    let ps := combPositions get r
    if kind == 1 then
      match s.handoff r with
      | none => s
      | some h =>
        let c := sliceCfg (s.readAt r h.launch.seq) s.kind r
        let used := c.positions.take (c.positions.length - c.gauge)
        if ps.any (fun p => used.contains p && (mapGet (s.route r).ray.updates p).isNone) then s
        else
          s.putLine r src { vals := ps.flatMap (s.sampleEntry r h c (combEntry get r)), written := true, frame := src.frame, bad := false }
            (fun _ => none)
    else
      let es := ps.map (fun p => (p, s.updateEntry r p))
      if es.any (fun e => e.2.isNone) then s
      else
        let es := es.map (fun e => (e.1, e.2.getD none))
        let last := (s.route r).comb.last
        let row := (es.zip (List.range es.length)).map (fun e => match e.1.2 with
          | some x => if kind == 2 then wrapS x.1 16 else sat x.2 16
          | none => if kind == 2 then (mapGet last e.1.1).getD (wrapS (Config.freeValue (s.free + e.2) : Nat) 16) else 0)
        let s := { s with free := s.free + es.length }
        let valid := (es.zip row).filterMap (fun e => if e.1.2.isSome then some (e.1.1, e.2) else none)
        s.putLine r src { vals := row, written := true, frame := src.frame, bad := false } (fun p => (valid.find? (fun e => e.1 == p)).map (·.2))

def execCombLineWrite (r : Route) (s : State) : Out := State.next (doCombLineWrite r s)

/-- COMB_LINE_DISCARD (R274): the line is not written, its place keeps its old content, its number advances. -/
def doCombLineDiscard (r : Route) (s : State) : State :=
  let kind := s.cfg r (at10 0x2810 r) 0x01
  match s.combOpen r kind with
  | none => s
  | some src =>
    let c := (s.route r).comb
    let old := mapGet c.lines (c.next - s.combDepth r)
    let keep : CombLine := match old with
      | some l => if s.combDepth r ≤ c.next then { l with written := false, frame := src.frame } else ⟨[], false, src.frame, false⟩
      | none => ⟨[], false, src.frame, false⟩
    (s.bump (at10 0x2810 r) 0x14 1).putLine r src keep (fun _ => none)

def execCombLineDiscard (r : Route) (s : State) : Out := State.next (doCombLineDiscard r s)

/-! ### Slots -/

/-- A write of 0x01 to OD 28s0.19: the host trigger at the device time of the write (R277). -/
def hostTriggerWrite (k : Fin 8) (s : State) : Reply := ⟨0, s.triggerSlot k 0 s.now16, id⟩

/-- A write of 0x01 to OD 28s0.18 (R276). -/
def reArmWrite (k : Fin 8) (s : State) : Reply :=
  match s.num (capIdx k) 0x20 with
  | 1 => ⟨0, s, id⟩
  | 2 => ⟨1, s, id⟩
  | 3 => ⟨0, (s.setSlot k { s.capture.get k with held := none }).slotState k 1, id⟩
  | _ => ⟨9, s, id⟩

/-- A line that a capture copied from a Comb with an uncorrectable burst: copied as read, the 32 values of the burst open, and GAP is set
(Table 14.3). -/
def Capture.spoilLine (c : Capture) (r : Route) (n off v first m : Nat) : Capture :=
  if c.route != r || decide (n < c.start) || decide (c.next ≤ n) then c
  else { c with
    cflags := c.cflags ||| 8
    lines := (c.lines.zip (List.range c.lines.length)).map (fun e =>
      if c.start + e.2 = n then { e.1 with vals := spoilValues e.1.vals (((off / 2 : Nat) : Int) - ((c.first - first) * m : Nat)) v } else e.1) }

/-- The bursts found in error by the copy of a slot: counted and tested as any (R386), and the owners of the uncorrectable ones suffer their
loss, the lines of this capture among them. -/
def State.copyErrors (s : State) (k : Fin 8) (errors : List BurstError) : State :=
  errors.foldl (fun (s : State) e =>
    let o := s.ownerAt e.ch e.burst
    let s := s.readErrors [e]
    if !e.bad || !s.chServing e.ch then s
    else
      let s := s.ownerLoss e.ch o
      match o, (s.capture.get k).copying with
      | .combLine r n off, some c =>
        let get := s.read r
        s.setSlot k { s.capture.get k with
          copying := some (c.spoilLine r n off s.free (get (at10 0x2810 r) 0x02) (combEntry get r)) }
      | _, _ => s) s

/-- CAPTURE_COMPLETE (R282): the last line of the window has been read; `errors` are the bursts of its lines found in error
(R386). -/
def doCaptureComplete (k : Fin 8) (errors : List BurstError) (s : State) : State :=
  let s := s.catchUp k
  match (s.capture.get k).copying with
  | none => s
  | some c => if !c.placed || decide (c.next ≤ c.tline + c.post) then s else (s.copyErrors k errors).endCapture k false

def execCaptureComplete (k : Fin 8) (errors : List BurstError) (s : State) : Out := State.next (doCaptureComplete k errors s)

/-- EVT_OUT_PULSE_END (R285): the width since the last acceptance has passed. -/
def doEvtOutPulseEnd (n : Fin 2) (s : State) : State :=
  { s with pins := if n.val = 0 then { s.pins with evtOut0 := false } else { s.pins with evtOut1 := false } }

def execEvtOutPulseEnd (n : Fin 2) (s : State) : Out := State.next (doEvtOutPulseEnd n s)

/-- The capture slots at step 9 of bring-up after a warm reset (R287): a held capture whose CRC is valid and whose area has the size and address
that it had comes up STOPPED with RETAINED set; any other is discarded and counted. -/
def State.retainCaptures (s : State) : State :=
  (List.finRange 8).foldl (fun (s : State) (k : Fin 8) =>
    let x := s.capture.get k
    match x.held with
    | none => s
    | some h =>
      let ok := beField h.header 60 4 == crc32c (h.header.take 60 ++ h.data) && s.num (capIdx k) 0x01 == 1
        && captureArea (s.read .a) k == h.area && areaAddr (s.read .a) k == h.addr
      if ok then
        let fl := beField h.header 20 1 ||| 16
        let b := h.header.take 20 ++ [byteOf fl] ++ (h.header.take 60).drop 21
        let h := { h with header := b ++ beBytes 4 (crc32c (b ++ h.data)), retained := true }
        ((s.setSlot k { x with held := some h }).slotState k 3).bump 0x2800 0x10 1
      else (s.setSlot k { x with held := none }).bump 0x2800 0x11 1) s

end Sys2Proof.Machine
end

