-- ==== Sys2Proof/Machine/Ecdsa.lean ====
section
/-! DEFINITION. ECDSA over the curve P-256 with SHA-256, as images and firmware are signed (R336, R339, R340). The manual
names the scheme; the curve and the hash are those of FIPS 186 and FIPS 180 (PRESUMED, assumption log 6). -/

namespace Sys2Proof.Machine

open Sys2Proof

/-- The prime of the field, the order of the group, the coefficient b and the base point of P-256. -/
def p256P : Nat := 2 ^ 256 - 2 ^ 224 + 2 ^ 192 + 2 ^ 96 - 1
def p256N : Nat := 0xFFFFFFFF00000000FFFFFFFFFFFFFFFFBCE6FAADA7179E84F3B9CAC2FC632551
def p256B : Nat := 0x5AC635D8AA3A93E7B3EBBD55769886BC651D06B0CC53B0F63BCE3C3E27D2604B
def p256Gx : Nat := 0x6B17D1F2E12C4247F8BCE6E563A440F277037D812DEB33A0F4A13945D898C296
def p256Gy : Nat := 0x4FE342E2FE1A7F9B8EE7EB4A7C0F9E162BCE33576B315ECECBB6406837BF51F5

/-- x to the power of an exponent of at most `k` bits, modulo m. -/
def powMod (x m : Nat) : Nat → Nat → Nat
  | 0, _ => 1 % m
  | k + 1, e => let y := powMod (x * x % m) m k (e / 2); if e % 2 = 1 then y * x % m else y

/-- The inverse of x modulo a prime. -/
def invMod (x m : Nat) : Nat := powMod (x % m) m 256 (m - 2)

/-- A point of the curve, `none` the point at infinity. -/
abbrev Point := Option (Nat × Nat)

/-- The sum of two points. -/
def pointAdd (a b : Point) : Point :=
  match a, b with
  | none, q => q
  | q, none => q
  | some (x1, y1), some (x2, y2) =>
    if x1 == x2 && (y1 + y2) % p256P == 0 then none
    else
      let l := if x1 == x2 then (3 * x1 * x1 + (p256P - 3)) * invMod (2 * y1) p256P % p256P
        else (y2 + p256P - y1) * invMod (x2 + p256P - x1) p256P % p256P
      let x3 := (l * l + 2 * p256P - x1 - x2) % p256P
      some (x3, (l * (x1 + p256P - x3) + p256P - y1) % p256P)

/-- A multiple of a point by a number of at most `k` bits. -/
def pointMul (q : Point) : Nat → Nat → Point
  | 0, _ => none
  | k + 1, e => let y := pointMul (pointAdd q q) k (e / 2); if e % 2 = 1 then pointAdd y q else y

/-- Whether a pair of numbers is a point of the curve. -/
def onCurve (x y : Nat) : Bool :=
  decide (x < p256P) && decide (y < p256P) && (y * y) % p256P == (x * x * x + (p256P - 3) * x + p256B) % p256P

/-- Whether a signature (r then s) of a message verifies against a public key (x then y). -/
def ecdsaVerify (key msg sig : Bytes) : Bool :=
  let x := beField key 0 32
  let y := beField key 32 32
  let r := beField sig 0 32
  let s := beField sig 32 32
  if !onCurve x y || r == 0 || s == 0 || decide (p256N ≤ r) || decide (p256N ≤ s) || key.length != 64 || sig.length != 64 then false
  else
    let z := beNat (sha256 msg)
    let w := invMod s p256N
    match pointAdd (pointMul (some (p256Gx, p256Gy)) 256 (z * w % p256N)) (pointMul (some (x, y)) 256 (r * w % p256N)) with
    | none => false
    | some q => q.1 % p256N == r

end Sys2Proof.Machine
end

