-- ==== Sys2Proof/Machine/Images.lean ====
section
/-! DEFINITION. The values of the dictionary on the wire (R312, Table 12.1) and the configuration image (R336, R339, Table
12.6), with the firmware image in the same scheme (R340). -/

namespace Sys2Proof.Machine

open Sys2Proof

/-! ### Values on the wire -/

/-- The bytes of a value of a type, most significant first (R5). -/
def wireBytes (ty : Ty) (v : Val) : Bytes :=
  match ty.width with
  | some n => if ty.isBlob then v.toBytes else beBytes n v.toNat
  | none => v.toBytes

/-- The value of a type in its bytes. -/
def ofWire (ty : Ty) (b : Bytes) : Val := if ty.isBlob then .blob b else .num (beNat b)

/-- Whether a length is that of the type: STR and DOMAIN take any, within their range. -/
def lengthOk (ty : Ty) (n : Nat) : Bool :=
  match ty.width with
  | some w => w == n
  | none => true

/-- The greatest value that a table's range gives an F32 object tests by value: from the lower bound to the upper (R489). -/
def f32In (lo hi n : Nat) : Bool := f32Finite n && f32Le lo n && f32Le n hi

/-- Whether a value lies in the range of its object (R313 step 6, R489). -/
def inRange (o : ObjRow) (v : Val) : Bool :=
  let x : Int := match o.ty.width with
    | some w => if o.ty.signed then toSigned v.toNat (8 * w) else (v.toNat : Int)
    | none => 0
  let len := v.toBytes.length
  let isBool := if o.ty == .bool then decide (v.toNat ≤ 1) else true
  let fin := if o.ty == .f32 then f32Finite v.toNat else true
  isBool && fin && (match o.rng with
    | .any => true
    | .span lo hi => decide (lo ≤ x) && decide (x ≤ hi)
    | .zeroOr lo hi => x == 0 || (decide (lo ≤ x) && decide (x ≤ hi))
    | .spanOr lo hi other => x == other || (decide (lo ≤ x) && decide (x ≤ hi))
    | .step m lo hi => decide (lo ≤ x) && decide (x ≤ hi) && x % m == 0
    | .zeroOrStep m hi => decide (0 ≤ x) && decide (x ≤ hi) && x % m == 0
    | .oneOf l => l.contains x
    | .mask m => v.toNat &&& m == v.toNat
    | .nonzero => x != 0
    | .f32 lo hi => f32In lo hi v.toNat
    | .f32Any => f32Finite v.toNat
    | .len lo hi step => decide (lo ≤ len) && decide (len ≤ hi) && len % Nat.max step 1 == 0
    | .zeroOrLen lo hi => len == 0 || (decide (lo ≤ len) && decide (len ≤ hi)))

/-! ### The configuration image (Table 12.6) -/

/-- Inserts a pair by its number. -/
def insertKey {α : Type} (e : Nat × α) : List (Nat × α) → List (Nat × α)
  | [] => [e]
  | x :: t => if e.1 < x.1 then e :: x :: t else x :: insertKey e t

/-- Every index of the dictionary with its rows, ascending. -/
def allIndices : List (Nat × List ObjRow) :=
  (objGroups.flatMap (fun g => (List.range g.count).map (fun i => (g.base + i * g.stride, g.rows)))).foldr insertKey []

/-- Every object that carries S, ascending index then sub-index. -/
def draftObjects : List (Nat × Ty) :=
  allIndices.flatMap (fun e => (e.2.filter (·.draft)).flatMap (fun o =>
    (List.range (o.hi + 1 - o.lo)).map (fun i => (objKey e.1 (o.lo + i), o.ty))))

/-- A value padded with zero to a multiple of 4. -/
def pad4 (b : Bytes) : Bytes := b ++ List.replicate (4 * cdiv b.length 4 - b.length) 0

/-- The record of an object. -/
def imageRecord (values : Dict) (e : Nat × Ty) : Bytes :=
  let b := wireBytes e.2 (dictGet values e.1)
  beBytes 2 (e.1 / 256) ++ [byteOf (e.1 % 256), byteOf e.2.code] ++ beBytes 4 b.length ++ pad4 b

/-- MAGIC of Table 12.6. -/
def imageMagic : Nat := 0x44434647

/-- The bytes of an image. -/
def imageBytes (m : Image) : Bytes :=
  let recs := draftObjects.flatMap (imageRecord m.values)
  let head := beBytes 4 imageMagic ++ [1, 1, byteOf (b2n m.signed), 0] ++ beBytes 4 m.seq ++ beBytes 4 (128 + recs.length + 4)
    ++ beBytes 4 draftObjects.length ++ List.replicate 44 0
  let all := head ++ (if m.signed then m.sig else List.replicate 64 0) ++ recs
  all ++ beBytes 4 (crc32c all)

/-- Reads the records of an image: `none` for a malformed one. `fuel` bounds their number. -/
def parseRecords : Nat → Nat → Bytes → Option (List (Nat × Val))
  | 0, n, b => if n == 0 && b.isEmpty then some [] else none
  | fuel + 1, n, b =>
    if n == 0 then (if b.isEmpty then some [] else none)
    else
      let key := objKey (beField b 0 2) (beField b 2 1)
      let len := beField b 4 4
      if b.length < 8 + 4 * cdiv len 4 then none
      else match rowOf key with
        | some o =>
          let body := slice b 8 len
          let v := ofWire o.ty body
          let pad := slice b (8 + len) (4 * cdiv len 4 - len)
          if !o.draft || o.ty.code != beField b 3 1 || !lengthOk o.ty len || !inRange o v || pad.any (fun x => x != 0) then none
          else (parseRecords fuel (n - 1) (b.drop (8 + 4 * cdiv len 4))).map (fun l => (key, v) :: l)
        | none => none

/-- Whether keys rise strictly. -/
def keysRise : List (Nat × Val) → Bool
  | a :: b :: t => decide (a.1 < b.1) && keysRise (b :: t)
  | _ => true

/-- Whether the frame of an image is well formed: MAGIC, FORMAT, zero fields, LENGTH and CRC. -/
def imageFrameOk (b : Bytes) : Bool :=
  decide (132 ≤ b.length) && beField b 0 4 == imageMagic && beField b 4 1 == 1 && decide (beField b 6 1 ≤ 1)
    && beField b 7 1 == 0 && beField b 12 4 == b.length && (slice b 20 44).all (fun x => x == 0)
    && beField b (b.length - 4) 4 == crc32c (b.take (b.length - 4))

/-- The records of a whole image. -/
def imageRecords (b : Bytes) : Option (List (Nat × Val)) :=
  match parseRecords b.length (beField b 16 4) (slice b 128 (b.length - 132)) with
  | some l => if keysRise l then some l else none
  | none => none

/-- What an image's signature covers: bytes 0 to 63 and the records. -/
def signedPart (b : Bytes) : Bytes := b.take 64 ++ slice b 128 (b.length - 132)

/-- The outcome of an import (R339): a status of Table 12.4, and the draft values. -/
def importImage (key b : Bytes) : Nat × Dict :=
  if !imageFrameOk b then (6, [])
  else match imageRecords b with
    | none => (6, [])
    | some l =>
      if beField b 5 1 != 1 then (3, [])
      else if !key.isEmpty && !(beField b 6 1 == 1 && ecdsaVerify key (signedPart b) (slice b 64 64)) then (11, [])
      else (0, l.foldl (fun d e => dictSet d e.1 e.2) [])

/-! ### Firmware (R340) -/

/-- A firmware image in the scheme of Table 12.6, with the version in place of COUNT (PRESUMED): the outcome, and the slot's
content. -/
def parseFirmware (key : Bytes) (min : Nat) (b : Bytes) : Nat × Firmware :=
  let f : Firmware := { version := beField b 16 4, seq := beField b 8 4, valid := true, fails := 0, bytes := b }
  if b.length < 132 || beField b 12 4 != b.length || beField b (b.length - 4) 4 != crc32c (b.take (b.length - 4)) then (6, f)
  else if !ecdsaVerify key (signedPart b) (slice b 64 64) then (11, f)
  else if f.version < min then (3, f)
  else (0, f)

end Sys2Proof.Machine
end

