-- ==== Sys2Proof/Machine/Reads.lean ====
section
/-! DEFINITION. What a read of an object answers: the value in force, or what the block computes as the object is read.
Each clause follows the object table of its chapter. -/

namespace Sys2Proof.Machine

open Sys2Proof

/-- The newest stored image with its sequence (OD 1200.04, OD 1200.10). -/
def Control.newest (c : Control) : Option Image :=
  match c.slotA, c.slotB with
  | some a, some b => if newer b.seq a.seq then some b else some a
  | some a, none => some a
  | none, b => b

/-- The sequence of a slot, 0xFFFF_FFFF where it holds no valid image. -/
def slotSeq : Option Image → Nat
  | some m => m.seq
  | none => 0xFFFFFFFF

/-- OD 1130.11: the empty keys. -/
def Control.emptyKeys (c : Control) : Nat := b2n c.keyE.isEmpty * 4 + b2n c.keyP.isEmpty * 2 + b2n c.keyO.isEmpty

/-- The firmware slot that runs. -/
def Control.firmware (c : Control) : Firmware := if c.fwRunning then c.fwB else c.fwA

/-- The code of a Keeper's state in OD 1700.61. -/
def KeeperState.code : KeeperState → Nat
  | .active => 0
  | .standby => 1
  | .stopped => 2
  | .retired => 3

/-- OD 1700.61: the holder, Keeper B, Keeper A. -/
def Arbiter.report (a : Arbiter) : Nat := b2n (a.holder == some .b) * 16 + a.stateB.code * 4 + a.stateA.code

/-- A word memory of 8,192 words in its bytes. -/
def memBytes (m : WordMem) : Bytes := (List.range 8192).flatMap (fun i => beBytes 4 ((mapGet m i).getD 0).toNat)

/-- The strain of one turn in nε, λ / (ξ × c × g × pitch × t_bin), as an exact value over a divisor (R157). -/
def strainPerTurn (get : CfgRead) (r : Route) : Nat :=
  let q := govRead get r
  let c := mkSched get .sense q
  let o := at10 0x2410 q
  let lam := ofF32 (get o 0x0E)
  let xi := ofF32 (get o 0x0F)
  -- nm × 10^-9 over metres × 10^9 ns/s gives nε with a factor 10^9
  let d := xi.mul (Dy.ofInt ((299792458 * get o 0x01 * c.sensePitch * c.tbin : Nat) : Int))
  let e := lam.e - d.e
  let a := lam.m * 10 ^ 9
  if d.m ≤ 0 then 0
  else if 0 ≤ e then toF32 (a * 2 ^ e.toNat) d.m.toNat else toF32 a (d.m.toNat * 2 ^ (-e).toNat)

/-- The value of one LSB of a strain output (R223). -/
def outputLsb (v : CfgVal) (r : Route) : Nat :=
  let get := v.num
  let q := govRead get r
  let p := mkFdcParams v .sense q
  let x := ofF32 (strainPerTurn get q)
  let num := x.m * (if p.kind = 0 then 10 ^ 9 else 1)
  let den := p.ms * (if p.kind = 0 then p.tin else 1)
  let e := x.e + (p.ss : Int) - 17
  if den = 0 then 0
  else if 0 ≤ e then toF32 (num * 2 ^ e.toNat) den else toF32 num (den * 2 ^ (-e).toNat)

/-- Identity, communication and images (Tables 12.7, 12.10). -/
def State.readControl (s : State) (idx sub : Nat) : Val :=
  let c := s.control
  match idx, sub with
  | 0x1000, 0x03 => .blob Config.serialNumber
  | 0x1000, 0x04 => .num c.firmware.version
  | 0x1110, 0x12 => .num (Config.macAddress 0 % 2 ^ 48)
  | 0x1111, 0x12 => .num (Config.macAddress 1 % 2 ^ 48)
  | 0x1120, 0x12 => .num (Config.macAddress 2 % 2 ^ 48)
  | 0x1121, 0x12 => .num (Config.macAddress 3 % 2 ^ 48)
  | 0x1130, 0x11 => .num c.emptyKeys
  | 0x1130, 0x20 => .num c.sessions.length
  | 0x1200, 0x04 => .num (slotSeq c.newest)
  | 0x1200, 0x10 => .blob (match c.newest with | some m => imageBytes m | none => [])
  | 0x1200, 0x12 => .num (slotSeq c.slotA)
  | 0x1200, 0x13 => .num (slotSeq c.slotB)
  | 0x1200, 0x14 => .blob c.signKey
  | 0x1210, 0x01 => .num (b2n c.fwRunning)
  | 0x1210, 0x05 => .num Config.minFirmware
  | _, _ => s.val (objKey idx sub)

/-- Power, time, memory and integrity (chapters 13 to 17). -/
def State.readUnits (s : State) (idx sub : Nat) : Val :=
  match idx, sub with
  | 0x1300, 0x13 => .num s.power.rtcSec
  | 0x1400, 0x22 => .blob (time80 s.now16)
  | 0x1400, 0x27 => .num s.holdover
  | 0x1600, 0x11 => .num (2 ^ s.geo 2 * 1024 * 62 / 64 - 64)
  | 0x1700, 0x60 => .num s.arbiter.epoch
  | 0x1700, 0x61 => .num s.arbiter.report
  | 0x1800, 0x14 => .num (passTime256 (chapter15 s.od) / 256)
  | 0x1830, 0x15 => .num (ofSigned (coilXlo s.od (coilShift s.od)) 32)
  | 0x1830, 0x16 => .num (coilShift s.od)
  | 0x1850, 0x12 => .blob s.hkaCorrections
  | 0x5000, 0x10 => .blob (s.streams.log.flatMap eventBytes)
  | _, _ =>
    if idx == 0x1700 && decide (0x40 ≤ sub) && decide (sub ≤ 0x4E) then .num (Config.bistCount (sub - 0x40) % 2 ^ 32)
    else s.val (objKey idx sub)

/-- The objects of a route (chapters 4 to 8 and 10). -/
def State.readRoute (s : State) (r : Route) (base sub : Nat) (dflt : Val) : Val :=
  let get : CfgRead := fun i j => s.num i j
  let crx := (s.route r).crx
  match base, sub with
  | 0x2190, 0x12 => .num (Nat.min (2 ^ 32 - 1) ((s.cyc - crx.lastRunNs) / 1000000))
  | 0x2190, 0x13 => .num (setBit dflt.toNat 3 (crx.run && !s.windowsOn r))
  | 0x2190, 0x24 => .num (ofSigned (setAt crx.sets (s.range r) 0).skew 16)
  | 0x2190, 0x25 => .num (ofSigned (setAt crx.sets (s.range r) 1).skew 16)
  | 0x2190, 0x30 => .blob ((eightSets crx.sets).flatMap setBytes)
  | 0x2410, 0x10 => .num (compressShift (reference get .sense r 0 (((mkSched get .sense r).slots .sense 0).headD 0)))
  | 0x2410, 0x11 => .num (reference get .sense r 0 (((mkSched get .sense r).slots .sense 0).headD 0)).length
  | 0x2410, 0x1A => .num (strainPerTurn get r)
  | 0x2510, 0x30 => .blob (s.attenProfile r)
  | 0x2530, 0x17 => .num (kappaQ get r)
  | 0x2550, 0x10 => .num (s.fusedPoints r)
  | 0x2610, 0x40 => .num (fdcDelay s.val .sense r)
  | 0x2610, 0x41 => .num (outputLsb s.val r)
  | 0x2810, 0x10 => .num (combLineBytes get r)
  | 0x2810, 0x11 => .num (s.combDepth r)
  | 0x2810, 0x12 => .num (s.combDepth r * linePeriod get r)
  | _, _ => dflt

/-- The usable position-state pool (R70, R389): the retired rows of Hive, store 0, are outside it. -/
def State.pool (s : State) : Nat := 33554432 - 2048 * (s.rows.retired.filter (fun e => e.1 == 0)).length

/-- What a read of an object answers. OD 2000.0A is formed at the read, so a row retirement shows in it at once: whether it
waits for the next attempt with the figures of R76 and R78 is open (DESIGN CHOICE, assumption log 18). -/
def State.readObj (s : State) (idx sub : Nat) : Val :=
  let v := s.val (objKey idx sub)
  if idx == 0x2000 then
    match sub with
    | 0x01 => .num (setBit v.toNat 30 (continuity (fun i j => s.num i j)))
    | 0x02 => .num (deliveryBound s.val .sense)
    | 0x22 => .num (deliveryBound s.val .sentinel)
    | 0x23 => .num (deliveryBound s.val .survey)
    | 0x0A => .num s.pool
    | _ => v
  else if idx == 0x2030 && sub == 0x10 then .num (safeOutputBits s.pins)
  else if idx == 0x2400 && sub == 0x10 then .blob (chanTaps.flatMap (beInt 4))
  else if idx == 0x2A30 && sub == 0x03 then .num (loopA (fun i j => s.num i j))
  else if idx == 0x2A30 && sub == 0x04 then .num (loopP (fun i j => s.num i j))
  else if idx == 0x2190 || idx == 0x2290 then s.readRoute (if idx == 0x2190 then .a else .b) 0x2190 sub v
  else if [0x2410, 0x2510, 0x2530, 0x2550, 0x2610, 0x2810].contains idx then s.readRoute .a idx sub v
  else if [0x2420, 0x2520, 0x2540, 0x2560, 0x2620, 0x2820].contains idx then s.readRoute .b (idx - 0x10) sub v
  else if decide (0x2710 ≤ idx) && decide (idx ≤ 0x2780) && idx % 16 == 0 && (sub == 0x30 || sub == 0x31) then
    let c := s.cores.get (Fin.ofNat 8 ((idx - 0x2710) / 16))
    .blob (memBytes (if sub == 0x30 then c.xSnap else c.ySnap))
  else if decide (0x2840 ≤ idx) && decide (idx ≤ 0x28B0) && idx % 16 == 0 && (sub == 0x1A || sub == 0x30 || sub == 0x31) then
    let k := (idx - 0x2840) / 16
    if sub == 0x1A then .num (captureArea (fun i j => s.num i j) k)
    else match (s.capture.get (Fin.ofNat 8 k)).held with
      | some h => .blob (if sub == 0x30 then h.header else h.data)
      | none => .blob []
  else if idx < 0x1300 then s.readControl idx sub
  else if idx < 0x2000 || idx == 0x5000 then s.readUnits idx sub
  else v

end Sys2Proof.Machine
end

