-- ==== Sys2Proof/Machine/Admission.lean ====
section
/-! DEFINITION. Admission (R65 to R78): the checks of Table 2.3 in the order of their codes, each over every schedule held,
the figures of the last attempt, OD 2000.01 and the commands that ask for and end an admission (R60, R61, R337). -/

namespace Sys2Proof.Machine

open Sys2Proof

/-! ### The resources present (R78) -/

/-- The payload limit of a link in bit/s: 0 when it is disabled, DOWN or FAILED (R72, R299). -/
def dxLimit (s : State) (get : CfgRead) (l : Fin 2) : Nat :=
  let i := 0x1120 + l.val
  if get i 0x01 = 0 || s.linkState l == 0 || s.linkState l == 3 then 0
  else if get i 0x02 = 0 then 23000000000 else 9200000000

/-- The channels fitted and not retired. -/
def State.channelsPresent (s : State) : List Nat :=
  ([0, 1] : List (Fin 2)).filterMap (fun ch => if bit (s.geo 0) ch.val && s.chState ch != 4 then some ch.val else none)

/-- What a configuration is judged on (R78, R392). -/
def State.resources (s : State) (get : CfgRead) : Resources :=
  { usable := (2 ^ s.geo 2 * 1024 * 62 / 64 - 64) * 1048576
    channels := s.channelsPresent
    peak := (match s.geo 1 with | 0 => 4266 | 1 => 3733 | _ => 3200) * 4000000
    pool := s.pool
    links := [dxLimit s get 0, dxLimit s get 1]
    retired := (List.finRange 8).map (fun c => (s.cores.get c).retired) }

/-! ### The checks -/

/-- INSTANCE of Table 2.5. -/
def SchedKind.code : SchedKind → Nat
  | .sense => 0
  | .sentinel => 1
  | .survey => 2

/-- A failure: the check, the fields of Table 2.5 and the object that breaks a rule. -/
structure Failure where
  check : Nat
  inst : Nat
  route : Nat
  unit : Nat
  key : Nat
  deriving DecidableEq, Repr

/-- One step of admission: the figures it reaches and its failure, if it fails. -/
structure Check where
  figs : List (Nat × Nat)
  fail : Option Failure

/-- A check that fails unless a condition holds. -/
def check (code : Nat) (k : SchedKind) (route unit : Nat) (ok : Bool) (figs : List (Nat × Nat) := []) : Check :=
  ⟨figs, if ok then none else some ⟨code, k.code, route, unit, 0⟩⟩

/-- The figures computed before any check (R67): those of OD 2110.10 to 2110.13 and 2110.15, per enabled route. They
describe the SENSE schedule, also where the image holds the survey schedule alone, which R76 does not settle
(DESIGN CHOICE, assumption log 18). -/
def scheduleFigures (get : CfgRead) : List (Nat × Nat) :=
  (enabledRoutes get).flatMap (fun r =>
    let c := mkSched get .sense r
    let o := at100 0x2110 r
    [(objKey o 0x10, c.t), (objKey o 0x11, c.tmin), (objKey o 0x12, c.frame),
      (objKey o 0x13, c.g * 10 ^ 12 / Nat.max c.t 1), (objKey o 0x15, c.f * c.g)])

/-- ROUTE_PARAM of one schedule (R47, R75). -/
def checkRoutes (get : CfgRead) (k : SchedKind) : List Check :=
  (if isLoop get then [check 1 k 1 0 (routeEnabled get .a)] else [])
  ++ (enabledRoutes get).map (fun r =>
    let c := mkSched get k r
    check 1 k (routeNum r + 1) 0
      (decide ((c.first + (c.count - 1) * c.step) * c.sensePitch ≤ c.reach) && (k != .sentinel || decide (c.pitch ≤ 25))))

/-- CONSISTENCY of one schedule (R490). -/
def checkRules (d : Dict) (res : Resources) (k : SchedKind) : Check :=
  match firstBroken d k res with
  | none => ⟨[], none⟩
  | some b => ⟨[(objKey 0x2000 0x07, b.1)], some ⟨2, k.code, b.2, 0, b.1⟩⟩

/-- ENGINE_LOAD of one schedule (R68); OD 2110.14 reports that of the first schedule held. -/
def checkEngines (get : CfgRead) (k : SchedKind) : List Check :=
  (enabledRoutes get).map (fun r =>
    let c := mkSched get k r
    let l := engineLoad get k r
    let fig := l.1 / 10 * 10 ^ 9 / Nat.max c.t 1
    check 5 k (routeNum r + 1) 0 (decide (l.1 ≤ l.2))
      (if (heldSchedules get).head? == some k then [(objKey (at100 0x2110 r) 0x14, fig)] else []))

/-- SLICE_LOAD of one schedule (R69). -/
def checkSlices (get : CfgRead) (k : SchedKind) : List Check :=
  (List.range 16).map (fun i =>
    let l := sliceLoad get k i
    check 6 k 0 i (decide (l ≤ 720000000)) [(objKey 0x2000 0x08, l)])

/-- DRAM_BW of one schedule (R71). -/
def checkDram (v : CfgVal) (res : Resources) (k : SchedKind) : Check :=
  let g := dramGuaranteed v k
  let total := g.add ⟨captureCopy v.num k, 1⟩
  check 8 k 0 0
    (Frac.le ⟨10 * g.num, g.den⟩ (7 * res.peak) && Frac.le ⟨10 * total.num, total.den⟩ (7 * res.peak * res.channels.length))
    [(objKey 0x2000 0x0B, g.up 1000000), (objKey 0x2000 0x0C, total.up 1000000)]

/-- DX_PAYLOAD of one schedule (R72). -/
def checkLinks (v : CfgVal) (res : Resources) (k : SchedKind) : List Check :=
  [0, 1].map (fun l =>
    let x := dxRate v k l
    check 9 k 0 l (x.le (res.links.getD l 0)) [(objKey 0x2000 (0x0D + l), x.up 1000000)])

/-- FORAGER of one schedule (R73); a slot enabled on a retired core fails (R451). -/
def checkCores (v : CfgVal) (res : Resources) (k : SchedKind) : List Check :=
  (List.range 8).map (fun c =>
    let l := foragerLoad v k c
    let dead := res.retired.getD c false && (slotsOf v).any (fun e => e.1 == c)
    check 10 k 0 c (decide (l ≤ 720000000) && !dead) [(objKey 0x2000 (0x10 + c), l)])

/-- The checks of Table 2.3 in their order, each over every schedule held (R67). -/
def admissionSteps (d : Dict) (res : Resources) : List Check :=
  let v : CfgVal := dictGet d
  let get := v.num
  let held := heldSchedules get
  let first := held.headD .sense
  ⟨scheduleFigures get, none⟩
  :: (held.flatMap (checkRoutes get)
  ++ held.map (checkRules d res)
  ++ [check 3 first 0 0 (!isLoop get || get 0x2A30 0x02 == 0 || get 0x2A30 0x01 != 0)]
  ++ (enabledRoutes get).map (fun r => check 4 first (routeNum r + 1) 0 (!(mkSched get .sense r).badT))
  ++ held.flatMap (checkEngines get)
  ++ held.flatMap (checkSlices get)
  ++ held.map (fun k => let b := sramBytes get k
                        check 7 k 0 0 (decide (b ≤ res.pool)) [(objKey 0x2000 0x09, b)])
  ++ held.map (checkDram v res)
  ++ held.flatMap (checkLinks v res)
  ++ held.flatMap (checkCores v res)
  ++ held.map (fun k => let b := deliveryBound v k
                        check 11 k 0 0 (decide (b ≤ 4294967295) && (get 0x2000 0x06 == 0 || decide (b ≤ get 0x2000 0x06))))
  ++ held.map (fun k => check 12 k 0 0 (get 0x2000 0x04 == 0 || continuityOf get k)))

/-- Runs the steps up to the first failure: the figures reached and the failure. R76 does not say of which held schedule OD 2000.08, .09, .0B
to .0E and .10 to .17 report: each is the largest over the schedules reached (DESIGN CHOICE, assumption log 18). -/
def runChecks : List Check → List (Nat × Nat) → List (Nat × Nat) × Option Failure
  | [], figs => (figs, none)
  | c :: rest, figs =>
    let figs := c.figs.foldl (fun (m : List (Nat × Nat)) e => mapSet m e.1 (Nat.max ((mapGet m e.1).getD 0) e.2)) figs
    match c.fail with
    | some f => (figs, some f)
    | none => runChecks rest figs

/-- Admission of a configuration against the resources present. -/
def State.admitRun (s : State) (values : Dict) : List (Nat × Nat) × Option Failure :=
  runChecks (admissionSteps values (s.resources (fun i j => dictNum values i j))) []

/-! ### The outcome -/

/-- The figure objects (Tables 2.1, 2.6). -/
def figureKeys : List Nat :=
  [0x2110, 0x2210].flatMap (fun i => keysOf i 0x10 0x15) ++ keysOf 0x2000 0x07 0x09 ++ keysOf 0x2000 0x0B 0x0E
    ++ keysOf 0x2000 0x10 0x17

/-- OD 2000.01 of an attempt (Table 2.5); CONT is formed as the object is read. -/
def resultWord (f : Option Failure) (trial : Bool) (attempt : Nat) : Nat :=
  match f with
  | none => 2 ^ 31 + b2n trial * 2 ^ 29 + attempt
  | some x => b2n trial * 2 ^ 29 + x.check * 2 ^ 16 + x.inst * 2 ^ 14 + x.route * 2 ^ 12 + x.unit * 2 ^ 8 + attempt

/-- Reports an attempt: the figures it reached, 0 for the others, and OD 2000.01 (R76). -/
def State.reportAttempt (s : State) (figs : List (Nat × Nat)) (f : Option Failure) (trial counted : Bool) : State :=
  let n := if counted then (s.num 0x2000 0x01 + 1) % 256 else s.num 0x2000 0x01 % 256
  let s := figureKeys.foldl (fun (s : State) k => s.setVal k (.num (Nat.min ((mapGet figs k).getD 0) (2 ^ 32 - 1)))) s
  s.put 0x2000 0x01 (resultWord f trial n)

/-- The configuration enters force at once in the modes where no route launches, and otherwise at the frame boundaries of R60; with no
route enabled there is no boundary to wait for (assumption log 16). -/
def State.takeOrWait (s : State) : State := if s.hasBoundaries .a || s.hasBoundaries .b then s else s.takeAll.finishIfQuiet

/-- The image write begins, into the slot that does not hold the configuration in force (R336). -/
def State.beginImageWrite (s : State) (values : Dict) (seq : Nat) : State :=
  let m : Image := { seq := seq, values := values, signed := false, sig := List.replicate 64 0 }
  let slot := match s.control.inForceSlot with | some b => !b | none => false
  let c := s.control
  let c := if slot then { c with slotB := none } else { c with slotA := none }
  ({ s with control := { c with writing := some (slot, m) } }).put 0x1200 0x05 1

/-- A commit is admitted (R334, R336): it is pending with the sequence N + 1, its image write begins, and the converters
take it 2 ms later (R408). -/
def State.pendCommit (s : State) (values : Dict) : State :=
  let seq := (s.num 0x1200 0x03 + 1) % 2 ^ 32
  let c := { s.control with
    pending := some { values := values, seq := seq, notBefore := s.cyc + 2000000, waitA := true, waitB := true } }
  (({ s with control := c }).reportDraft.beginImageWrite values seq).commitHka values

/-- A stored image is passed over at bring-up, with its record (R337). -/
def State.passedOver (s : State) : State := s.issueOpen 0x3B 0x27 0

/-- The configuration that bring-up starts with takes effect as a whole, with its sequence (R337). -/
def State.bootWith (s : State) (slot : Option Bool) (values : Dict) : State :=
  let seq := match slot with
    | some b => slotSeq (if b then s.control.slotB else s.control.slotA)
    | none => 0
  let s := { s with control := { s.control with inForceSlot := slot } }
  s.finishConfig { values := values, seq := seq, notBefore := 0, waitA := false, waitB := false }

end Sys2Proof.Machine
end

