-- ==== Sys2Proof/Machine/Memory.lean ====
section
/-! DEFINITION. DRAM and on-chip memory (14_memory.md): refresh and the hot state (R377 to R380), neighbour refresh
(R381), training and retirement (R382 to R385), patrol scrub and the owners of uncorrectable data (R386, R387), and the
scrub and sparing of the on-chip stores (R390). -/

namespace Sys2Proof.Machine

open Sys2Proof

/-- The postponed refreshes a channel may owe (R378). -/
def debtLimit (hot : Bool) : Nat := if hot then 4 else 8

/-! ### Refresh (R377 to R381) -/

/-- REFRESH_DUE (R379): postponed while requests of class 1 or 2 wait for the rank, until the debt reaches its limit, and issued otherwise. -/
def doRefreshDue (ch : Fin 2) (rank : Fin 2) (s : State) : State :=
  let d := s.dram.get ch
  let n := d.debt.get rank
  if !s.chServing ch || decide (s.ranks ≤ rank.val) then s
  else if d.waits rank (fun c => c == 1 || c == 2) && decide (n < debtLimit d.hot) then
    (s.modDram ch (fun d => { d with debt := d.debt.set rank (n + 1) })).reportDebt ch
  else s.issueRefresh ch rank 1

def execRefreshDue (ch : Fin 2) (rank : Fin 2) (_ : Unit) (s : State) : Out := State.next (doRefreshDue ch rank s)

/-- The flush of a rank that becomes hot with a debt above 4 (R380). -/
def State.hotFlush (s : State) (ch : Fin 2) (rank : Fin 2) : State :=
  let n := (s.dram.get ch).debt.get rank
  if n ≤ 4 then s
  else ((s.issueRefresh ch rank n).modDram ch (fun d => { d with debt := d.debt.set rank 0 })).bump (chIdx ch) 0x14 1

/-! ### Retirement (R384, R286) -/

/-- The decision to retire a channel: SAFE when it is the only one in service, else the backlog is copied first (R384). -/
def State.decideRetire (s : State) (ch : Fin 2) : State :=
  let o := otherCh ch
  if !s.chServing ch || (s.dram.get ch).retiring then s
  else if s.chServing o && !(s.dram.get o).retiring then
    s.modDram ch (fun d => { d with retiring := true, copied := false })
  else s.enterSafe [7]

/-- BACKLOG_COPY_COMPLETE (R384): every burst of the copy is read with correction; a frame with an uncorrectable one is lost, and the error is
counted, recorded and tested as any (R386). -/
def doBacklogCopyComplete (errors : List (Nat × BurstError)) (s : State) : State :=
  if !(s.dram.get 0).retiring && !(s.dram.get 1).retiring then s
  else
    let s := s.readErrors (errors.map (·.2))
    let s := errors.foldl (fun (s : State) e => if e.2.bad then s.loseFrame e.1 else s) s
    let mark := fun (s : State) (ch : Fin 2) => s.modDram ch (fun d => { d with copied := d.retiring })
    let s := mark (mark s 0) 1
    if s.noLaunch then s.retireDue else s

def execBacklogCopyComplete (errors : List (Nat × BurstError)) (s : State) : Out := State.next (doBacklogCopyComplete errors s)

/-- MR4_READ (R378, R380, R384): the worse rank's code. -/
def doMr4Read (ch : Fin 2) (code0 code1 : Fin 8) (s : State) : State :=
  if !s.chServing ch then s
  else
    let code := if s.ranks ≤ 1 then code0.val else Nat.max code0.val code1.val
    let d := s.dram.get ch
    let s := s.put (chIdx ch) 0x12 code
    if code ≤ 3 then
      let n := d.coolReads + 1
      s.modDram ch (fun d => { d with coolReads := n, hot := d.hot && decide (n < 2) })
    else if code ≤ 5 then
      let s := if d.hot then s else (s.hotFlush ch 0).hotFlush ch 1
      let s := (s.modDram ch (fun d => { d with hot := true, coolReads := 0 })).reportDebt ch
      if code == 5 then s.issue 0x2A 0x25 ch.val 0 else s
    else (s.modDram ch (fun d => { d with coolReads := 0 })).decideRetire ch

def execMr4Read (ch : Fin 2) (code0 code1 : Fin 8) (s : State) : Out := State.next (doMr4Read ch code0 code1 s)

/-! ### Rows and neighbour refresh (R374, R381) -/

/-- A row is activated and precharged at once. -/
def State.touchRow (s : State) (ch : Fin 2) (place : Nat × Nat × Nat) : State :=
  (s.activate ch place).modDram ch (fun d => { d with openRows := d.openRows.filter (fun e => e != place) })

/-- NEIGHBOUR_REFRESH (R381): the rows beside the oldest queued row are activated and precharged, each activate with its draw; a row at the
edge of a rank has one neighbour. -/
def doNeighbourRefresh (ch : Fin 2) (s : State) : State :=
  match (if s.chServing ch then (s.dram.get ch).neighbours else []) with
  | [] => s
  | ((rank, bank, row), _) :: t =>
    let s := s.modDram ch (fun d => { d with
      neighbours := t, openRows := d.openRows.filter (fun e => !(e.1 == rank && e.2.1 == bank)) })
    let s := if row = 0 then s else s.touchRow ch (rank, bank, row - 1)
    let s := if row + 1 < s.rpr then s.touchRow ch (rank, bank, row + 1) else s
    s.bump (chIdx ch) 0x15 1

def execNeighbourRefresh (ch : Fin 2) (s : State) : Out := State.next (doNeighbourRefresh ch s)

/-- ROW_IDLE_CLOSE (R374). -/
def doRowIdleClose (ch : Fin 2) (rank : Fin 2) (bank : Fin 8) (s : State) : State :=
  s.modDram ch (fun d => { d with openRows := d.openRows.filter (fun e => !(e.1 == rank.val && e.2.1 == bank.val)) })

def execRowIdleClose (ch : Fin 2) (rank : Fin 2) (bank : Fin 8) (s : State) : Out := State.next (doRowIdleClose ch rank bank s)

/-! ### Late requests (R376) -/

/-- A tracker record that came too late: the tracked update of the position, where it is still to come, is not strong (R205), and all that
R208 and R209 say of such an update holds. -/
def State.lateTrack (s : State) (r : Route) (pos : Nat) : State :=
  let t := (s.route r).thermal
  match s.handoff r with
  | none => s
  | some h => if t.trackSeq != some h.launch.seq || t.trackDone.contains pos then s else s.positionTrack r h pos none true

/-- A frame of the backlog is dropped as late on every link where it waits, and with it the frames of its stream that wait behind it
(R39). -/
def State.lateFrame (s : State) (stream route fcount : Nat) : State :=
  match s.streams.backlog.findIdx? (fun f => f.stream == stream && f.route == route && f.fcount == fcount) with
  | none => s
  | some i =>
    let go := fun (s : State) (l : Fin 2) =>
      match s.streams.backlog[i]? with
      | none => s
      | some f => if (f.next.get l).isSome then (s.dropCopy l i f).dropWaiting l i f else s
    go (go s 0) 1

/-- The work that a discarded request served is dropped. -/
def State.dropWork (s : State) : Work → State
  | .frame stream route fcount => s.lateFrame stream route fcount
  | .tracker r pos => s.lateTrack r pos
  | .comb _ => s
  | .capture _ => s
  | .host => s

/-- Whether a request serves a stream and route. -/
def DramReq.serves (q : DramReq) (stream : Nat) (r : Route) : Bool :=
  match q.work with
  | .frame st route _ => st == stream && (route == routeNum r || route == 3)
  | .tracker x _ => stream == 4 && x == r
  | _ => false

/-- LATE_REQUEST_DISCARD (R376): the oldest class 1 request of a stream and route that is still queued 200 us before its deadline is
discarded, with the other requests of its work, and the work it served is dropped. -/
def doLateRequestDiscard (ch : Fin 2) (stream : Nat) (r : Route) (s : State) : State :=
  let late := fun (q : DramReq) => q.cls == 1 && q.serves stream r && (q.deadline.map (fun t => decide (t ≤ s.cyc + 200000))).getD false
  match (s.dram.get ch).queue.find? late with
  | none => s
  | some q =>
    let s := (s.bump (chIdx ch) 0x1A 1).modDram ch (fun d => { d with queue := d.queue.filter (fun x => !(x.cls == 1 && x.work == q.work)) })
    s.dropWork q.work

def execLateRequestDiscard (ch : Fin 2) (stream : Fin 16) (r : Route) (s : State) : Out :=
  State.next (doLateRequestDiscard ch stream.val r s)

/-! ### Training (R382, R383) -/

/-- Whether a channel is due for retraining at a PHY temperature: the interval of OD 1600.08 has passed since its last training, or the
temperature has moved by OD 1600.09 (R383). -/
def State.trainDue (s : State) (ch : Fin 2) (temp : Int) : Bool :=
  let d := s.dram.get ch
  decide (d.lastTrainNs + s.num 0x1600 0x08 * 60000000000 ≤ s.cyc) || decide (s.num 0x1600 0x09 ≤ (temp - d.lastTemp).natAbs)

/-- RETRAIN_TRIGGER (R383): the PHY temperature is reported, and a channel that its interval or its temperature makes due retrains. -/
def doRetrainTrigger (ch : Fin 2) (temp : Int) (s : State) : State :=
  if !s.chServing ch then s
  else
    let due := s.trainDue ch temp
    let s := s.putI (chIdx ch) 0x1B 16 temp
    if due then (s.modDram ch (fun d => { d with retrainDue := true })).idleRetrain else s

def execRetrainTrigger (m : PhyReading) (s : State) : Out := State.next (doRetrainTrigger m.ch m.temp s)

/-- A write of OD 1600.0D (R383): BUSY while a retraining runs. -/
def retrainWrite (s : State) : Reply :=
  if s.chState 0 == 3 || s.chState 1 == 3 then ⟨1, s, id⟩
  else
    let due := fun (s : State) (ch : Fin 2) => if s.chServing ch then s.modDram ch (fun d => { d with retrainDue := true }) else s
    ⟨0, (due (due s 0) 1).idleRetrain, id⟩

/-- A channel whose training in BRING-UP fails is retired before the image is admitted; where no other is in service or still trains, SAFE
follows instead, and the channel reads absent (R384; DESIGN CHOICE, assumption log 33: Table 14.4 has no code for it). After the last one,
step 9. -/
def State.trainingStep (s : State) (ch : Fin 2) (good : Bool) : State :=
  let lone := !s.chServing (otherCh ch) && s.chState (otherCh ch) != 1
  let s := if good then s.put (chIdx ch) 0x10 2
    else if lone then s.put (chIdx ch) 0x10 0
    else (s.put (chIdx ch) 0x10 4).issue 0x29 0x25 ch.val 4
  if s.chState 0 == 1 || s.chState 1 == 1 then s
  else if s.chServing 0 || s.chServing 1 then s.bootAdmission
  else { s.latch [7] with power := { s.power with toSafe := true } }.bootAdmission

/-- The eye width of a channel: the narrowest read or write eye over its byte lanes (R382). -/
def eyeWidth (eyes : List Byte) : Nat := (eyes.map (·.toNat)).foldl Nat.min 255

/-- DRAM_TRAINING_COMPLETE (R382 to R384): the settings and the eyes, or no working setting, which keeps those in force. -/
def doDramTrainingComplete (ch : Fin 2) (setting : Option Training) (eyes : List Byte) (temp : Int) (s : State) : State :=
  let boot := s.power.bringUp == some 7 && s.chState ch == 1 && (ch == 0 || s.chState 0 != 1)
  if !boot && (s.chState ch != 3 || !s.clkBit 7) then s
  else
    let s := (s.bump (chIdx ch) 0x19 1).putI (chIdx ch) 0x1B 16 temp
    let s := if setting.isSome then s.put (chIdx ch) 0x11 (eyeWidth eyes) else s
    let good := setting.isSome && decide (s.num 0x1600 0x0A ≤ eyeWidth eyes)
    let s := s.modDram ch (fun d => { d with training := setting.orElse (fun _ => d.training), lastTrainNs := s.cyc, lastTemp := temp })
    if boot then s.trainingStep ch good
    else
      let s := s.put (chIdx ch) 0x10 2
      let s := if good then s else s.decideRetire ch
      s.idleRetrain

def execDramTrainingComplete (ch : Fin 2) (t : TrainingEnd) (temp : Int) (s : State) : Out :=
  State.next (doDramTrainingComplete ch t.setting t.eyes temp s)

/-! ### Patrol scrub (R386, R387, Table 14.3) -/

/-- PATROL_SCRUB (R386, R387): the Keeper's patrol reads the next burst of a channel (R31); a corrected one is written back, an uncorrectable
one counts, is recorded, starts the test of its row and costs its owner what Table 14.3 says. -/
def doPatrolScrub (ch : Fin 2) (res : BurstRead) (s : State) : State :=
  if s.chState ch != 2 || !s.clkBit 7 || !s.keeperServes then s
  else
    let b := (s.dram.get ch).scrub
    let s := s.modDram ch (fun d => { d with scrub := (b + 1) % Nat.max s.chBursts 1 })
    let s := s.accessRow ch (s.burstPlace b)
    match res with
    | .clean => s
    | .corrected => s.readErrors [⟨ch, b, false⟩]
    | .uncorrectable => (s.readErrors [⟨ch, b, true⟩]).ownerLoss ch (s.ownerAt ch b)

def execPatrolScrub (ch : Fin 2) (res : BurstRead) (_ : Unit) (s : State) : Out := State.next (doPatrolScrub ch res s)

/-! ### On-chip stores (R390) -/

/-- The filter state of a position is reset; the frames that follow carry REDUCED (R233). Under Loop Guard the chain is the
loop's. -/
def State.resetFilter (s : State) (r : Route) (p : Nat) : State :=
  let q := s.gov r
  let s := s.modFdc q (fun f => { cur := f.cur.map (fun c => c.touch [] [p]), old := f.old.map (fun c => c.touch [] [p]) })
  ((s.bump (at10 0x2610 q) 0x46 1).addCarry q (strainStream q) flReduced).addCarry q 3 flReduced

/-- An uncorrectable position record is reset as at a route start (R158); its filter fields go with it, but under Loop Guard
with route A's record alone. Bytes 64 to 95 stand, and the merge bit of the end goes: that of the merged position whose gauge the record
covers, P - p - g for B-position p (R179, R180). -/
def State.resetPosition (s : State) (r : Route) (p : Nat) : State :=
  let s := (s.modRay r (fun y => { y with recs := mapDel y.recs p })).bump (at10 0x2410 r) 0x19 1
  if s.loopGuard then
    let m := match r with
      | .a => p
      | .b => partnerPos (s.read .a) s.kind p
    let clear := fun (x : MergeRec) => match r with
      | .a => { x with mpA := false }
      | .b => { x with mpB := false }
    let s := { s with loop := { s.loop with recs := s.loop.recs.map (fun e => if e.1 == m then (e.1, clear e.2) else e) } }
    match r with
    | .a => s.resetFilter .a p
    | .b => s
  else s.resetFilter r p

/-- Sets the samples of a span of an accumulator to zero. -/
def clearSpan (x : Nat × Nat) (l : List Int) : List Int :=
  (l.zip (List.range l.length)).map (fun e => if x.1 ≤ e.2 && e.2 < x.1 + x.2 then 0 else e.1)

/-- The thermal state of an end's position and of the Raman point that holds it is reset as at a route start: the tracker's records prime
again, the accumulators of the point's span are zero, and the frame sums, the fusion state and the profile, which the loop holds at route A,
start anew; the frame affected carries REDUCED (R216, assumption log 24). -/
def State.resetThermal (s : State) (r : Route) (p : Nat) : State :=
  let get := s.read r
  let q := s.gov r
  let m := if q == r then p else loopP get - p
  let j := (m - (mkSched get .sense q).first) / ramanPitch get q
  let span := pointSpan get r j
  let s := s.modThermal r (fun t => { t with
    tracks := (List.range 4).foldl (fun m g => mapDel m (trackKey p g)) t.tracks
    block := { t.block with stokes := clearSpan span t.block.stokes, anti := clearSpan span t.block.anti } })
  let s := s.modThermal q (fun t => { t with
    block := { t.block with sums := mapDel t.block.sums m }, qSums := mapDel t.qSums m, fusion := mapDel t.fusion j
    profile := (t.profile.zip (List.range t.profile.length)).map (fun e => if e.2 = j then none else e.1) })
  let s := s.bump (at10 0x2510 q) 0x16 1
  [4, 5, 6].foldl (fun (s : State) st => s.addCarry (s.gov r) st flReduced) s

/-- The state that an uncorrectable word of a store held is reset (R158, R216, R233). -/
def State.storeLoss (s : State) (st : Store) (r : Route) (p : Nat) : State :=
  match st with
  | .hive => s.resetPosition r p
  | .filter => s.resetFilter r p
  | .thermal => s.resetThermal r p

/-- The rows of Hive that the layout in force uses, in order, as numbers 1,024 × bank + row (DESIGN CHOICE, assumption log 33: R389 packs the
records over the rows and does not number them); a row retired at the last commit is skipped whole. -/
def State.hiveRowUsed (s : State) (n : Nat) : Bool := !s.rows.skipped.contains (0, n / 1024, n % 1024)

/-- The positions that hold records in the pool, in the order of the layout: route A ascending, then route B (R389). -/
def State.hivePositions (s : State) : List (Route × Nat) :=
  (enabledRoutes (s.read .a)).flatMap (fun r => (endPositions (s.read r) s.kind r).map (fun p => (r, p)))

/-- The position whose record holds a 64-bit word of a Hive row (R389): records are packed at 96 bytes over the rows that are not skipped. -/
def State.hiveOwner (s : State) (bank : Fin 16) (row : Fin 1024) (word : Fin 256) : Option (Route × Nat) :=
  let n := 1024 * bank.val + row.val
  if !s.hiveRowUsed n then none
  else
    let gone := (s.rows.skipped.filter (fun e => e.1 == 0 && decide (1024 * e.2.1 + e.2.2 < n))).length
    s.hivePositions[((n - gone) * 2048 + 8 * word.val) / 96]?

/-- HIVE_SCRUB (R31, R390): a second corrected error of a row within 24 h, or an uncorrectable one, makes it suspect. -/
def doHiveScrub (st : Store) (bank : Fin 16) (row : Fin 1024) (word : Fin 256) (res : BurstRead) (owner : Option (Route × Nat)) (s : State) :
    State :=
  if !s.keeperServes then s
  else match res with
  | .clean => s
  | .corrected =>
    let again := s.rows.corrected.any (fun e => e.1 == storeNum st && e.2.1 == bank.val && e.2.2.1 == row.val
      && decide (s.cyc < e.2.2.2 + day))
    let s := s.bump 0x1620 0x12 1
    let recent := s.rows.corrected.filter (fun e => decide (s.cyc < e.2.2.2 + day))
    let s := { s with rows := { s.rows with corrected := recent ++ [(storeNum st, bank.val, row.val, s.cyc)] } }
    if again then s.suspectRow st bank row else s
  | .uncorrectable =>
    match (if st == .hive then s.hiveOwner bank row word else owner) with
    | some (r, p) => (s.rowUncorrectable st bank row (routeNum r) p).storeLoss st r p
    | none => s.rowUncorrectable st bank row 3 0

def execHiveScrub (st : Store) (bank : Fin 16) (place : RowWord) (res : BurstRead) (owner : Option (Route × Nat)) (s : State) : Out :=
  State.next (doHiveScrub st bank place.row place.word res owner s)

/-- HIVE_ROW_SPARE (R390): a suspect row whose test found a lasting fault is replaced by a spare of its bank, or retired
when none is left. -/
def doHiveRowSpare (st : Store) (bank : Fin 16) (row : Fin 1024) (s : State) : State :=
  let k := (storeNum st, bank.val, row.val)
  if !s.rows.lasting.contains k || !s.keeperServes then s
  else
    let used := (s.rows.spared.filter (fun e => e.1 == k.1 && e.2.1 == k.2.1)).length
    let rows : Rows := { s.rows with
      suspects := s.rows.suspects.filter (fun e => e != k), lasting := s.rows.lasting.filter (fun e => e != k) }
    if used < 8 then
      let s := { s with rows := { rows with
        spared := rows.spared ++ [k], corrected := rows.corrected.filter (fun e => (e.1, e.2.1, e.2.2.1) != k) } }
      let s := if st == .hive then s.put 0x1620 0x10 (s.num 0x1620 0x10 - 1) else s
      (s.bump 0x1620 0x14 1).rowRecord 0x27 3 0 3
    else
      let s := { s with rows := { rows with retired := rows.retired ++ [k] } }
      let s := if st == .hive then s.put 0x1620 0x11 (s.num 0x1620 0x11 + 1) else s
      s.rowRecord 0x27 3 0 4

def execHiveRowSpare (st : Store) (bank : Fin 16) (row : Fin 1024) (s : State) : Out := State.next (doHiveRowSpare st bank row s)

end Sys2Proof.Machine
end

