-- ==== Sys2Proof/Machine/Stamps.lean ====
section
/-! DEFINITION. Time-stamps (13_time.md): the TDC and its calibration (R355 to R357), the time-stamp inputs with their
queues and ceilings (R358, R359), stream 0x0A (R360), the TRIG_IN inputs (R277, R358) and the frequency counter (R361). -/

namespace Sys2Proof.Machine

open Sys2Proof

/-! ### Calibration of the TDC -/

/-- The table of a code-density calibration (R356). -/
def tdcTable (h : List Nat) : List Int :=
  (h.foldl (fun (acc : Nat × List Int) n => (acc.1 + n, acc.2 ++ [rhu ((2 * acc.1 + n : Nat) : Int) 5])) (0, [])).2

/-- Whether the hits of a channel pass. -/
def tdcGood (h : List Nat) : Bool := h.length == 128 && h.all (fun n => n != 0 && decide (n ≤ 24576))

/-- TDC_CALIBRATION_START (R356): the interval or the temperature trigger. -/
def doTdcCalibrationStart (s : State) : State := s.modTime (fun t => { t with calibrating := true })

def execTdcCalibrationStart (s : State) : Out := State.next (doTdcCalibrationStart s)

/-- TDC_CALIBRATION_COMPLETE (R356): the table of the idle line of each channel; a passing channel exchanges its lines, a
failing one keeps its table with a record and the calibration is retried. It is step 10 of bring-up. -/
def doTdcCalibrationComplete (hits : List (List Nat)) (s : State) : State :=
  let boot := s.power.bringUp == some 10
  if !s.time.calibrating && !boot then s
  else
    let good := (List.range 10).map (fun i => tdcGood (hits.getD i []))
    let s := s.modTime (fun t => { t with
      calibrating := !good.all id
      channels := (t.channels.zip (List.range 10)).map (fun (e : TdcChannel × Nat) =>
        let f := tdcTable (hits.getD e.2 [])
        if good.getD e.2 false then
          (if e.1.line1 then { e.1 with table0 := f, line1 := false } else { e.1 with table1 := f, line1 := true })
        else e.1) })
    let s := (List.range 10).foldl (fun s i => if good.getD i false then s.putBit 0x1438 0x10 i true else s.issueOpen 0x38 0x28 0) s
    let s := s.bump 0x1438 0x11 1
    if boot then s.endBringUp else s

def execTdcCalibrationComplete (hits : List (List Nat)) (s : State) : Out := State.next (doTdcCalibrationComplete hits s)

/-! ### Stream 0x0A (R360) -/

/-- The entry of a stamp in its 16 bytes (Table 11.6). -/
def stampBytes (e : Stamp) : Bytes :=
  time80 e.time ++ [byteOf e.input, byteOf (b2n (!e.rising))] ++ beBytes 4 e.count

/-- Whether stream 0x0A runs: in every mode from READY on (R360). -/
def State.stampsRun (s : State) : Bool := s.mode != 0 && s.mode != 1

/-- Closes the time-stamp frame being gathered. -/
def State.closeStamps (s : State) : State :=
  match s.time.stamps with
  | [] => s
  | e :: t =>
    let l := e :: t
    let s := s.modTime (fun x => { x with stamps := [] })
    let (n, s) := s.deviceCount 10
    if s.stampsRun then
      (s.handOver
        { stream := 10, routeCode := 3, fcount := n, tstart := e.time, period := 0, first := 0, count := 0, pitch := 0,
          quality := l.foldl (fun a x => a ||| stateFlags x.state) 0, cseq := s.num 0x1200 0x03, switchPos := none,
          payload := l.flatMap stampBytes, coded := false, deadline := none, records := 0 }).2
    else s

/-- The entry that the stream takes next: the earliest of the queue heads routed to it, the lower input of two, then the
rising edge. -/
def State.nextStamp (s : State) : Option Stamp :=
  (List.finRange 8).foldl (fun (b : Option Stamp) i =>
    if !bit (s.num (0x1420 + i.val) 0x03) 0 then b
    else
      match (s.inputs.get i).queue with
      | [] => b
      | e :: _ => match b with
        | none => some e
        | some x => if e.time < x.time then some e else b) none

/-- Merges the queued entries whose stamps are 2 us old into the frame, which closes at 512 (R360); the fuel bounds them. -/
def State.mergeStamps : Nat → State → State
  | 0, s => s
  | k + 1, s =>
    match s.nextStamp with
    | none => s
    | some e =>
      if !s.stampsRun || decide (s.now16 < e.time + 2000 * 65536) then s
      else
        let i : Fin 8 := Fin.ofNat 8 e.input
        let s := { s with inputs := s.inputs.set i { s.inputs.get i with queue := (s.inputs.get i).queue.drop 1 } }
        let s : State := s.modTime (fun t => { t with stampsNs := if t.stamps.isEmpty then t.ns else t.stampsNs, stamps := t.stamps ++ [e] })
        State.mergeStamps k (if 512 ≤ s.time.stamps.length then s.closeStamps else s)

/-- TIMESTAMP_FRAME_CLOSE (R360): the frame hold since the first entry has passed, while the sample clock runs. -/
def doTimestampFrameClose (s : State) : State := if s.sampleClock then (s.mergeStamps 8192).closeStamps else s

def execTimestampFrameClose (s : State) : Out := State.next (doTimestampFrameClose s)

/-! ### Time-stamp inputs (R358, R359) -/

/-- Whether an edge is of the polarity of an object: 0 rising, 1 falling, 2 both. -/
def edgeTaken (sel : Nat) (rising : Bool) : Bool := sel == 2 || (sel == 0) == rising

/-- Updates an input. -/
def State.modInput (s : State) (i : Fin 8) (f : TsInput → TsInput) : State := { s with inputs := s.inputs.set i (f (s.inputs.get i)) }

/-- A recognised and stamped edge: counted, held to the ceiling, queued for the stream, delivered to the Forager queues and
to the injected trigger of chapter 15. -/
def State.recordEdge (s : State) (i : Fin 8) (rising : Bool) (t : Int) : State :=
  let o := 0x1420 + i.val
  let s := ((s.bump o 0x10 1).countEdge (3 + i.val) t).modInput i (fun x => { x with inMs := x.inMs + 1 })
  let n := s.num o 0x10
  let dest := s.num o 0x03
  let s := if i.val < 6 then s.hkaInput i.val else s
  if s.num o 0x04 / 1000 < (s.inputs.get i).inMs then s.bump o 0x13 1
  else if (if i.val < 6 then 1024 else 16) ≤ (s.inputs.get i).queue.length then s.bump o 0x11 1
  else
    let s := if bit dest 1 && decide (i.val < 6) then s.queueEdge i.val t n else s
    let s := if bit dest 0 then s.modInput i (fun (x : TsInput) => { x with queue := x.queue ++ [⟨t, i.val, rising, n, s.timeState⟩] }) else s
    s.mergeStamps 8192

/-- The instant of an edge in 2^-16 of a sample clock, on which dead times count: its cycle with the F of its tap. -/
def State.localTime (s : State) (ch : Nat) (tap : Fin 128) : Int := (s.cyc : Int) * 65536 + (s.tapTime ch tap).1

/-- Whether an edge lies in the 12 ns dead time after a stamped one (Table 13.3). -/
def inDeadTime (last : Option Int) (t : Int) : Bool :=
  match last with
  | some l => decide (t < l + 12 * 65536)
  | none => false

/-- The level recognised at an input after an edge that its new level holds for `held` samples (R358). -/
def TsInput.seen (x : TsInput) (rising : Bool) (held : Nat) : TsInput :=
  { x with level := if 2 ≤ held then some rising else if x.level.isNone then some (!rising) else x.level }

/-- Whether an edge is recognised: its level holds for two samples and is not the one already recognised (R358). -/
def TsInput.recognises (x : TsInput) (rising : Bool) (held : Nat) : Bool := decide (2 ≤ held) && x.level != some rising

/-- TS_EDGE (R358): a level held for one sample is ignored on both edges; the precision class ignores edges within 12 ns of a stamped
one. -/
def doTsEdge (input : Fin 8) (rising : Bool) (held : Nat) (tap : Fin 128) (s : State) : State :=
  let o := 0x1420 + input.val
  let new := (s.inputs.get input).recognises rising held
  if !s.sampleClock then s
  else
    let s := s.modInput input (fun x => x.seen rising held)
    if !new || s.num o 0x01 != 1 || !edgeTaken (s.num o 0x02) rising then s
    else if input.val < 6 then s.recordEdge input rising (s.now16 - ps16 (s.int o 0x05 32))
    else
      let x := s.tdcStamp (input.val - 4) s.cyc tap (s.int o 0x05 32)
      let t := s.localTime (input.val - 4) tap
      if inDeadTime (s.inputs.get input).last t then s.bump o 0x12 1
      else (x.2.modInput input (fun y => { y with last := some t })).recordEdge input rising x.1

def execTsEdge (input : Fin 8) (rising : Bool) (held : Nat) (tap : Fin 128) (s : State) : Out := State.next (doTsEdge input rising held tap s)

/-- RATE_CEILING_WINDOW (R359): a whole ms of device time ends. -/
def doRateCeilingWindow (s : State) : State :=
  ({ s with inputs := s.inputs.map (fun (x : TsInput) => { x with inMs := 0 }) } : State).mergeStamps 8192

def execRateCeilingWindow (s : State) : Out := State.next (doRateCeilingWindow s)

/-- TRIG_IN_EDGE (R277, R358): stamped by the TDC, with the dead time of the precision class; it feeds capture alone. -/
def doTrigInEdge (input : Fin 2) (rising : Bool) (tap : Fin 128) (s : State) : State :=
  if !s.sampleClock || !edgeTaken (s.num 0x2800 (0x01 + input.val)) rising then s
  else
    let x := s.tdcStamp (4 + input.val) s.cyc tap 0
    let t := s.localTime (4 + input.val) tap
    if inDeadTime (s.trigIn.get input).last t then s.bump 0x1430 (0x10 + input.val) 1
    else
      let s := x.2.countEdge (11 + input.val) x.1
      let s := { s with trigIn := s.trigIn.set input { s.trigIn.get input with last := some t } }
      s.triggerSlots (1 + input.val) x.1 (fun _ => true)

def execTrigInEdge (input : Fin 2) (rising : Bool) (tap : Fin 128) (s : State) : Out := State.next (doTrigInEdge input rising tap s)

/-! ### Frequency counter (R361) -/

/-- The edges of a gate with the stamps of the first and the last: those counted, or those given with the end of the gate for REFIN, whose
edges come as no command (assumption log 30). -/
def State.gateCount (s : State) (refin : Nat × Int × Int) : Nat × Int × Int :=
  if s.num 0x1440 0x01 == 1 then refin else s.time.gateEdges.getD (0, 0, 0)

/-- The frequency of n edges from t_f to t_l in uHz, a U64 that saturates (R15, R361). -/
def gateFrequency (n : Nat) (tf tl : Int) : Nat := satU (rhuDiv (((n - 1) * 65536 * 10 ^ 15 : Nat) : Int) (tl - tf)) 64

/-- FREQUENCY_GATE_END: the result in uHz; the manual states none when the stamps do not advance. -/
def doFrequencyGateEnd (n : Nat) (tf tl : Int) (s : State) : State :=
  if s.num 0x1440 0x01 == 0 || !s.sampleClock then s
  else
    let g := s.gateCount (n, tf, tl)
    let s := (s.bump 0x1440 0x11 1).modTime (fun u => { u with gateEdges := none })
    if g.1 < 2 then s.put 0x1440 0x10 0
    else if g.2.2 ≤ g.2.1 then
      let (v, s) := s.draw
      s.put 0x1440 0x10 (v % 2 ^ 64)
    else s.put 0x1440 0x10 (gateFrequency g.1 g.2.1 g.2.2)

def execFrequencyGateEnd (n : Nat) (tFirst tLast : Int) (s : State) : Out := State.next (doFrequencyGateEnd n tFirst tLast s)

end Sys2Proof.Machine
end

