-- ==== Sys2Proof/Machine/Integrity.lean ====
section
/-! DEFINITION. Integrity, self-test and authority (17_integrity.md): heartbeats and lockstep (R460), targeted self-tests
(R450, R451), the full BIST (R454 to R457), scan (R458), the log (R447) and fault clear (R463). -/

namespace Sys2Proof.Machine

open Sys2Proof

/-! ### Keepers (R459, R460) -/

/-- Whether the arbiter watches the Keepers: they run, outside HIBERNATE, reset, step 2 and scan. -/
def State.keepersRun (s : State) : Bool :=
  s.mode != 0 && s.power.vaon && s.power.supplyOk && !s.power.resetLow && !s.integrity.scan && !s.power.dead
    && (match s.power.bringUp with | some k => decide (3 < k) | none => true)

/-- Whether a Keeper runs. -/
def State.keeperUp (s : State) (k : Keeper) : Bool :=
  s.keepersRun && (s.arbiter.stateOf k == .active || s.arbiter.stateOf k == .standby)

/-- The windows a Keeper has missed. -/
def Arbiter.missOf (a : Arbiter) : Keeper → Nat
  | .a => a.missA
  | .b => a.missB

/-- Sets the windows missed by a Keeper. -/
def Arbiter.setMiss (a : Arbiter) (k : Keeper) (n : Nat) : Arbiter :=
  match k with
  | .a => { a with missA := n }
  | .b => { a with missB := n }

/-- Whether a Keeper has written its heartbeat in this window. -/
def Arbiter.beatOf (a : Arbiter) : Keeper → Bool
  | .a => a.beatA
  | .b => a.beatB

/-- KEEPER_HEARTBEAT. -/
def doKeeperHeartbeat (k : Keeper) (s : State) : State :=
  if s.keeperUp k then
    { s with arbiter := match k with | .a => { s.arbiter with beatA := true } | .b => { s.arbiter with beatB := true } }
  else s

def execKeeperHeartbeat (k : Keeper) (s : State) : Out := State.next (doKeeperHeartbeat k s)

/-- The record of a Keeper that stops: latched where no Keeper is left to run (R446). -/
def State.stopRecord (s : State) (k : Keeper) (type : Nat) : State :=
  if s.arbiter.holder == some k && s.arbiter.stateOf (otherKeeper k) != .standby then s.holdRec (s.faultRec type 0x27 3 0 (keeperNum k) 0 0)
  else s.issue type 0x27 (keeperNum k) 0

/-- The end of a window for one Keeper: the third missed in a row stops it. -/
def State.judgeBeat (s : State) (k : Keeper) (beat : Bool) : State :=
  if !s.keeperUp k then s
  else if beat then { s with arbiter := s.arbiter.setMiss k 0 }
  else
    let n := s.arbiter.missOf k + 1
    let s := { s.bump 0x1700 0x64 1 with arbiter := s.arbiter.setMiss k n }
    if n < 3 then s
    else
      let s := ((s.stopRecord k 0x24).stopKeeper k).detect (.keeper k) false
      { s with arbiter := s.arbiter.setMiss k 3 }

/-- HEARTBEAT_WINDOW (R460). -/
def doHeartbeatWindow (s : State) : State :=
  if !s.keepersRun then s
  else
    let a := s.arbiter.beatA
    let b := s.arbiter.beatB
    let s := (s.judgeBeat .a a).judgeBeat .b b
    { s with arbiter := { s.arbiter with beatA := false, beatB := false } }

def execHeartbeatWindow (s : State) : Out := State.next (doHeartbeatWindow s)

/-- LOCKSTEP_MISMATCH (R460): the Keeper is fenced, enters STOPPED and is tested. -/
def doLockstepMismatch (k : Keeper) (s : State) : State :=
  if !s.keeperUp k then s
  else (((s.bump 0x1700 0x63 1).stopRecord k 0x23).stopKeeper k).detect (.keeper k) false

def execLockstepMismatch (k : Keeper) (s : State) : Out := State.next (doLockstepMismatch k s)

/-! ### Targeted self-tests (R450 to R453, Table 17.2) -/

/-- The record of an outcome: 1 transient, 2 lasting, 4 retired. -/
def State.outcomeRecord (s : State) (u : TestUnit) (aux : Int) : State :=
  match u with
  | .slice f => s.issue 0x20 0x23 f.val aux
  | .engine r => s.issueR r 0x22 0x21 (routeNum r) aux
  | .keeper k => s.issue (if s.arbiter.missOf k = 3 then 0x24 else 0x23) 0x27 (keeperNum k) aux
  | .row _ _ _ => s.rowRecord 0x26 3 0 aux
  | .dramRow ch _ => s.issue 0x28 0x25 ch.val aux
  | .core c => s.issue 0x2B (0x40 + 4 * c.val) c.val aux
  | .drx r => s.issueR r 0x2D 0x22 (2 * routeNum r) aux
  | .hka => s.issueOpen 0x2F 0x22 aux

/-- A unit is latched as retired; a BIST since must pass again. -/
def State.retireLatch (s : State) (latch bistBit : Nat) : State :=
  let s := s.latch [latch]
  { s with integrity := { s.integrity with bistPassed := setBit s.integrity.bistPassed bistBit false } }.driveFault

/-- A route whose engine or launches are back restarts in a mode that launches (R89). -/
def State.restartRoute (s : State) (r : Route) : State :=
  if s.sensing && s.enabled r && s.power.transition.isNone then (s.dropRoute r).startRoute r true else s

/-- A transient fault: the unit returns to service (Table 17.2). -/
def State.unitPasses (s : State) (u : TestUnit) : State :=
  let s := s.outcomeRecord u 1
  match u with
  | .slice _ => s
  | .engine r => (s.modOptics r (fun o => { o with engineOut := false })).restartRoute r
  | .keeper k => { s with arbiter := (s.arbiter.setState k .standby).setMiss k 0 }
  | .row st bank row =>
    { s with rows := { s.rows with suspects := s.rows.suspects.filter (fun e => e != (storeNum st, bank.val, row.val)) } }
  | .dramRow _ _ => s
  | .core c => s.loadCore c
  | .drx r => s.putBit (at100 0x21A0 r) 0x15 1 false
  | .hka => s

/-- A lasting fault: the unit is retired or replaced (Table 17.2); `bad` are the converters of the HKA test that failed. -/
def State.unitFails (s : State) (u : TestUnit) (bad : Bool × Bool) : State :=
  match u with
  | .slice f => s.retireSlice f
  | .engine r =>
    let s := ((s.outcomeRecord u 4).retireLatch (9 + routeNum r) (1 + routeNum r)).modOptics r (fun o => { o with engineOut := true })
    s.safeIfNoRoute
  | .keeper k => ({ s with arbiter := s.arbiter.setState k .retired }.outcomeRecord u 4).retireLatch 15 13
  | .row st bank row =>
    { s.outcomeRecord u 2 with rows := { s.rows with lasting := s.rows.lasting ++ [(storeNum st, bank.val, row.val)] } }
  | .dramRow ch _ => (s.outcomeRecord u 2).decideRetire ch
  | .core c =>
    let s := (s.outcomeRecord u 4).discardInputs c
    (s.modCore c (fun x => { x with retired := true, run := .gated, slots := x.slots.map (fun y => { y with waiting := none, queue := [] }) })).reportCore c
  | .drx r => ((s.outcomeRecord u 4).retireLatch 13 11).modThermal r (fun t => { t with retired := true })
  | .hka =>
    let s := (if bad.1 then s.issue 0x2F 0x22 0 4 else s)
    let s := (if bad.2 then s.issue 0x2F 0x22 1 4 else s).retireLatch 14 11
    { s with hka := { s.hka with
      hka0 := { s.hka.hka0 with retired := s.hka.hka0.retired || bad.1 }
      hka1 := { s.hka.hka1 with retired := s.hka.hka1.retired || bad.2 } } }

/-- Whether the test of a unit runs now. -/
def State.testRuns (s : State) (u : TestUnit) : Bool :=
  if isRowTest u then ((s.integrity.tests.find? (fun (t : Test) => isRowTest t.unit)).map (fun (t : Test) => t.unit == u)).getD false else s.testing u

/-- TARGETED_TEST_COMPLETE (R450): a first failed run is repeated; a pass is transient unless it is the third within 24 h. -/
def doTargetedTestComplete (u : TestUnit) (pass pass1 : Bool) (s : State) : State :=
  let ok := if u == .hka then pass && pass1 else pass
  let bad := (!pass, !pass1)
  match s.integrity.tests.find? (fun t => t.unit == u) with
  | none => s
  | some t =>
    if !s.testRuns u then s
    else if ok then
      match u with
      | .slice f => s.passSlice f
      | _ =>
        let x := (s.endTest u).transientOutcome u
        if x.1 then x.2.unitFails u (true, true) else x.2.unitPasses u
    else if !t.failedOnce then
      let s := { s with integrity := { s.integrity with tests := s.integrity.tests.map (fun (x : Test) =>
        if x.unit == u then { x with failedOnce := true } else x) } }
      s.reportSlices
    else ((s.endTest u).bump 0x1700 0x14 1).unitFails u bad

def execTargetedTestComplete (u : TestUnit) (pass pass1 : Bool) (s : State) : Out := State.next (doTargetedTestComplete u pass pass1 s)

/-! ### BIST (R454 to R457) -/

/-- What a unit loses when its BIST begins: the links of the stream engine are down during the test (Table 17.3). -/
def State.bistBegin (s : State) : State :=
  match s.integrity.bistLeft with
  | 14 :: _ => s.dropLinks
  | _ => s

/-- A write of OD 1700.20 (R454). -/
def bistWrite (mask : Nat) (s : State) : Reply :=
  if 2 ^ 15 ≤ mask then ⟨7, s, id⟩
  else if s.mode != 6 then ⟨9, s, id⟩
  else if s.num 0x1700 0x21 == 1 then ⟨1, s, id⟩
  else
    let bits := (List.range 15).filter (fun b => mask.testBit b)
    let s := bits.foldl (fun s b => s.put 0x1700 (0x30 + b) 0) s
    let s := { s with integrity := { s.integrity with bistMask := mask, bistLeft := bits, bistFailing := 0, bistStep6 := false } }
    if bits.isEmpty then ⟨0, (s.put 0x1700 0x21 2).issue 0x3E 0x29 0 0, id⟩
    else ⟨0, (s.put 0x1700 0x21 1).bistBegin, id⟩

/-- The captures held in a DRAM channel are lost with its content. -/
def State.dropHeld (s : State) (ch : Fin 2) : State :=
  (List.finRange 8).foldl (fun (s : State) (k : Fin 8) =>
    let x := s.capture.get k
    if s.slotOn ch k && x.held.isSome then
      ((s.setSlot k { x with held := none }).bump 0x2800 0x11 1).slotState k (if s.num (capIdx k) 0x01 == 0 then 0 else 1)
    else s) s

/-- The contents that the test of a unit loses, and what follows it (Table 17.3). -/
def State.bistLoss (s : State) (b : Nat) : State :=
  match b with
  | 4 => { (s.modRay .a resetRay).modRay .b resetRay with loop := { s.loop with recs := [] } }
  | 5 => (s.modFdc .a (fun _ => Fdc.reset)).modFdc .b (fun _ => Fdc.reset)
  | 6 =>
    let z := fun (t : Thermal) => { Thermal.reset with retired := t.retired }
    (s.modThermal .a z).modThermal .b z
  | 7 => (List.finRange 8).foldl (fun (s : State) (c : Fin 8) => s.loadCore c) s
  | 8 => { s.dropHeld 0 with streams := { s.streams with backlog := [] } }
  | 9 => { s.dropHeld 1 with streams := { s.streams with backlog := [] } }
  | 11 =>
    let drop := fun (s : State) (i n : Nat) => (List.range n).foldl (fun (s : State) k => s.put i (k + 1) 0) s
    let s := drop (drop (drop s 0x1820 32) 0x1821 32) 0x1822 4
    ((s.putBit 0x1830 0x11 0 false).put 0x1830 0x10 0x80000000).requestCal
  | 12 => s.modTime (fun t => { t with calibrating := true })
  | _ => s

/-- Units return from retirement: those that passed; `bad` marks the parts of the unit that failed (R454). -/
def State.bistReturn (s : State) (b bad : Nat) : State :=
  let ok := fun (i : Nat) => !bad.testBit i
  match b with
  | 0 =>
    let v := s.num 0x2400 0x03
    (s.put 0x2400 0x03 (v / 2 ^ 17 * 2 ^ 17 + (v % 2 ^ 17 &&& bad))).reportSlices
  | 1 => if ok 0 then s.modOptics .a (fun o => { o with engineOut := false }) else s
  | 2 => if ok 0 then s.modOptics .b (fun o => { o with engineOut := false }) else s
  | 7 => { s with cores := Vector.ofFn (fun (c : Fin 8) => let x := s.cores.get c; { x with retired := x.retired && !ok c.val }) }
  | 8 => if ok 0 && s.chState 0 == 4 then s.put 0x1610 0x10 2 else s
  | 9 => if ok 0 && s.chState 1 == 4 then s.put 0x1611 0x10 2 else s
  | 11 =>
    let s := if ok 0 then s.modThermal .a (fun t => { t with retired := false }) else s
    let s := if ok 1 then s.modThermal .b (fun t => { t with retired := false }) else s
    { s with hka := { s.hka with
      hka0 := { s.hka.hka0 with retired := s.hka.hka0.retired && !ok 2 }
      hka1 := { s.hka.hka1 with retired := s.hka.hka1.retired && !ok 3 } } }
  | 13 =>
    let back := fun (a : Arbiter) k => if a.stateOf k == .retired && ok 0 then a.setState k .standby else a
    { s with arbiter := back (back s.arbiter .a) .b }
  | _ => s

/-- The end of a run: step 7 of bring-up follows that of step 6, with DATAPATH_BIST latched where it failed (R457); a full
BIST issues its record (R454). -/
def State.bistEnd (s : State) : State :=
  let f := s.integrity.bistFailing
  let s := s.put 0x1700 0x21 2
  if s.integrity.bistStep6 then
    let s := { s with integrity := { s.integrity with bistStep6 := false } }
    let s := if f = 0 then s else { s.latch [5] with power := { s.power with toSafe := true } }
    s.beginTraining
  else s.issue 0x3E 0x29 (s.integrity.bistMask : Nat) (f : Nat)

/-- BIST_COMPLETE (R455): a unit passes when its count is the expected one and its signature the reference. -/
def doBistComplete (b : Fin 15) (count : BitVec 24) (signature : W32) (failing : BitVec 17) (s : State) : State :=
  match s.integrity.bistLeft with
  | [] => s
  | x :: rest =>
    if x != b.val || s.num 0x1700 0x21 != 1 then s
    else
      let st := if count.toNat != Config.bistCount b.val then 3 else if signature.toNat == Config.bistSignature b.val then 1 else 2
      let pass := st == 1
      let bad := if pass then 0 else if st == 2 && failing != 0 then failing.toNat else 2 ^ 17 - 1
      let s := s.put 0x1700 (0x30 + b.val) (signature.toNat * 2 ^ 32 + count.toNat * 256 + st)
      let s := { s with integrity := { s.integrity with
        bistLeft := rest, bistFailing := if pass then s.integrity.bistFailing else s.integrity.bistFailing ||| 2 ^ b.val
        bistPassed := setBit s.integrity.bistPassed b.val pass } }
      let s := if s.integrity.bistStep6 then s else (s.bistReturn b.val bad).bistLoss b.val
      if rest.isEmpty then s.bistEnd else s.bistBegin

def execBistComplete (b : Fin 15) (count : BitVec 24) (signature : W32) (failing : BitVec 17) (s : State) : Out :=
  State.next (doBistComplete b count signature failing s)

/-! ### Scan and the log (R447, R458) -/

/-- The steps of R458 that follow the answer: safe request, keys zeroised with every session, the OTP lock, Keepers
halted. -/
def State.enterScan (s : State) : State :=
  let c := s.control
  let s := s.assertSafe
  let s := { s with
    control := { c with
      sessions := [], challenges := [], subs := [], cache := [], sdo := none, holder := none, draft := []
      keysZeroised := true }
    integrity := { s.integrity with scan := true, otpLocked := true } }
  ((s.reportDraft.put 0x1700 0x51 3).issueOpen 0x3F 0x29 0).driveFault

/-- A write of 0x01 to OD 1700.50 (R458): MAINTENANCE only. -/
def scanWrite (s : State) : Reply := if s.mode != 6 then ⟨9, s, id⟩ else ⟨0, s, State.enterScan⟩

/-- A write of 0x01 to OD 5000.11 (R447): the ring is emptied. -/
def clearLogWrite (s : State) : Reply :=
  ⟨0, ({ s with streams := { s.streams with log := [] } }.put 0x5000 0x01 0).put 0x5000 0x02 0, id⟩

/-! ### Fault clear (R463) -/

/-- Whether a PLL locked at a cycle has held lock for 100 ms since (R463). -/
def State.heldLock (s : State) (since : Option Nat) : Bool :=
  match since with
  | some n => decide (n + 100000000 ≤ s.cyc)
  | none => false

/-- Whether the cause behind a latched bit has ended. -/
def State.causeEnded (s : State) (b : Nat) : Bool :=
  let i := s.integrity
  match b with
  | 0 => s.power.xt1Held
  | 1 => s.power.xt1Held && s.clkBit 5
  | 2 => s.heldLock s.power.pllsSince
  | 3 => s.heldLock s.power.pllmSince
  | 4 => s.power.supplyOk
  | 5 => false
  | 6 => bit i.bistPassed 0
  | 7 => bit i.bistPassed 8 || bit i.bistPassed 9
  | 8 => s.routeClear
  | 9 => bit i.bistPassed 1
  | 10 => bit i.bistPassed 2
  | 11 => true
  | 12 => true
  | 13 => bit i.bistPassed 11
  | 14 => bit i.bistPassed 11
  | 15 => bit i.bistPassed 13
  | _ => false

/-- A route leaves LAUNCH_FAIL: it restarts in a mode that launches. -/
def State.clearLaunch (s : State) (r : Route) : State :=
  if bit (s.num 0x1700 0x10) (11 + routeNum r) then (s.put (at100 0x2150 r) 0x14 0).restartRoute r else s

/-- Step 1: every latched bit whose cause has ended clears; XT1_FAIL and PLLA_FAIL go with their latches (R422). NO_ROUTE is
judged once the others have cleared. -/
def State.clearLatched (s : State) : State :=
  let s := (s.clearLaunch .a).clearLaunch .b
  let clear := fun (s : State) b => if s.causeEnded b then s.putBit 0x1700 0x10 b false else s
  let s := [0, 1, 2, 3, 4, 6, 7, 9, 10, 11, 12, 13, 14, 15].foldl clear s
  let s := clear s 8
  let s := if bit (s.num 0x1700 0x10) 0 then s else s.clk 13 false
  (if bit (s.num 0x1700 0x10) 1 then s else s.clk 12 false).driveFault

/-- The result of a unit whose patterns are complete (Table 17.4). -/
def bistResult (b signature status : Nat) : Nat := signature % 2 ^ 32 * 2 ^ 32 + Config.bistCount b % 2 ^ 24 * 256 + status

/-- The datapath BIST that a fault clear runs (R463): its units report (R455), the stores and cores lose what Table 17.3 says, and a failure
latches DATAPATH_BIST. Of a run that fails the manual does not say which units fail: a free value, and so are their signatures. -/
def State.datapathBist (s : State) (pass : Bool) : State :=
  let x := s.draw
  let bad := if pass then 0 else x.1 % 255 + 1
  let report := fun (s : State) (b : Nat) =>
    if bad.testBit b then
      let y := s.draw
      y.2.put 0x1700 (0x30 + b) (bistResult b y.1 2)
    else s.put 0x1700 (0x30 + b) (bistResult b (Config.bistSignature b) 1)
  let s := (List.range 8).foldl report x.2
  ([4, 5, 6, 7].foldl State.bistLoss (s.put 0x1700 0x21 2)).putBit 0x1700 0x10 5 (!pass)

/-- A write of 0x01 to OD 1700.02 (R463): in SAFE with bits 0 to 4 and 6 to 8 clear the datapath BIST runs. -/
def faultClearWrite (bistPass : Bool) (s : State) : Reply :=
  let s := s.clearLatched
  let v := s.num 0x1700 0x10
  let run := s.mode == 7 && field v 4 0 == 0 && field v 8 6 == 0
  let s := if run then s.datapathBist bistPass else s
  ⟨if field (s.num 0x1700 0x10) 8 0 == 0 then 0 else 1, s, id⟩

end Sys2Proof.Machine
end

