-- ==== Sys2Proof/Machine/Time.lean ====
section
/-! DEFINITION. Device time and its references (13_time.md): the clock (R343, R344), the references and their presence
(R345 to R348), the disciplining loop (R349 to R351) and PPS_OUT (R352). -/

namespace Sys2Proof.Machine

open Sys2Proof

/-- One cycle of the sample clock: device time advances, stamps that are 2 us old are merged, and the memory controller serves its requests
(R343, R360, R373). -/
def State.tick (s : State) : State := if s.sampleClock then (((s.ticks 1).mergeStamps 8192).watchBlank).runDram else s

/-- A write of OD 1400.12 (R344): accepted in FREE and ACQUIRING. -/
def timeSetWrite (t : Int) (s : State) : Reply :=
  if s.timeState == 0 || s.timeState == 2 then ⟨0, s.stepTime (t * 2 ^ 32), id⟩ else ⟨9, s, id⟩

/-! ### The loop (R348 to R351) -/

/-- θ of this second for the reference in use, where it gave a measurement: an s64, which saturates (R15, R348). -/
def State.theta (s : State) : Option Int :=
  Option.map (fun x => sat x 64) <| match s.refInUse with
  | 1 => s.time.ppsTheta
  | 2 => if s.time.ptpThetas.isEmpty then none else some (rhuDiv (sumI s.time.ptpThetas) s.time.ptpThetas.length)
  | 3 => s.time.syncTheta
  | _ => none

/-- The lock threshold in 2^-16 ns. -/
def State.lockLimit (s : State) : Int := ((s.num 0x1400 0x06 * 65536 : Nat) : Int)

/-- The state after a θ: the criteria of Table 13.2. -/
def State.judgeLock (s : State) (th : Int) : State :=
  let near := decide ((th.natAbs : Int) ≤ s.lockLimit)
  let far := decide (4 * s.lockLimit < (th.natAbs : Int))
  let s := s.modTime (fun t => { t with lockRun := if near then t.lockRun + 1 else 0, farRun := if far then t.farRun + 1 else 0 })
  if s.timeState == 2 && decide (16 ≤ s.time.lockRun) then s.toTimeState 3
  else if s.timeState == 3 && decide (4 ≤ s.time.farRun) then (s.modTime (fun t => { t with lockRun := 0 })).toTimeState 2
  else s

/-- The loop computation of one second with its θ (R349); a first θ of a reference decides the state before it (R351). -/
def State.disciplineWith (s : State) (th : Int) : State :=
  let s := s.putI 0x1400 0x23 64 th
  let s := if s.time.fresh then
      let near := decide ((th.natAbs : Int) ≤ s.lockLimit)
      (s.modTime (fun t => { t with fresh := false })).toTimeState (if near then 3 else 2)
    else s
  let kp := s.num 0x1400 0x04
  let ki := s.num 0x1400 0x05
  let slew : Int := ((s.num 0x1400 0x08 * 65536 : Nat) : Int)
  let s := if (s.timeState == 2 || s.timeState == 0) && decide (s.num 0x1400 0x07 * 65536 ≤ th.natAbs) then
      ((s.stepTime (s.time.t48 - th * 2 ^ 32)).bump 0x1400 0x28 1).steer 0
    else (s.modTime (fun t => { t with integ := t.integ + rhu th ki })).steer (clampI (-slew) slew (rhu th kp))
  s.judgeLock th

/-- DISCIPLINE (R349): once per second of device time in which the reference in use gives a measurement. -/
def doDiscipline (s : State) : State :=
  let th := s.theta
  let s := s.modTime (fun t => { t with ppsTheta := none, ptpThetas := [], syncTheta := none })
  match th with
  | some x => if s.timeState == 1 then s else s.disciplineWith x
  | none => s

def execDiscipline (s : State) : Out := State.next (doDiscipline s)

/-! ### Presence (Table 13.1) -/

/-- PPS_IN_EDGE (R347, R348): three edges at intervals of 1 s ± 100 us make the reference present; θ comes from the REFIN
edge when REFIN is present. Only an edge within the band ends a run of misses, and one that comes before the band is itself a miss of the
edge before (DEDUCED, assumption log 30). -/
def doPpsInEdge (rising : Bool) (tap : Fin 128) (refin : Option (Nat × Fin 128)) (s : State) : State :=
  if !s.sampleClock || !edgeTaken (s.num 0x1400 0x0E) rising then s
  else
    let x := s.tdcStamp 6 s.cyc tap 0
    let early := match s.time.lastPps with
      | some l => decide (x.1 - l < sec16 - 100000 * 65536)
      | none => false
    let regular := match s.time.lastPps with
      | some l => decide ((x.1 - l - sec16).natAbs ≤ 100000 * 65536)
      | none => false
    let y := match refin with
      | some (ns, k) => if bit (s.num 0x1400 0x26) 1 && decide (ns ≤ 100) then x.2.tdcStamp 7 (s.cyc + ns) k 0 else (x.1, x.2)
      | none => (x.1, x.2)
    let t := y.1 - ps16 (s.int 0x1400 0x0F 32)
    let s := (y.2.countEdge 2 x.1).modTime (fun u => { u with
      lastPps := some x.1, ppsMiss := if regular then 0 else if early then u.ppsMiss + 1 else u.ppsMiss
      ppsGood := if regular then u.ppsGood + 1 else 1, ppsTheta := some (t - rhuDiv t sec16 * sec16) })
    if 3 ≤ s.time.ppsGood then s.setPresent 0 true else if 2 ≤ s.time.ppsMiss then s.setPresent 0 false else s

def execPpsInEdge (rising : Bool) (tap : Fin 128) (refin : Option (Nat × Fin 128)) (s : State) : Out := State.next (doPpsInEdge rising tap refin s)

/-- PPS_IN_TIMEOUT (R347): no edge within 1 s ± 100 us, twice in a row. -/
def doPpsInTimeout (s : State) : State :=
  let s := s.modTime (fun u => { u with ppsMiss := u.ppsMiss + 1, ppsGood := 0 })
  if 2 ≤ s.time.ppsMiss then s.setPresent 0 false else s

def execPpsInTimeout (s : State) : Out := State.next (doPpsInTimeout s)

/-- REFIN_GATE (R347): two consecutive gates decide. -/
def doRefinGate (count : Nat) (s : State) : State :=
  let ok := decide (9999000000 ≤ count) && decide (count ≤ 10001000000)
  let s := s.modTime (fun u => { u with refinGood := if ok then u.refinGood + 1 else 0, refinBad := if ok then 0 else u.refinBad + 1 })
  if 2 ≤ s.time.refinGood then s.setPresent 1 true else if 2 ≤ s.time.refinBad then s.setPresent 1 false else s

def execRefinGate (count : Nat) (s : State) : Out := State.next (doRefinGate count s)

/-- REFERENCE_REVERT (R347): the first reference has been present for 60 s without a break. -/
def doReferenceRevert (s : State) : State := s.chooseReference true

def execReferenceRevert (s : State) : Out := State.next (doReferenceRevert s)

/-- HOLDOVER_LIMIT_EXPIRY (R350). -/
def doHoldoverLimitExpiry (s : State) : State := if s.timeState == 4 then s.toTimeState 5 else s

def execHoldoverLimitExpiry (s : State) : Out := State.next (doHoldoverLimitExpiry s)

/-- OCXO_WARM_CHANGE (R346): WARMUP ends once the oscillator shows warm; a later return to cold is a record alone. -/
def doOcxoWarmChange (level : Bool) (s : State) : State :=
  let s := s.modTime (fun t => { t with warm := level })
  let warm := level == (s.num 0x1400 0x0C == 0)
  let used := s.num 0x1400 0x01 == 1 && s.num 0x1400 0x0C != 2
  if s.timeState == 1 && warm then
    (s.endWarmup.steer 0).chooseReference false
  else if used && s.timeState != 1 && !warm then s.issueOpen 0x3A 0x28 0
  else s

def execOcxoWarmChange (level : Bool) (s : State) : Out := State.next (doOcxoWarmChange level s)

/-! ### PPS_OUT (R352) -/

/-- PPS_OUT_PULSE: a whole second of device time, while the sample clock runs. -/
def doPpsOutPulse (s : State) : State := if s.sampleClock then { s with pins := { s.pins with ppsOut := true } } else s

def execPpsOutPulse (s : State) : Out := State.next (doPpsOutPulse s)

/-- PPS_OUT_WIDTH_END. -/
def doPpsOutWidthEnd (s : State) : State := { s with pins := { s.pins with ppsOut := false } }

def execPpsOutWidthEnd (s : State) : Out := State.next (doPpsOutWidthEnd s)

end Sys2Proof.Machine
end

