-- ==== Sys2Proof/Machine/Writes.lean ====
section
/-! DEFINITION. What a write does, whichever transport brought it: the checks of R313 in their order, the draft (R314), the
L writes (R315), the commit and the trial (R334, R335, R61), images and firmware (R339, R340), and the objects whose write
acts. -/

namespace Sys2Proof.Machine

open Sys2Proof

/-- What a request comes to: the status of its answer, or none while admission runs, the state, and what follows once the
answer has left. -/
structure Acted where
  status : Option Nat
  state : State
  post : State → State := id

/-- A reply of a family as an act. -/
def Reply.acted (r : Reply) : Acted := ⟨some r.status, r.state, r.post⟩

/-- An act that is refused and changes nothing. -/
def refuse (status : Nat) (s : State) : Acted := ⟨some status, s, id⟩

/-- An act that is answered OK. -/
def done (s : State) : Acted := ⟨some 0, s, id⟩

/-! ### L writes (R30, R315) -/

/-- The configuration under admission with an L write taken into it. -/
def Admission.setLive (k : Nat) (x : Val) : Admission → Admission
  | .commit v w d => .commit v w (dictSet d k x)
  | .trial d => .trial (dictSet d k x)
  | .boot b d => .boot b (dictSet d k x)

/-- An L write (R7, R30, R315): it reaches the draft at once, and the value in force at the next frame boundary of its route, or at
once while the route has no frame boundaries (assumption log 16). -/
def State.liveWrite (s : State) (k : Nat) (x : Val) : State :=
  let c := s.control
  let c := { c with
    admission := c.admission.map (Admission.setLive k x)
    draft := if c.holder.isSome then dictSet c.draft k x else c.draft
    lw := c.lw.filter (fun e => e.1 != k) }
  if s.hasBoundaries (liveRoute k) then { s with control := { c with lw := c.lw ++ [(k, x)] } }
  else State.applyLive { s with control := c } (k, x)

/-- Whether an L write names a bank that is not valid (R230). -/
def State.badBank (s : State) (k : Nat) (x : Val) : Bool :=
  let bad := fun (r : Route) =>
    let r := s.gov r
    !bankOk (s.cfgOf r) r x.toNat (s.cfg r (at10 0x2610 r) 0x03)
  if k == objKey 0x2610 0x0A then bad .a else if k == objKey 0x2620 0x0A then bad .b else false

/-! ### Commit, trial, abort (R61, R314, R334, R335) -/

/-- Whether the held draft equals its base. -/
def State.draftClean (s : State) : Bool := s.control.draft == s.base

/-- A commit by a client (R334): BUSY while an earlier commit is admitted or waits, but not for a trial (R61); DENIED, R335, or
admission of the draft, answered when it completes. -/
def State.commitAct (s : State) (c : Client) (v : Via) (asWrite : Bool) : Acted :=
  let t := s.control
  if t.admission.any Admission.isCommit || t.pending.isSome || t.writing.isSome then refuse 1 s
  else if s.draftBusy c then refuse 3 s
  else if t.holder.isNone || s.draftClean then done s.releaseDraft
  else ⟨none, ({ s with control := { t with admission := t.admission ++ [Admission.commit v asWrite t.draft] } }).reportDraft, id⟩

/-- A trial (OD 2000.05): admission runs on the draft without commit; the write is answered at once. -/
def State.trialAct (s : State) : Acted :=
  let t := s.control
  if t.admission.any Admission.isCommit || t.pending.isSome then refuse 1 s
  else done { s with control := { t with admission := t.admission ++ [Admission.trial s.draftNow] } }

/-- ABORT of the draft, or OD 1200.08 (R314): the draft returns to its base and is released; BUSY while admitting. The
levels that may write S objects begin at E. -/
def State.abortAct (s : State) (level : Nat) : Acted :=
  if level < 2 then refuse 3 s
  else if s.num 0x1200 0x01 == 2 then refuse 1 s
  else done s.releaseDraft

/-! ### Images and firmware (R339, R340) -/

/-- An import replaces every draft value with the records of the image. -/
def State.importAct (s : State) (c : Client) (b : Bytes) : Acted :=
  let r := importImage s.control.signKey b
  if s.draftBusy c then refuse 1 s
  else if r.1 != 0 then refuse r.1 s
  else
    let s := s.takeDraft c
    done { s with control := { s.control with draft := r.2 } }

/-- A firmware image goes into the slot not running, in MAINTENANCE only. -/
def State.firmwareAct (s : State) (b : Bytes) : Acted :=
  if s.mode != 6 then refuse 9 s
  else
    let r := parseFirmware Config.firmwareKey Config.minFirmware b
    if r.1 != 0 then refuse r.1 s
    else
      let c := s.control
      done { s with control := if c.fwRunning then { c with fwA := r.2 } else { c with fwB := r.2 } }

/-- OD 1210.11: the slot written boots at the next reset. -/
def State.activateAct (s : State) : Acted := done { s with control := { s.control with fwActivate := true } }

/-! ### Objects whose write acts -/

/-- A write of an identity or control object (Table 12.7). -/
def State.controlWrite (s : State) (c : Client) (level : Nat) (v : Via) (idx sub : Nat) (x : Val) : Acted :=
  let t := s.control
  match idx, sub with
  | 0x1130, 0x10 => done { s with control := { t with keyO := x.toBytes } }
  | 0x1130, 0x12 => done { s with control := { t with keyP := x.toBytes } }
  | 0x1130, 0x13 => done { s with control := { t with keyE := x.toBytes } }
  | 0x1200, 0x02 => s.commitAct c v true
  | 0x1200, 0x08 => s.abortAct level
  | 0x1200, 0x11 => s.importAct c x.toBytes
  | 0x1200, 0x14 => done { s with control := { t with signKey := x.toBytes } }
  | 0x1210, 0x10 => s.firmwareAct x.toBytes
  | 0x1210, 0x11 => s.activateAct
  | _, _ => done (s.setVal (objKey idx sub) x)

/-- A write of an object of modes, time, clocks, memory, integrity or housekeeping. -/
def State.unitWrite (s : State) (level : Nat) (bist : Option Bool) (idx sub : Nat) (x : Val) : Acted :=
  let n := x.toNat
  match idx, sub with
  | 0x1300, 0x01 => (modeRequest n level s).acted
  | 0x1300, 0x09 => (resetRequest (n == 1) s).acted
  | 0x1400, 0x12 => (timeSetWrite (ofTime80 x.toBytes) s).acted
  | 0x1500, 0x01 => (alwaysOnWrite n s).acted
  | 0x1510, 0x11 => (domainWrite 0 n s).acted
  | 0x1510, 0x12 => (domainWrite 1 n s).acted
  | 0x1510, 0x13 => (domainWrite 2 n s).acted
  | 0x1510, 0x14 => (domainWrite 3 n s).acted
  | 0x1520, 0x01 =>
    let r := gateWrite n s
    ({ r with state := r.state.openGates (s.num 0x1520 0x02) } : Reply).acted
  | 0x1600, 0x0D => (retrainWrite s).acted
  | 0x1700, 0x02 =>
    match bist with
    | some b => (faultClearWrite b s).acted
    | none => let (v, s) := s.draw; (faultClearWrite (v % 2 == 1) s).acted
  | 0x1700, 0x20 => (bistWrite n s).acted
  | 0x1700, 0x50 => (scanWrite s).acted
  | 0x1800, 0x03 => (sequenceWrite s).acted
  | 0x1800, 0x08 => (injectedWrite s).acted
  | 0x1850, 0x03 => (hkaCalWrite s).acted
  | _, _ => done (s.setVal (objKey idx sub) x)

/-- A write of an object of the routes, captures, the survey or the log. -/
def State.routeWrite (s : State) (c : Client) (idx sub : Nat) (x : Val) : Acted :=
  match idx, sub with
  | 0x2000, 0x05 => s.trialAct
  | 0x2160, 0x07 => (restoreWrite .a s).acted
  | 0x2260, 0x07 => (restoreWrite .b s).acted
  | 0x2190, 0x05 => (calibrationWrite .a s).acted
  | 0x2290, 0x05 => (calibrationWrite .b s).acted
  | 0x2510, 0x0A => (attenCalWrite .a s).acted
  | 0x2520, 0x0A => (attenCalWrite .b s).acted
  | 0x2A00, 0x08 => (registerWrite c s).acted
  | 0x2A00, 0x09 => (surveyRunWrite s).acted
  | 0x5000, 0x11 => (clearLogWrite s).acted
  | _, _ =>
    if decide (0x2840 ≤ idx) && decide (idx ≤ 0x28B0) && idx % 16 == 0 && sub == 0x18 then
      (reArmWrite (Fin.ofNat 8 ((idx - 0x2840) / 16)) s).acted
    else if decide (0x2840 ≤ idx) && decide (idx ≤ 0x28B0) && idx % 16 == 0 && sub == 0x19 then
      (hostTriggerWrite (Fin.ofNat 8 ((idx - 0x2840) / 16)) s).acted
    else done (s.setVal (objKey idx sub) x)

/-- The effect of a write that has passed its checks: on the draft, live, or the act of its object. -/
def State.writeAct (s : State) (c : Client) (level : Nat) (v : Via) (bist : Option Bool) (idx sub : Nat) (o : ObjRow) (x : Val) :
    Acted :=
  let k := objKey idx sub
  if o.live then (if s.badBank k x then refuse 7 s else done (s.liveWrite k x))
  else if o.draft then done ((s.takeDraft c).setDraft k x)
  else if idx < 0x1300 then s.controlWrite c level v idx sub x
  else if idx < 0x2000 then s.unitWrite level bist idx sub x
  else s.routeWrite c idx sub x

/-! ### The checks of R313 -/

/-- Steps 1 to 3 of R313. -/
def State.mayWrite (s : State) (level idx sub : Nat) (o : ObjRow) : Nat :=
  match o.wr with
  | none => 3
  | some l =>
    if level < l then 3
    else if s.mode == 7 && !(idx == 0x1300 && sub == 0x01) && !(idx == 0x1700 && sub == 0x02) then 9
    else 0

/-- Step 4 of R313: whether the write would reach a draft that another client holds. -/
def State.draftRefused (s : State) (c : Client) (idx sub : Nat) (o : ObjRow) : Bool :=
  ((o.draft && !o.live) || (idx == 0x1200 && sub == 0x11)) && s.draftBusy c

/-- Whether an object is read and written by block transfer alone (R320): a DOMAIN, or an STR longer than 1,396 bytes. -/
def blockOnly (o : ObjRow) (len : Nat) : Bool := o.ty == .domain || (o.ty == .str && decide (1396 < len))

/-- A write of an object by a client of a level: the checks of R313, then the effect. `ty` is the type code of a BDP WRITE,
none over CAN or at the end of a block write; `block` tells of a transfer that may carry a DOMAIN. -/
def State.writeObject (s : State) (c : Client) (level : Nat) (v : Via) (bist : Option Bool) (idx sub : Nat) (ty : Option Nat)
    (block : Bool) (b : Bytes) : Acted :=
  match findObj idx sub with
  | .noObject => refuse 4 s
  | .noSubindex => refuse 5 s
  | .count _ => refuse 3 s
  | .row o =>
    let m := s.mayWrite level idx sub o
    let x := ofWire o.ty b
    if m != 0 then refuse m s
    else if s.draftRefused c idx sub o then refuse 1 s
    else if (!block && blockOnly o b.length) || (match ty with | some t => t != o.ty.code | none => false)
      || !lengthOk o.ty b.length then refuse 6 s
    else if !inRange o x then refuse 7 s
    else s.writeAct c level v bist idx sub o x

end Sys2Proof.Machine
end

