-- ==== Sys2Proof/Machine/Control.lean ====
section
/-! DEFINITION. The control protocol (12_dictionary.md): BDP messages, sessions, sequence numbers and the response cache,
block transfers, subscriptions, the SDO server over CAN FD, admission and image writes as commands, NET links and the
telemetry stream. -/

namespace Sys2Proof.Machine

open Sys2Proof

/-! ### Messages (R317, R318) -/

/-- The header of Table 12.2. -/
def bdpHeader (op flags status sid seq len : Nat) : Bytes :=
  [1, byteOf op, byteOf flags, byteOf status] ++ beBytes 4 sid ++ beBytes 4 seq ++ beBytes 2 len ++ [0, 0]

/-- Header and body of a message. -/
def bdpMessage (op flags status sid seq : Nat) (body : Bytes) : Bytes := bdpHeader op flags status sid seq body.length ++ body

/-- The MAC of a message under a session key (R324). -/
def bdpMac (key m : Bytes) : Bytes := (hmac key m).take 16

/-- A datagram of a session: header, body and MAC. -/
def sealed (key m : Bytes) : Bytes := m ++ bdpMac key m

/-- An answer without a body and without a MAC (R325, R326). -/
def State.bare (s : State) (a : Peer) (op status sid seq : Nat) : State :=
  s.emit (.bdp a (bdpMessage op 128 status sid seq []))

/-- Whether BDP messages that arrive on a link reach the Keeper (R33, R316). -/
def State.bdpServes (s : State) (n : NetPort) : Bool := s.keeperServes && s.mode != 0 && netUp s n

/-! ### Sessions (R323 to R326) -/

/-- The key of a level; an empty key acts as 32 zero bytes (R323). -/
def Control.levelKey (c : Control) (level : Nat) : Bytes :=
  let k := match level with
    | 0 => c.keyO
    | 1 => c.keyP
    | 2 => c.keyE
    | _ => Config.vendorKey
  if k.isEmpty then List.replicate 32 0 else k

/-- The proof of R324 under a label. -/
def proofOf (key : Bytes) (label : String) (sid : W32) (nh nd : Bytes) (level : Nat) : Bytes :=
  hmac key (ascii label ++ beBytes 4 sid.toNat ++ nh ++ nd ++ [byteOf level])

/-- The session key of R324. -/
def sessionKey (key : Bytes) (sid : W32) (nh nd : Bytes) : Bytes :=
  hmac key (ascii "BDP-SESSION" ++ beBytes 4 sid.toNat ++ nh ++ nd)

/-- The open session of an identifier. -/
def State.session (s : State) (id : W32) : Option Session := s.control.sessions.find? (fun x => x.id == id)

/-- Updates an open session. -/
def State.modSession (s : State) (id : W32) (f : Session → Session) : State :=
  { s with control := { s.control with sessions := s.control.sessions.map (fun x => if x.id == id then f x else x) } }

/-- Ends a session (R314, R322, R326, R329): its block write and subscriptions go, a draft it holds is released. -/
def State.endSession (s : State) (id : W32) : State :=
  let c := s.control
  let s := { s with control := { c with
    sessions := c.sessions.filter (fun x => x.id != id), subs := c.subs.filter (fun x => x.session != id) } }
  if c.holder == some (.session id) then s.releaseDraft else s

/-- The first identifier at or after a drawn one that is not zero and not in use. -/
def freshId (used : List W32) (v : Nat) : W32 :=
  (((List.range (used.length + 1)).map (fun i => BitVec.ofNat 32 (1 + (v + i) % (2 ^ 32 - 1)))).find?
    (fun x => !used.contains x)).getD 1

/-- OPEN (R324, R325): a challenge with a random identifier and nonce. -/
def doOpenSession (a : Peer) (seq : W32) (level : Byte) (nonce : Bytes) (s : State) : State :=
  let c := s.control
  if !s.bdpServes a.net then s
  else if s.mode == 1 then s.bare a 0x10 2 0 seq.toNat
  else if 3 < level.toNat || nonce.length != 16 then s.bare a 0x10 7 0 seq.toNat
  else if c.lockout || s.integrity.otpLocked then s.bare a 0x10 11 0 seq.toNat
  else if 16 ≤ c.sessions.length then s.bare a 0x10 1 0 seq.toNat
  else
    let (v, s) := s.draw
    let (n, s) := s.draw
    let id := freshId (c.sessions.map (·.id) ++ c.challenges.map (·.id)) v
    let nd := beBytes 16 (n % 2 ^ 128)
    let ch : Challenge := { id := id, level := level.toNat, hostNonce := nonce, deviceNonce := nd }
    let s : State := { s with control := { s.control with challenges := s.control.challenges ++ [ch] } }
    s.emit (.bdp a (bdpMessage 0x11 128 0 id.toNat seq.toNat (beBytes 4 id.toNat ++ nd)))

def execOpenSession (a : Peer) (seq : W32) (level : Byte) (nonce : Bytes) (s : State) : Out :=
  State.next (doOpenSession a seq level nonce s)

/-- A failed proof (R325): the identifier is dropped, and 8 within 10 s begin the lock-out. -/
def State.proofFailed (s : State) : State :=
  let s := s.bump 0x1130 0x21 1
  let l := (s.control.proofFails.filter (fun t => decide (s.cyc < t + 10000000000))) ++ [s.cyc]
  { s with control := { s.control with proofFails := l, lockout := s.control.lockout || decide (8 ≤ l.length) } }

/-- PROOF (R324, R325): the session opens and ACCEPT leaves under its key, or AUTH_FAILED. -/
def doProof (a : Peer) (seq session : W32) (p : Bytes) (s : State) : State :=
  let sid := session.toNat
  if !s.bdpServes a.net then s
  else if s.mode == 1 then s.bare a 0x12 2 sid seq.toNat
  else if p.length != 32 then s.bare a 0x12 7 sid seq.toNat
  else match s.control.challenges.find? (fun x => x.id == session) with
    | none => s.bare a 0x12 10 sid seq.toNat
    | some ch =>
      let drop := s.control.challenges.filter (fun x => x.id != session)
      let key := s.control.levelKey ch.level
      if p != proofOf key "BDP-PROOF" session ch.hostNonce ch.deviceNonce ch.level then
        let t : State := { s with control := { s.control with challenges := drop } }
        t.proofFailed.bare a 0x12 11 sid seq.toNat
      else if 16 ≤ s.control.sessions.length then s.bare a 0x12 1 sid seq.toNat
      else
        let ks := sessionKey key session ch.hostNonce ch.deviceNonce
        let x : Session :=
          { id := session, level := ch.level, key := ks, highest := 0, window := [], read := none, block := none, notifySeq := 0 }
        let s := { s with control := { s.control with challenges := drop, sessions := s.control.sessions ++ [x] } }
        let body := beBytes 4 sid ++ proofOf key "BDP-ACCEPT" session ch.hostNonce ch.deviceNonce ch.level
        s.emit (.bdp a (sealed ks (bdpMessage 0x13 128 0 sid seq.toNat body)))

def execProof (a : Peer) (seq session : W32) (p : Bytes) (s : State) : Out := State.next (doProof a seq session p s)

/-- CHALLENGE_LAPSE (R325): a CHALLENGE not followed by its PROOF within 2 s. -/
def doChallengeLapse (session : W32) (s : State) : State :=
  { s with control := { s.control with challenges := s.control.challenges.filter (fun x => x.id != session) } }

def execChallengeLapse (session : W32) (s : State) : Out := State.next (doChallengeLapse session s)

/-- AUTH_LOCKOUT_END (R325). -/
def doAuthLockoutEnd (s : State) : State :=
  if s.control.lockout then { s with control := { s.control with lockout := false, proofFails := [] } } else s

def execAuthLockoutEnd (s : State) : Out := State.next (doAuthLockoutEnd s)

/-- SESSION_IDLE_TIMEOUT (R326): OD 1130.03 has passed without a verified request. -/
def doSessionIdleTimeout (session : W32) (s : State) : State :=
  if (s.session session).isSome then s.endSession session else s

def execSessionIdleTimeout (session : W32) (s : State) : Out := State.next (doSessionIdleTimeout session s)

/-! ### Requests, sequence numbers and the cache (R327) -/

/-- How a sequence number stands in its session. -/
inductive SeqCase where
  | fresh | executed | stale
  deriving DecidableEq, Repr

/-- R327: above the highest, or within the 64 below it and not yet executed, a request is new. -/
def Session.seqCase (x : Session) (n : Nat) : SeqCase :=
  if x.highest < n then .fresh
  else if n == x.highest || x.window.contains n then .executed
  else if x.highest ≤ n + 64 then .fresh
  else .stale

/-- Marks a sequence number executed. -/
def Session.execute (x : Session) (n : Nat) : Session :=
  let h := Nat.max x.highest n
  { x with highest := h, window := ((x.window ++ [x.highest, n]).eraseDups).filter (fun k => k != h && decide (h ≤ k + 64)) }

/-- Takes a response into the cache of the last 128 executed requests. -/
def State.cacheAnswer (s : State) (id : W32) (seq : Nat) (m : Bytes) : State :=
  let l := s.control.cache ++ [{ session := id, seq := seq, bytes := m }]
  { s with control := { s.control with cache := l.drop (l.length - 128) } }

/-- Answers a request of a session: every response but BUSY and REFUSED_BRINGUP marks it executed and is cached (R327). -/
def State.answer (s : State) (a : Peer) (key : Bytes) (id : W32) (seq op flags status : Nat) (body : Bytes) : State :=
  let m := sealed key (bdpMessage op (128 + flags) status id.toNat seq body)
  let s := if status == 1 || status == 2 then s else (s.modSession id (fun x => x.execute seq)).cacheAnswer id seq m
  s.emit (.bdp a m)

/-- The body of a COMMIT answer (Table 12.3). -/
def State.commitBody (s : State) : Bytes :=
  let seq := match s.control.pending with
    | some p => p.seq
    | none => s.num 0x1200 0x03
  beBytes 4 (s.readObj 0x2000 0x01).toNat ++ beBytes 4 (s.num 0x2000 0x07) ++ beBytes 4 seq

/-- The body of an answer that refuses an operation of a session: empty, but for COMMIT (R318). -/
def State.refusedBody (s : State) (op : Nat) : Bytes := if op = 5 then s.commitBody else []

/-- What executing a request comes to: status, flags and body of its answer, or none while admission runs; the state; what
follows once the answer has left. -/
structure Ans where
  answer : Option (Nat × Nat × Bytes)
  state : State
  post : State → State := id

/-- An answer that carries a status alone. -/
def failAns (status : Nat) (s : State) : Ans := ⟨some (status, 0, []), s, id⟩

/-- The answer of an act with its body when the status is OK. -/
def Acted.ans (x : Acted) (body : Bytes) : Ans :=
  ⟨x.status.map (fun n => (n, 0, if n = 0 then body else [])), x.state, x.post⟩

/-- Executes a request that is new, and answers it. -/
def State.runRequest (s : State) (a : Peer) (x : Session) (seq op : Nat) (f : Session → State → Ans) : State :=
  let y := f x s
  match y.answer with
  | none => y.state
  | some r => y.post (y.state.answer a x.key x.id seq op r.2.1 r.1 r.2.2)

/-- A request of a session as it arrives, `m` its header and body (R316, R325 to R327). -/
def State.requestRaw (s : State) (r : Req) (op : Nat) (m : Bytes) (f : Session → State → Ans) : State :=
  let a := r.peer
  let seq := r.seq.toNat
  if !s.bdpServes a.net then s
  else if s.mode == 1 then s.bare a op 2 r.session.toNat seq
  else match s.session r.session with
    | none => s.bare a op 10 r.session.toNat seq
    | some x =>
      if r.mac != bdpMac x.key m then s.bump 0x1130 0x21 1
      else match x.seqCase seq with
        | .fresh => s.runRequest a x seq op f
        | .stale => s.emit (.bdp a (sealed x.key (bdpMessage op 128 10 r.session.toNat seq (s.refusedBody op))))
        | .executed =>
          match s.control.cache.find? (fun c => c.session == r.session && c.seq == seq) with
          | some c => (s.bump 0x1130 0x22 1).emit (.bdp a c.bytes)
          | none => s.emit (.bdp a (sealed x.key (bdpMessage op 128 10 r.session.toNat seq (s.refusedBody op))))

/-- A well-formed request of a session. -/
def State.request (s : State) (r : Req) (op flags : Nat) (body : Bytes) (f : Session → State → Ans) : State :=
  s.requestRaw r op (bdpMessage op flags 0 r.session.toNat r.seq.toNat body) f

/-! ### Reads (R313, R314, R320, R321) -/

/-- The bytes and type of a read at a level, or the status that refuses it. A count of sub-indices is a U8; R6 gives sub-index 00 no access
code: it is read at any level, and a write of it is DENIED (DESIGN CHOICE, assumption log 43). -/
def State.readBytes (s : State) (level idx sub : Nat) (draft : Bool) : Nat × Ty × Bytes :=
  match findObj idx sub with
  | .noObject => (4, .u8, [])
  | .noSubindex => (5, .u8, [])
  | .count n => (0, .u8, [byteOf n])
  | .row o =>
    match o.rd with
    | none => (3, o.ty, [])
    | some l =>
      if level < l then (3, o.ty, [])
      else
        let k := objKey idx sub
        let v := if draft && o.draft then dictGet s.draftNow k else s.readObj idx sub
        (0, o.ty, wireBytes o.ty v)

/-- The capture slot whose data an object is (R284, R287). -/
def captureData (idx sub : Nat) : Option (Fin 8) :=
  if decide (0x2840 ≤ idx) && decide (idx ≤ 0x28B0) && idx % 16 == 0 && sub == 0x31 then some (Fin.ofNat 8 ((idx - 0x2840) / 16))
  else none

/-- Whether the object is the data of a slot in CAPTURING: its read is answered BUSY (R284). -/
def State.captureBusy (s : State) (idx sub : Nat) : Bool :=
  match captureData idx sub with
  | some k => s.num (capIdx k) 0x20 == 2
  | none => false

/-- The host has read the data of a slot: a retained capture in continuous mode re-arms (R276, R287). -/
def State.captureRead (s : State) (idx sub : Nat) : State :=
  match captureData idx sub with
  | none => s
  | some k =>
    let x := s.capture.get k
    match x.held with
    | some h =>
      if h.retained && s.num (capIdx k) 0x20 == 3 && s.num (capIdx k) 0x0C != 0 then
        (s.setSlot k { x with held := some { h with retained := false } }).slotState k 1
      else s
    | none => s

/-- Whether a slot holds a capture to read. -/
def State.holds (s : State) (k : Nat) : Bool := (s.capture.get (Fin.ofNat 8 k)).held.isSome

/-- The DRAM requests of a read of the event log, in the reserve; where its records lie there is free (R370, R447). -/
def State.requestLog (s : State) (n : Nat) : State :=
  (List.range (cdiv n 64)).foldl (fun (s : State) _ =>
    let (v, s) := s.draw
    s.request1 s.loneChannel (s.usableBytes / 64 + v % 2 ^ 20) 4 .host none) s

/-- A block read of an object that lies in DRAM, a capture or the event log: its requests, of class 4 (R373), and the bursts found in error
(R386). -/
def State.domainRead (s : State) (idx sub off n : Nat) (errors : List BurstError) : State :=
  if idx == 0x5000 && sub == 0x10 then (s.requestLog n).readLoss errors
  else
    match captureData idx sub with
    | none => s
    | some k =>
      if !s.holds k then s
      else
        let ch : Fin 2 := if s.bothChannels then Fin.ofNat 2 k else s.loneChannel
        let at' := areaAddr s.layout k + (if sub == 0x31 then 64 else 0) + off
        (s.requestLocal ch at' n 4 .host).readLoss errors

/-- Index and sub-index as a body begins. -/
def objHead (idx sub : Nat) (last : Nat) : Bytes := beBytes 2 idx ++ [byteOf sub, byteOf last]

/-- READ of one object. -/
def readOp (draft : Bool) (idx sub : Nat) (x : Session) (s : State) : Ans :=
  let r := s.readBytes x.level idx sub draft
  if r.1 != 0 then failAns r.1 s
  else if r.2.1 == .domain || (r.2.1 == .str && decide (1396 < r.2.2.length)) then failAns 6 s
  else ⟨some (0, 0, objHead idx sub r.2.1.code ++ r.2.2), s, id⟩

/-- READ (R318). -/
def doRead (r : Req) (draft : Bool) (idx : BitVec 16) (sub : Byte) (s : State) : State :=
  s.request r 0x01 (b2n draft * 64) (objHead idx.toNat sub.toNat 0) (readOp draft idx.toNat sub.toNat)

def execRead (r : Req) (draft : Bool) (idx : BitVec 16) (sub : Byte) (s : State) : Out := State.next (doRead r draft idx sub s)

/-- READ_BLOCK (R320, R321): a copy of an object of at most 65,536 bytes serves the fragments after offset 0; a larger
object is read directly, CHANGED telling of a change since. Only a read that no copy serves reaches the DRAM. -/
def readBlockOp (idx sub off max : Nat) (errors : List BurstError) (x : Session) (s : State) : Ans :=
  let k := objKey idx sub
  let r := s.readBytes x.level idx sub false
  if max < 1 || 1388 < max then failAns 7 s
  else if r.1 != 0 then failAns r.1 s
  else if s.captureBusy idx sub then failAns 1 s
  else if !(r.2.1 == .domain || (r.2.1 == .str && decide (1396 < r.2.2.length))) then failAns 6 s
  else
    let buf := match x.read with
      | some b => if b.key == k then some b else none
      | none => none
    let copy := match buf with
      | some b => if off != 0 && decide (b.copy.length ≤ 65536) then some b.copy else none
      | none => none
    let beyond := decide ((copy.getD r.2.2).length < off)
    let s := if beyond || copy.isSome then s else s.domainRead idx sub off max errors
    let now := (s.readBytes x.level idx sub false).2.2
    let src := copy.getD now
    let changed := match buf with
      | some b => off != 0 && decide (65536 < b.copy.length) && (b.touched || b.copy != now)
      | none => false
    if beyond then failAns 7 s
    else
      let s := if off = 0 then s.modSession x.id (fun y => { y with read := some { key := k, copy := now, touched := false } }) else s
      let part := (src.drop off).take max
      let s := if src.length ≤ off + part.length then s.captureRead idx sub else s
      ⟨some (0, b2n changed * 32, objHead idx sub 0 ++ beBytes 4 src.length ++ beBytes 4 off ++ part), s, id⟩

def doReadBlock (r : Req) (idx : BitVec 16) (sub : Byte) (off : W32) (max : BitVec 16) (errors : List BurstError) (s : State) : State :=
  s.request r 0x03 0 (objHead idx.toNat sub.toNat 0 ++ beBytes 4 off.toNat ++ beBytes 2 max.toNat)
    (readBlockOp idx.toNat sub.toNat off.toNat max.toNat errors)

def execReadBlock (r : Req) (idx : BitVec 16) (sub : Byte) (span : BlockSpan) (errors : List BurstError) (s : State) : Out :=
  State.next (doReadBlock r idx sub span.off span.max errors s)

/-! ### Writes (R313, R322) -/

/-- Marks the read buffers that hold a written object (R321). -/
def State.touch (s : State) (k : Nat) : State :=
  { s with control := { s.control with sessions := s.control.sessions.map (fun x =>
      { x with read := x.read.map (fun b => if b.key == k then { b with touched := true } else b) }) } }

/-- A write that was carried out touches its object. -/
def Acted.touched (x : Acted) (k : Nat) : Acted := if x.status == some 0 then { x with state := x.state.touch k } else x

/-- WRITE of one object by a session. -/
def writeOp (v : Via) (bist : Option Bool) (idx sub ty : Nat) (b : Bytes) (x : Session) (s : State) : Ans :=
  ((s.writeObject (.session x.id) x.level v bist idx sub (some ty) false b).touched (objKey idx sub)).ans (objHead idx sub ty)

/-- A WRITE message: index, sub-index, type code and value. -/
def State.bdpWrite (s : State) (r : Req) (bist : Option Bool) (idx sub ty : Nat) (b : Bytes) : State :=
  s.request r 0x02 0 (objHead idx sub ty ++ b) (writeOp (.bdp r) bist idx sub ty b)

def doWrite (r : Req) (idx : BitVec 16) (sub ty : Byte) (b : Bytes) (s : State) : State :=
  s.bdpWrite r none idx.toNat sub.toNat ty.toNat b

def execWrite (r : Req) (idx : BitVec 16) (sub ty : Byte) (b : Bytes) (s : State) : Out := State.next (doWrite r idx sub ty b s)

/-- The FIRST fragment of a WRITE_BLOCK (R313 step 4, R322): the status that refuses it. The draft of another client comes first,
then the offset and the total size of an object that block transfer carries; the other steps wait for LAST. -/
def State.firstFragment (s : State) (c : Client) (f : Fragment) (idx sub : Nat) : Nat :=
  match findObj idx sub with
  | .noObject => 4
  | .noSubindex => 5
  | .count _ => if f.off != 0 then 7 else 0
  | .row o =>
    if s.draftRefused c idx sub o then 1
    else if f.off != 0 || (blockOnly o f.total.toNat && !inRange o (.blob (List.replicate f.total.toNat 0))) then 7
    else 0

/-- The type code under which a block write of an object is judged at LAST: an object that block transfer does not carry (R320)
fails step 5 of R313 under a code that no type has. -/
def blockType (idx sub len : Nat) : Option Nat :=
  match findObj idx sub with
  | .row o => if blockOnly o len then none else some 255
  | _ => none

/-- Whether a fragment fits its block write: it starts at the bytes received, stays within the total, and LAST completes it
(R322). -/
def fragmentFits (f : Fragment) (w : BlockWrite) : Bool :=
  let n := w.data.length + f.data.length
  f.off.toNat == w.data.length && decide (n ≤ w.total) && (!f.last || n == w.total)

/-- Whether the object of a block write takes the draft at its FIRST fragment. -/
def takesDraft (idx sub : Nat) : Bool :=
  match findObj idx sub with
  | .row o => o.draft || (idx == 0x1200 && sub == 0x11)
  | _ => false

/-- A fragment appended to the open block write; with LAST the object is checked as a whole and written. -/
def blockAppend (v : Via) (f : Fragment) (idx sub : Nat) (x : Session) (w : BlockWrite) (s : State) : Ans :=
  let b := w.data ++ f.data
  if !fragmentFits f w then failAns 7 s
  else
    let body := objHead idx sub 0 ++ beBytes 4 b.length
    if f.last then
      let s := s.modSession x.id (fun y => { y with block := none })
      ((s.writeObject (.session x.id) x.level v none idx sub (blockType idx sub b.length) true b).touched (objKey idx sub)).ans body
    else ⟨some (0, 0, body), s.modSession x.id (fun y => { y with block := some { w with data := b } }), id⟩

/-- WRITE_BLOCK by a session (R322): FIRST opens the block write, and takes the draft of an object that carries S (R314); a message that is
LAST too leaves that to the write, since a write that fails changes nothing (R313); while one is open, a fragment of its object goes on with it,
and another object is BUSY. -/
def writeBlockOp (v : Via) (f : Fragment) (idx sub : Nat) (x : Session) (s : State) : Ans :=
  let k := objKey idx sub
  if s.mode == 7 then failAns 9 s
  else if f.data.length < 1 || 1388 < f.data.length then failAns 7 s
  else match x.block with
    | some w => if w.key != k then failAns 1 s else if f.first then failAns 7 s else blockAppend v f idx sub x w s
    | none =>
      let w : BlockWrite := { key := k, total := f.total.toNat, data := [] }
      let n := if f.first then s.firstFragment (.session x.id) f idx sub else 7
      if n != 0 then failAns n s
      else if !fragmentFits f w then failAns 7 s
      else
        let s := if takesDraft idx sub && !f.last then s.takeDraft (.session x.id) else s
        blockAppend v f idx sub x w (s.modSession x.id (fun y => { y with block := some w }))

/-- A WRITE_BLOCK message. -/
def State.bdpWriteBlock (s : State) (r : Req) (f : Fragment) (idx sub : Nat) : State :=
  s.request r 0x04 0 (objHead idx sub (b2n f.last * 2 + b2n f.first) ++ beBytes 4 f.off.toNat ++ beBytes 4 f.total.toNat ++ f.data)
    (writeBlockOp (.bdp r) f idx sub)

def doWriteBlock (r : Req) (f : Fragment) (idx : BitVec 16) (sub : Byte) (s : State) : State :=
  s.bdpWriteBlock r f idx.toNat sub.toNat

def execWriteBlock (r : Req) (f : Fragment) (idx : BitVec 16) (sub : Byte) (s : State) : Out := State.next (doWriteBlock r f idx sub s)

/-- IMAGE_IMPORT (R339): WRITE_BLOCK of OD 1200.11. -/
def doImageImport (r : Req) (f : Fragment) (s : State) : State := s.bdpWriteBlock r f 0x1200 0x11

def execImageImport (r : Req) (f : Fragment) (s : State) : Out := State.next (doImageImport r f s)

/-- FIRMWARE_IMAGE (R340): WRITE_BLOCK of OD 1210.10. -/
def doFirmwareImage (r : Req) (f : Fragment) (s : State) : State := s.bdpWriteBlock r f 0x1210 0x10

def execFirmwareImage (r : Req) (f : Fragment) (s : State) : Out := State.next (doFirmwareImage r f s)

/-- ABORT with target 1 (R322). -/
def abortBlockOp (x : Session) (s : State) : Ans := ⟨some (0, 0, []), s.modSession x.id (fun y => { y with block := none }), id⟩

def doAbortBlockWrite (r : Req) (s : State) : State := s.request r 0x06 0 [1] abortBlockOp

def execAbortBlockWrite (r : Req) (s : State) : Out := State.next (doAbortBlockWrite r s)

/-- CLOSE (R326): the answer leaves under the session's key, then the session ends. -/
def closeOp (x : Session) (s : State) : Ans := ⟨some (0, 0, []), s, fun t => t.endSession x.id⟩

def doCloseSession (r : Req) (s : State) : State := s.request r 0x14 0 [] closeOp

def execCloseSession (r : Req) (s : State) : Out := State.next (doCloseSession r s)

/-- Whether a request is malformed (R318): unknown OP, reserved bits, STATUS or DRAFT where they do not belong, a LENGTH that
disagrees with the datagram, or a body that does not fit its operation. -/
def malformed (m : Bytes) : Bool :=
  let op := beField m 1 1
  let n := m.length - 16
  let fits := match op with
    | 0x01 => n == 4
    | 0x02 => decide (4 ≤ n)
    | 0x03 => n == 10
    | 0x04 => decide (13 ≤ n) && decide (n ≤ 1400)
    | 0x05 => n == 0
    | 0x06 => n == 1
    | 0x07 => n == 8
    | 0x14 => n == 0
    | _ => false
  let pad := match op with
    | 0x01 => beField m 19 1 == 0
    | 0x03 => beField m 19 1 == 0
    | 0x04 => decide (beField m 19 1 < 4)
    | 0x06 => decide (beField m 16 1 < 2)
    | 0x07 => decide (beField m 19 1 < 3)
    | _ => true
  let flags := beField m 2 1
  !fits || !pad || !(flags == 0 || (flags == 64 && op == 1)) || beField m 3 1 != 0 || beField m 14 2 != 0 || beField m 12 2 != n

/-- BDP_INVALID_REQUEST (R317, R318): a malformed request whose MAC verifies is answered OUT_OF_RANGE; another VERSION is
discarded. -/
def doBdpInvalidRequest (r : Req) (op : Byte) (raw : Bytes) (s : State) : State :=
  if raw.length < 16 || beField raw 0 1 != 1 || beField raw 1 1 != op.toNat || beField raw 4 4 != r.session.toNat
    || beField raw 8 4 != r.seq.toNat || !malformed raw then s
  else s.requestRaw r op.toNat raw (fun _ s => ⟨some (7, 0, s.refusedBody op.toNat), s, id⟩)

def execBdpInvalidRequest (r : Req) (op : Byte) (raw : Bytes) (s : State) : Out := State.next (doBdpInvalidRequest r op raw s)

/-! ### Subscriptions (R329) -/

/-- Sends NOTIFY with the value of a subscription and counts it. -/
def State.notify (s : State) (b : Subscription) (ty : Ty) (v : Bytes) : State :=
  match s.session b.session with
  | none => s
  | some x =>
    let n := x.notifySeq + 1
    let idx := b.key / 256
    let sub := b.key % 256
    let m := sealed x.key (bdpMessage 0x08 0 0 b.session.toNat n (objHead idx sub ty.code ++ v))
    let s := s.modSession b.session (fun y => { y with notifySeq := n })
    let s := { s with control := { s.control with subs := s.control.subs.map (fun (c : Subscription) =>
      if c.session == b.session && c.key == b.key then { c with last := some (.blob v) } else c) } }
    s.emit (.bdp b.peer m)

/-- The subscription of a session to an object. -/
def State.subscription (s : State) (id : W32) (k : Nat) : Option Subscription :=
  s.control.subs.find? (fun b => b.session == id && b.key == k)

/-- SUBSCRIBE with mode 1 or 2 (R329); mode 1 notifies once at once. -/
def subscribeOp (a : Peer) (mode idx sub interval : Nat) (x : Session) (s : State) : Ans :=
  let k := objKey idx sub
  let r := s.readBytes x.level idx sub false
  let others := s.control.subs.filter (fun b => !(b.session == x.id && b.key == k))
  if r.1 != 0 then failAns r.1 s
  else if r.2.1 == .domain then failAns 6 s
  else if interval < 10 || 60000 < interval then failAns 7 s
  else if 64 ≤ others.length then failAns 1 s
  else
    let b : Subscription := { session := x.id, key := k, mode := mode, interval := interval, peer := a, last := none }
    let s := { s with control := { s.control with subs := others ++ [b] } }
    ⟨some (0, 0, objHead idx sub mode), s, fun t => if mode = 1 then t.notify b r.2.1 r.2.2 else t⟩

/-- SUBSCRIBE with mode 0. -/
def unsubscribeOp (idx sub : Nat) (x : Session) (s : State) : Ans :=
  let k := objKey idx sub
  let r := s.readBytes x.level idx sub false
  if r.1 != 0 then failAns r.1 s
  else
    let s := { s with control := { s.control with subs := s.control.subs.filter (fun b => !(b.session == x.id && b.key == k)) } }
    ⟨some (0, 0, objHead idx sub 0), s, id⟩

/-- The body of a SUBSCRIBE. -/
def subscribeBody (idx sub mode interval : Nat) : Bytes := objHead idx sub mode ++ beBytes 4 interval

def doSubscribeCancel (r : Req) (idx : BitVec 16) (sub : Byte) (interval : W32) (s : State) : State :=
  s.request r 0x07 0 (subscribeBody idx.toNat sub.toNat 0 interval.toNat) (unsubscribeOp idx.toNat sub.toNat)

def execSubscribeCancel (r : Req) (idx : BitVec 16) (sub : Byte) (interval : W32) (s : State) : Out :=
  State.next (doSubscribeCancel r idx sub interval s)

def doSubscribeOnChange (r : Req) (idx : BitVec 16) (sub : Byte) (interval : W32) (s : State) : State :=
  s.request r 0x07 0 (subscribeBody idx.toNat sub.toNat 1 interval.toNat) (subscribeOp r.peer 1 idx.toNat sub.toNat interval.toNat)

def execSubscribeOnChange (r : Req) (idx : BitVec 16) (sub : Byte) (interval : W32) (s : State) : Out :=
  State.next (doSubscribeOnChange r idx sub interval s)

def doSubscribePeriodic (r : Req) (idx : BitVec 16) (sub : Byte) (interval : W32) (s : State) : State :=
  s.request r 0x07 0 (subscribeBody idx.toNat sub.toNat 2 interval.toNat) (subscribeOp r.peer 2 idx.toNat sub.toNat interval.toNat)

def execSubscribePeriodic (r : Req) (idx : BitVec 16) (sub : Byte) (interval : W32) (s : State) : Out :=
  State.next (doSubscribePeriodic r idx sub interval s)

/-- SUBSCRIPTION_INTERVAL (R329): mode 2 notifies, mode 1 when the value differs from the value last notified. -/
def doSubscriptionInterval (session : W32) (idx : BitVec 16) (sub : Byte) (s : State) : State :=
  match s.subscription session (objKey idx.toNat sub.toNat), s.session session with
  | some b, some x =>
    let r := s.readBytes x.level idx.toNat sub.toNat false
    if !s.bdpServes b.peer.net || s.mode == 1 || r.1 != 0 then s
    else if b.mode == 2 || b.last != some (.blob r.2.2) then s.notify b r.2.1 r.2.2
    else s
  | _, _ => s

def execSubscriptionInterval (session : W32) (idx : BitVec 16) (sub : Byte) (s : State) : Out :=
  State.next (doSubscriptionInterval session idx sub s)

/-! ### CAN FD (R330 to R333) -/

/-- Whether the SDO server answers (R316, R423, R430): a Keeper serves, the mode is not HIBERNATE or BRING-UP, the block is
not gated, and the CAN controller has a clock. -/
def State.canServes (s : State) : Bool :=
  s.keeperServes && decide (2 ≤ s.mode) && !s.gated 2 && (s.clkBit 3 || (s.clkBit 4 && s.clkBit 10))

/-- The level of CAN access, OD 1140.05. -/
def State.canLevel (s : State) : Nat := s.num 0x1140 0x05

/-- An SDO response on COB-ID 0x580 + n. -/
def State.sdoSend (s : State) (b : Bytes) : State := s.canSend (0x580 + s.num 0x1140 0x01) b

/-- The abort code of a status (Table 12.5); a DENIED read or write of an object without that access has its own. -/
def abortCode (status : Nat) (noRead noWrite : Bool) : Nat :=
  match status with
  | 1 => 0x08000021
  | 3 => if noRead then 0x06010001 else if noWrite then 0x06010002 else 0x06010000
  | 4 => 0x06020000
  | 5 => 0x06090011
  | 6 => 0x06070010
  | 7 => 0x06090030
  | 8 => 0x08000020
  | 9 => 0x08000022
  | 12 => 0x08000021
  | 13 => 0x08000024
  | _ => 0x08000000

/-- The multiplexer of an object and four bytes, as an SDO frame carries them. -/
def sdoFrame (cs idx sub : Nat) (d : Bytes) : Bytes := [byteOf cs] ++ leBytes 2 idx ++ [byteOf sub] ++ d

/-- Aborts a transfer. -/
def State.sdoAbort (s : State) (idx sub code : Nat) : State := s.sdoSend (sdoFrame 0x80 idx sub (leBytes 4 code))

/-- Whether an object has no read or no write access at all. -/
def noAccess (idx sub : Nat) (wr : Bool) : Bool :=
  match findObj idx sub with
  | .row o => if wr then o.wr.isNone else o.rd.isNone
  | .count _ => wr
  | _ => false

/-- Value bytes in the order of an SDO transfer: numbers and the fields of TIME80 little-endian (R5, R330). -/
def swapWire (ty : Ty) (b : Bytes) : Bytes :=
  match ty with
  | .str => b
  | .domain => b
  | .time80 => (b.take 8).reverse ++ (b.drop 8).reverse
  | _ => b.reverse

/-- The type of an object. -/
def typeOf (idx sub : Nat) : Ty :=
  match findObj idx sub with
  | .row o => o.ty
  | _ => .u8

/-- The end of a download: the write, then its answer, which a commit gives when admission completes. `ok` is the frame of
a good answer. -/
def State.canWrite (s : State) (bist : Option Bool) (idx sub : Nat) (b : Bytes) (ok : Bytes) : State :=
  let a := (s.writeObject .can s.canLevel .can bist idx sub none true (swapWire (typeOf idx sub) b)).touched (objKey idx sub)
  match a.status with
  | none => { a.state with control := { a.state.control with canReply := ok } }
  | some 0 => a.post (a.state.sdoSend ok)
  | some n => a.state.sdoAbort idx sub (abortCode n false (noAccess idx sub true))

/-- An expedited download of a value in SDO order. -/
def State.canDownload (s : State) (bist : Option Bool) (idx sub : Nat) (b : Bytes) : State :=
  if !s.canServes then s
  else ({ s with control := { s.control with sdo := none } }).canWrite bist idx sub b (sdoFrame 0x60 idx sub [0, 0, 0, 0])

/-- SDO_DOWNLOAD (R330). -/
def doSdoDownload (idx : BitVec 16) (sub : Byte) (segmented : Bool) (b : Bytes) (s : State) : State :=
  if !s.canServes then s
  else if segmented then
    let t : SdoTransfer := { key := objKey idx.toNat sub.toNat, upload := false, data := [], toggle := false }
    ({ s with control := { s.control with sdo := some t } }).sdoSend (sdoFrame 0x60 idx.toNat sub.toNat [0, 0, 0, 0])
  else s.canDownload none idx.toNat sub.toNat b

def execSdoDownload (idx : BitVec 16) (sub : Byte) (segmented : Bool) (b : Bytes) (s : State) : Out :=
  State.next (doSdoDownload idx sub segmented b s)

/-- SDO_UPLOAD (R330): up to 4 bytes expedited, more in segments. -/
def doSdoUpload (idx : BitVec 16) (sub : Byte) (s : State) : State :=
  if !s.canServes then s
  else
    let i := idx.toNat
    let j := sub.toNat
    let r := s.readBytes s.canLevel i j false
    let s := { s with control := { s.control with sdo := none } }
    if r.1 != 0 then s.sdoAbort i j (abortCode r.1 (noAccess i j false) false)
    else if s.captureBusy i j then s.sdoAbort i j (abortCode 1 false false)
    else
      let b := swapWire r.2.1 r.2.2
      let n := b.length
      if 1 ≤ n && n ≤ 4 then s.sdoSend (sdoFrame (0x43 + 4 * (4 - n)) i j (b ++ List.replicate (4 - n) 0))
      else
        let t : SdoTransfer := { key := objKey i j, upload := true, data := b, toggle := false }
        ({ s with control := { s.control with sdo := some t } }).sdoSend (sdoFrame 0x41 i j (leBytes 4 n))

def execSdoUpload (idx : BitVec 16) (sub : Byte) (s : State) : Out := State.next (doSdoUpload idx sub s)

/-- SDO_SEGMENT (R330): one segment of up to 7 bytes; the toggle bit alternates from 0. -/
def doSdoSegment (toggle last : Bool) (b : Bytes) (s : State) : State :=
  if !s.canServes then s
  else match s.control.sdo with
    | none => s.sdoAbort 0 0 0x05040001
    | some t =>
      let i := t.key / 256
      let j := t.key % 256
      let close : State := { s with control := { s.control with sdo := none } }
      if toggle != t.toggle then close.sdoAbort i j 0x05030000
      else if t.upload then
        let p := t.data.take 7
        let rest := t.data.drop 7
        let m : Bytes := [byteOf (b2n toggle * 16 + (7 - p.length) * 2 + b2n rest.isEmpty)] ++ p ++ List.replicate (7 - p.length) 0
        if rest.isEmpty then (close.captureRead i j).sdoSend m
        else ({ s with control := { s.control with sdo := some { t with data := rest, toggle := !t.toggle } } }).sdoSend m
      else
        let ok : Bytes := [byteOf (0x20 + b2n toggle * 16), 0, 0, 0, 0, 0, 0, 0]
        if last then close.canWrite none i j (t.data ++ b) ok
        else ({ s with control := { s.control with sdo := some { t with data := t.data ++ b, toggle := !t.toggle } } }).sdoSend ok

def execSdoSegment (toggle last : Bool) (b : Bytes) (s : State) : Out := State.next (doSdoSegment toggle last b s)

/-- SDO_SEGMENT_TIMEOUT (R331): the open transfer is aborted. -/
def doSdoSegmentTimeout (s : State) : State :=
  match s.control.sdo with
  | none => s
  | some t =>
    let u : State := { s with control := { s.control with sdo := none } }
    if s.canServes then u.sdoAbort (t.key / 256) (t.key % 256) 0x05040000 else u

def execSdoSegmentTimeout (s : State) : Out := State.next (doSdoSegmentTimeout s)

/-- CAN_DRAFT_IDLE_TIMEOUT (R314): no SDO access for the idle timeout releases the draft that the CAN client holds. -/
def doCanDraftIdleTimeout (s : State) : State := if s.control.holder == some .can then s.releaseDraft else s

def execCanDraftIdleTimeout (s : State) : Out := State.next (doCanDraftIdleTimeout s)

/-- CAN_HEARTBEAT (R333): state 0x05 in SENSE, SENTINEL and SURVEY, 0x7F in READY, MAINTENANCE and SAFE. -/
def doCanHeartbeat (s : State) : State :=
  if !s.canServes || s.num 0x1140 0x04 == 0 then s
  else s.canSend (0x700 + s.num 0x1140 0x01) [if s.sensing then 0x05 else 0x7F]

def execCanHeartbeat (s : State) : Out := State.next (doCanHeartbeat s)

/-! ### Either transport -/

/-- A write of an object over the transport it arrived on, its value in network byte order. -/
def State.viaWrite (s : State) (v : Via) (bist : Option Bool) (idx sub : Nat) (b : Bytes) : State :=
  match v with
  | .bdp r => s.bdpWrite r bist idx sub (typeOf idx sub).code b
  | .can => s.canDownload bist idx sub (swapWire (typeOf idx sub) b)

/-- COMMIT by a session (R316, R334): the level of OD 1200.02, WRONG_MODE in SAFE, then R334. Its answer has the body of Table
12.3 whatever its status (R318). -/
def commitOp (r : Req) (x : Session) (s : State) : Ans :=
  let a := if x.level < 2 then refuse 3 s
    else if s.mode == 7 then refuse 9 s
    else s.commitAct (.session x.id) (.bdp r) false
  ⟨a.status.map (fun n => (n, 0, a.state.commitBody)), a.state, a.post⟩

/-- COMMIT (R334): the message, or a write of 0x01 to OD 1200.02. -/
def doCommit (v : Via) (asWrite : Bool) (s : State) : State :=
  match v with
  | .bdp r => if asWrite then s.viaWrite v none 0x1200 0x02 [1] else s.request r 0x05 0 [] (commitOp r)
  | .can => s.viaWrite v none 0x1200 0x02 [1]

def execCommit (v : Via) (asWrite : Bool) (s : State) : Out := State.next (doCommit v asWrite s)

/-- ABORT of the draft by a session (R314). -/
def abortDraftOp (x : Session) (s : State) : Ans := (s.abortAct x.level).ans []

/-- ABORT_DRAFT: the message with target 0, or a write of 0x01 to OD 1200.08. -/
def doAbortDraft (v : Via) (asWrite : Bool) (s : State) : State :=
  match v with
  | .bdp r => if asWrite then s.viaWrite v none 0x1200 0x08 [1] else s.request r 0x06 0 [0] abortDraftOp
  | .can => s.viaWrite v none 0x1200 0x08 [1]

def execAbortDraft (v : Via) (asWrite : Bool) (s : State) : Out := State.next (doAbortDraft v asWrite s)

/-! ### Admission and images as commands -/

/-- ADMISSION_TRIAL (OD 2000.05, R61). -/
def doAdmissionTrial (v : Via) (s : State) : State := s.viaWrite v none 0x2000 0x05 [1]

def execAdmissionTrial (v : Via) (s : State) : Out := State.next (doAdmissionTrial v s)

/-- The answer to the commit that admission held back (R319, R331, R334): a COMMIT carries its body whatever its status (R318),
and a download over CAN the frame that its transfer waits for. -/
def State.answerCommit (s : State) (v : Via) (asWrite : Bool) (status : Nat) : State :=
  match v with
  | .can =>
    if !s.canServes then s
    else if status = 0 then s.sdoSend s.control.canReply
    else s.sdoAbort 0x1200 0x02 (abortCode status false false)
  | .bdp r =>
    match (if s.keeperServes then s.session r.session else none) with
    | none => s
    | some x =>
      if asWrite then
        s.answer r.peer x.key x.id r.seq.toNat 0x02 0 status (if status = 0 then objHead 0x1200 0x02 Ty.bool.code else [])
      else s.answer r.peer x.key x.id r.seq.toNat 0x05 0 status s.commitBody

/-- The client that a transport stands for. -/
def viaClient : Via → Client
  | .bdp r => .session r.session
  | .can => .can

/-- The end of the admission of a commit (R36, R60, R334): refused, the draft and its holder stay; admitted, it takes the
sequence N + 1 and the draft of its holder is released. -/
def State.commitEnds (s : State) (v : Via) (asWrite : Bool) (values : Dict) : State :=
  let r := s.admitRun values
  let s := { s with control := { s.control with admission := s.control.admission.drop 1 } }.reportAttempt r.1 r.2 false true
  if s.mode == 7 then s.reportDraft.answerCommit v asWrite 9
  else match r.2 with
    | some _ => s.reportDraft.answerCommit v asWrite 8
    | none =>
      let mine := s.control.holder == some (viaClient v)
      let s := if mine then { s with control := { s.control with holder := none, draft := [] } } else s
      let s := s.pendCommit values
      (s.answerCommit v asWrite 0).takeOrWait

/-- The end of the admission of a stored image in BRING-UP (R337): it enters force, or the other valid image is tried, and
at last the defaults stand; step 10 follows. -/
def State.bootEnds (s : State) (slot : Option Bool) (values : Dict) : State :=
  let r := s.admitRun values
  let s := { s with control := { s.control with admission := [] } }.reportAttempt r.1 r.2 false false
  let start := fun (s : State) (slot : Option Bool) (values : Dict) =>
    let kept := s.capture
    let s := s.bootWith slot values
    let s := { s with capture := Vector.ofFn (fun k => { s.capture.get k with held := (kept.get k).held }) }.retainCaptures
    { s with power := { s.power with bringUp := some 10 } }
  match r.2, slot with
  | some _, some b =>
    let s := s.passedOver
    let first := s.control.newestImage.1 == some b
    match (if b then s.control.slotA else s.control.slotB) with
    | some m =>
      if first then { s with control := { s.control with admission := [.boot (some (!b)) m.values] } }
      else { s with control := { s.control with admission := [.boot none []] } }
    | none => { s with control := { s.control with admission := [.boot none []] } }
  | _, _ => start s slot values

/-- ADMISSION_COMPLETE (R36, R60, R67): the oldest admission under way ends, unless no Keeper holds authority (R31, R33). -/
def doAdmissionComplete (s : State) : State :=
  if s.power.dead then s
  else match s.control.admission with
    | [] => s
    | .commit v w values :: _ => s.commitEnds v w values
    | .trial values :: rest =>
      let r := s.admitRun values
      { s with control := { s.control with admission := rest } }.reportAttempt r.1 r.2 true true
    | .boot slot values :: _ => s.bootEnds slot values

def execAdmissionComplete (s : State) : Out := State.next (doAdmissionComplete s)

/-- IMAGE_WRITE_COMPLETE (R336): the slot becomes valid with its CRC, or stays invalid with state 2 and a record. -/
def doImageWriteComplete (ok : Bool) (s : State) : State :=
  match (if s.power.dead then none else s.control.writing) with
  | none => s
  | some w =>
    let c := { s.control with writing := none }
    if ok then
      let c := if w.1 then { c with slotB := some w.2 } else { c with slotA := some w.2 }
      ({ s with control := { c with inForceSlot := some w.1 } }).put 0x1200 0x05 0
    else (({ s with control := c }).put 0x1200 0x05 2).issueOpen 0x3B 0x27 0

def execImageWriteComplete (ok : Bool) (s : State) : Out := State.next (doImageWriteComplete ok s)

/-- ACTIVATE_FIRMWARE (R340). -/
def doActivateFirmware (v : Via) (s : State) : State := s.viaWrite v none 0x1210 0x11 [1]

def execActivateFirmware (v : Via) (s : State) : Out := State.next (doActivateFirmware v s)

/-! ### NET links and telemetry -/

/-- NET_LINK_UP (R316): an enabled port that is not gated, with PLL-L in lock, from step 5 of bring-up on. -/
def doNetLinkUp (n : NetPort) (s : State) : State :=
  let i := match n with
    | .net0 => 0x1110
    | .net1 => 0x1111
  let clocked := s.clkBit 8 && s.mode != 0 && !s.power.dead && !s.power.resetLow
    && (match s.power.bringUp with | some k => decide (6 ≤ k) | none => true)
  if clocked && !(n == .net1 && s.gated 1) && s.on i 0x01 then s.put i 0x10 1 else s

def execNetLinkUp (n : NetPort) (s : State) : Out := State.next (doNetLinkUp n s)

/-- NET_LINK_DOWN (R316). -/
def doNetLinkDown (n : NetPort) (s : State) : State :=
  match n with
  | .net0 => s.put 0x1110 0x10 0
  | .net1 => s.put 0x1111 0x10 0

def execNetLinkDown (n : NetPort) (s : State) : Out := State.next (doNetLinkDown n s)

/-- One entry of a telemetry payload (R306); an object that cannot be read, or whose value is longer than a length of one
byte tells, gives n = 0. -/
def State.telemetryEntry (s : State) (idx sub : Nat) : Bytes :=
  let r := s.readBytes 3 idx sub false
  let b := if r.1 = 0 && r.2.2.length ≤ 255 then r.2.2 else []
  objHead idx sub b.length ++ pad4 b

/-- TELEMETRY_SAMPLE (R306): one frame of stream 0x0B in every mode but HIBERNATE and BRING-UP, sampled by the Keeper in authority (R31). -/
def doTelemetrySample (s : State) : State :=
  if s.mode == 0 || s.mode == 1 || !s.keeperServes then s
  else
    let l := s.blob 0x2900 0x05
    let p := (List.range (l.length / 4)).flatMap (fun i => s.telemetryEntry (beField l (4 * i) 2) (beField l (4 * i + 2) 1))
    let (n, s) := s.deviceCount 11
    (s.handOver
      { stream := 11, routeCode := 3, fcount := n, tstart := s.now16, period := s.num 0x2900 0x04 * 1000000, first := 0, count := 0,
        pitch := 0, quality := s.timeFlags, cseq := s.num 0x1200 0x03, switchPos := none, payload := p, coded := false,
        deadline := none, records := 0 }).2

def execTelemetrySample (s : State) : Out := State.next (doTelemetrySample s)

end Sys2Proof.Machine
end

