-- ==== Sys2Proof/Machine/Special.lean ====
section
/-! DEFINITION. The commands that are a write of one object whose write acts: each goes the way of every write, over the
transport it arrived on (R313), to the effect of its family. -/

namespace Sys2Proof.Machine

open Sys2Proof

/-- MODE_REQUEST_HIBERNATE: a write of 0 to OD 1300.01 (R438). -/
def doModeRequestHibernate (v : Via) (s : State) : State := s.viaWrite v none 0x1300 0x01 [0]

def execModeRequestHibernate (v : Via) (s : State) : Out := State.next (doModeRequestHibernate v s)

/-- MODE_REQUEST_READY: a write of 2 to OD 1300.01 (R438). -/
def doModeRequestReady (v : Via) (s : State) : State := s.viaWrite v none 0x1300 0x01 [2]

def execModeRequestReady (v : Via) (s : State) : Out := State.next (doModeRequestReady v s)

/-- MODE_REQUEST_SENTINEL: a write of 3 to OD 1300.01 (R438). -/
def doModeRequestSentinel (v : Via) (s : State) : State := s.viaWrite v none 0x1300 0x01 [3]

def execModeRequestSentinel (v : Via) (s : State) : Out := State.next (doModeRequestSentinel v s)

/-- MODE_REQUEST_SENSE: a write of 4 to OD 1300.01 (R438). -/
def doModeRequestSense (v : Via) (s : State) : State := s.viaWrite v none 0x1300 0x01 [4]

def execModeRequestSense (v : Via) (s : State) : Out := State.next (doModeRequestSense v s)

/-- MODE_REQUEST_SURVEY: a write of 5 to OD 1300.01 (R438). -/
def doModeRequestSurvey (v : Via) (s : State) : State := s.viaWrite v none 0x1300 0x01 [5]

def execModeRequestSurvey (v : Via) (s : State) : Out := State.next (doModeRequestSurvey v s)

/-- MODE_REQUEST_MAINTENANCE: a write of 6 to OD 1300.01 (R438). -/
def doModeRequestMaintenance (v : Via) (s : State) : State := s.viaWrite v none 0x1300 0x01 [6]

def execModeRequestMaintenance (v : Via) (s : State) : Out := State.next (doModeRequestMaintenance v s)

/-- WARM_RESET_REQUEST: a write of 1 to OD 1300.09 (R435). -/
def doWarmResetRequest (v : Via) (s : State) : State := s.viaWrite v none 0x1300 0x09 [1]

def execWarmResetRequest (v : Via) (s : State) : Out := State.next (doWarmResetRequest v s)

/-- COLD_RESET_REQUEST: a write of 2 to OD 1300.09 (R435). -/
def doColdResetRequest (v : Via) (s : State) : State := s.viaWrite v none 0x1300 0x09 [2]

def execColdResetRequest (v : Via) (s : State) : Out := State.next (doColdResetRequest v s)

/-- RESTORE_REQUEST: a write of 0x01 to OD 2160.07 (R98). -/
def doRestoreRequest (v : Via) (r : Route) (s : State) : State := s.viaWrite v none (at100 0x2160 r) 0x07 [1]

def execRestoreRequest (v : Via) (r : Route) (s : State) : Out := State.next (doRestoreRequest v r s)

/-- CALIBRATION_REQUEST: a write of 0x01 to OD 2190.05 (R126). -/
def doCalibrationRequest (v : Via) (r : Route) (s : State) : State := s.viaWrite v none (at100 0x2190 r) 0x05 [1]

def execCalibrationRequest (v : Via) (r : Route) (s : State) : Out := State.next (doCalibrationRequest v r s)

/-- BANK_SELECT: a write of OD 2610.0A (R230). -/
def doBankSelect (v : Via) (r : Route) (bank : Byte) (s : State) : State := s.viaWrite v none (at10 0x2610 r) 0x0A [bank]

def execBankSelect (v : Via) (r : Route) (bank : Byte) (s : State) : Out := State.next (doBankSelect v r bank s)

/-- ATTENUATION_CALIBRATION_REQUEST: a write of 0x01 to OD 2510.0A (R200). -/
def doAttenuationCalibrationRequest (v : Via) (r : Route) (s : State) : State := s.viaWrite v none (at10 0x2510 r) 0x0A [1]

def execAttenuationCalibrationRequest (v : Via) (r : Route) (s : State) : Out := State.next (doAttenuationCalibrationRequest v r s)

/-- SURVEY_RUN_REQUEST: a write of 0x01 to OD 2A00.09 (R169). -/
def doSurveyRunRequest (v : Via) (s : State) : State := s.viaWrite v none 0x2A00 0x09 [1]

def execSurveyRunRequest (v : Via) (s : State) : Out := State.next (doSurveyRunRequest v s)

/-- REGISTER: a write of 0x01 to OD 2A00.08 (R174). -/
def doRegister (v : Via) (s : State) : State := s.viaWrite v none 0x2A00 0x08 [1]

def execRegister (v : Via) (s : State) : Out := State.next (doRegister v s)

/-- HOST_TRIGGER: a write of 0x01 to OD 28s0.19 (R277). -/
def doHostTrigger (v : Via) (k : Fin 8) (s : State) : State := s.viaWrite v none (capIdx k) 0x19 [1]

def execHostTrigger (v : Via) (k : Fin 8) (s : State) : Out := State.next (doHostTrigger v k s)

/-- RE_ARM: a write of 0x01 to OD 28s0.18 (R276). -/
def doReArm (v : Via) (k : Fin 8) (s : State) : State := s.viaWrite v none (capIdx k) 0x18 [1]

def execReArm (v : Via) (k : Fin 8) (s : State) : Out := State.next (doReArm v k s)

/-- TIME_SET: a write of OD 1400.12 (R344). -/
def doTimeSet (v : Via) (ns : BitVec 64) (frac : BitVec 16) (s : State) : State := s.viaWrite v none 0x1400 0x12 (beBytes 8 ns.toNat ++ beBytes 2 frac.toNat)

def execTimeSet (v : Via) (ns : BitVec 64) (frac : BitVec 16) (s : State) : Out := State.next (doTimeSet v ns frac s)

/-- RETRAIN_REQUEST: a write of 0x01 to OD 1600.0D (R383). -/
def doRetrainRequest (v : Via) (s : State) : State := s.viaWrite v none 0x1600 0x0D [1]

def execRetrainRequest (v : Via) (s : State) : Out := State.next (doRetrainRequest v s)

/-- SEQUENCE_REQUEST: a write of 0x01 to OD 1800.03 (R398). -/
def doSequenceRequest (v : Via) (s : State) : State := s.viaWrite v none 0x1800 0x03 [1]

def execSequenceRequest (v : Via) (s : State) : Out := State.next (doSequenceRequest v s)

/-- INJECTED_TRIGGER: the injected trigger arrives, or a write of OD 1800.08 (R399). -/
def doInjectedTrigger (v : Option Via) (s : State) : State :=
  match v with
  | some v => s.viaWrite v none 0x1800 0x08 [1]
  | none => s.injectTrigger

def execInjectedTrigger (v : Option Via) (s : State) : Out := State.next (doInjectedTrigger v s)

/-- HKA_CALIBRATION_START: the interval or temperature trigger, or a write of OD 1850.03 (R403). -/
def doHkaCalibrationStart (v : Option Via) (s : State) : State :=
  match v with
  | some v => s.viaWrite v none 0x1850 0x03 [1]
  | none => s.requestCal

def execHkaCalibrationStart (v : Option Via) (s : State) : Out := State.next (doHkaCalibrationStart v s)

/-- ALWAYS_ON_SOURCE: a write of OD 1500.01 (R424). -/
def doAlwaysOnSource (v : Via) (src : Byte) (s : State) : State := s.viaWrite v none 0x1500 0x01 [src]

def execAlwaysOnSource (v : Via) (src : Byte) (s : State) : Out := State.next (doAlwaysOnSource v src s)

/-- DOMAIN_SOURCE: a write of OD 1510.11 to OD 1510.14 (R424). -/
def doDomainSource (v : Via) (d : Fin 4) (src : Byte) (s : State) : State := s.viaWrite v none 0x1510 (0x11 + d.val) [src]

def execDomainSource (v : Via) (d : Fin 4) (src : Byte) (s : State) : Out := State.next (doDomainSource v d src s)

/-- GATE_REQUEST: a write of OD 1520.01 (R430). -/
def doGateRequest (v : Via) (mask : BitVec 16) (s : State) : State := s.viaWrite v none 0x1520 0x01 (beBytes 2 mask.toNat)

def execGateRequest (v : Via) (mask : BitVec 16) (s : State) : Out := State.next (doGateRequest v mask s)

/-- BIST_REQUEST: a write of OD 1700.20 (R454). -/
def doBistRequest (v : Via) (mask : BitVec 16) (s : State) : State := s.viaWrite v none 0x1700 0x20 (beBytes 2 mask.toNat)

def execBistRequest (v : Via) (mask : BitVec 16) (s : State) : Out := State.next (doBistRequest v mask s)

/-- FAULT_CLEAR: a write of 0x01 to OD 1700.02 (R463); `bistPass` is the outcome of the datapath BIST that it runs. -/
def doFaultClear (v : Via) (bistPass : Bool) (s : State) : State := s.viaWrite v (some bistPass) 0x1700 0x02 [1]

def execFaultClear (v : Via) (bistPass : Bool) (s : State) : Out := State.next (doFaultClear v bistPass s)

/-- SCAN_ENABLE: a write of 0x01 to OD 1700.50 (R458). -/
def doScanEnable (v : Via) (s : State) : State := s.viaWrite v none 0x1700 0x50 [1]

def execScanEnable (v : Via) (s : State) : Out := State.next (doScanEnable v s)

/-- CLEAR_LOG: a write of 0x01 to OD 5000.11 (R447). -/
def doClearLog (v : Via) (s : State) : State := s.viaWrite v none 0x5000 0x11 [1]

def execClearLog (v : Via) (s : State) : Out := State.next (doClearLog v s)

/-! ### Automatic gates (R429, R430) -/

/-- Whether a block that the hardware gates has no use: a core outside its invocations, the CRX lanes of a route outside R109, its DRX lanes
outside their windows, its engine in a mode that leaves it unused (Table 16.6). -/
def State.unused (s : State) : AutoGate → Bool
  | .core c => (s.cores.get c).run == .gated
  | .crx r => !s.crxPowered r
  | .drx r => (s.route r).thermal.pulse.isNone
  | .engine r => islandPower s.mode .engines == .off || (s.mode != 6 && !s.enabled r)

/-- Whether a block is gated: it has no use, and its handshake has not failed since it had. -/
def State.autoGated (s : State) (g : AutoGate) : Bool := s.unused g && !s.power.gatesOpen.contains g

/-- GATE_HANDSHAKE_TIMEOUT (R429): the interface of a block that is to be gated reports no idle within 256 cycles: its gate stays open until
its next opportunity, once the block has been used again, and is counted. A host request that fails so is answered at the request. -/
def doGateHandshakeTimeout (g : AutoGate) (s : State) : State :=
  if !s.autoGated g then s
  else
    let s := { s with power := { s.power with gatesOpen := s.power.gatesOpen ++ [g] } }
    s.bump 0x1520 0x10 1

def execGateHandshakeTimeout (g : AutoGate) (s : State) : Out := State.next (doGateHandshakeTimeout g s)

end Sys2Proof.Machine
end

