-- ==== Sys2Proof/Machine/Boundary.lean ====
section
/-! DEFINITION. FRAME_BOUNDARY (R25, R56): a route frame closes and the next opens. Configurations, L writes, bank swaps,
correction sets, switch movements and mode transitions take effect there, and the triggers that a boundary gives fire. -/

namespace Sys2Proof.Machine

open Sys2Proof

/-- Whether the shots of the frame in progress have all been launched. The groups of end B of a loop whose instants lie at the boundary or
after it, T/2 + g × T/G from T on (R53), are launched in the next frame, and never where the launches end at the boundary (R91). -/
def State.frameDone (s : State) (r : Route) : Bool :=
  let o := (s.route r).optics
  let c := s.sched r
  let n := if s.loopGuard && r == .b then c.g / 2 else 0
  o.launching && !o.moving && o.shot != 0 && o.shotNs + c.t == o.frameNs + c.frame && decide (o.shot * c.g ≤ o.launchSeq + n)

/-- Whether a route sends no frames though it is enabled, so that its boundaries advance its counters alone (R95, R100,
R449). -/
def State.silentNow (s : State) (r : Route) : Bool :=
  let o := (s.route r).optics
  let starting := o.start == some .settle || o.start == some .dwell || o.start == some .ramp
  s.sensing && s.enabled r && !o.moving && !starting && !s.inService r

/-- The next frame of a route opens: its instant and its number since the route start. -/
def State.openFrame (s : State) (r : Route) (ns : Nat) : State :=
  s.modOptics r (fun o => { o with frameNs := ns, frames := o.frames + 1, frameFlags := 0, frameFirst := none })

/-- A pending configuration at the boundary. A Raman block that it cuts closes short on the old tables (R60, R194), and at a change of
topology the frames in progress of a route B of its own close with what they hold (R63). -/
def State.configAt (s : State) (r : Route) : State :=
  let t := s.boundaryConfig r
  let cut := fun (q : Route) => !(s.loopGuard && q == .b) && (ramanKeys s.loopGuard q).any (fun k => s.cfgOf q k != t.cfgOf q k)
  let s1 := if cut .a then s.ramanShort .a else s
  let s2 := if cut .b then s1.ramanShort .b else s1
  let tc := s.commonBoundary
  let joins := s.loopGuard != t.loopGuard && !s.loopGuard
  let s3 := if joins then s2.topologyShort tc else s2
  let s3 := if joins && s.routeB.optics.launching && decide (s.routeB.optics.frameNs < tc) then s3.endFibre .b tc (2 ^ 11) else s3
  s3.boundaryConfig r

/-- The end of one frame of a switch sequence entry: the next entry begins once its stay is over (R91). The sequence of the governing
route is that of both ends of a loop. -/
def State.sequenceFrame (s : State) (r : Route) : State :=
  let q := s.gov r
  if s.g100 r 0x2140 0x01 != 1 || s.mode == 5 then s
  else
    let o := (s.route q).optics
    if o.seqFrames + 1 < s.seqStay r o.seqEntry then s.modOptics q (fun o => { o with seqFrames := o.seqFrames + 1 })
    else s.modOptics q (fun o => { o with seqEntry := (o.seqEntry + 1) % Nat.max (s.g100 r 0x2140 0x04) 1, seqFrames := 0 })

/-- A switch movement (R91, R168): launches stop at the boundary when the wanted position is not the one in force; in SURVEY
only between runs. -/
def State.moveIfDue (s : State) (r : Route) : State :=
  let o := (s.route r).optics
  if !o.launching || o.moving || s.wantedPos r == s.osw r || (s.mode == 5 && s.survey.phase != 0) then s
  else ((s.stopFdc (s.gov r) false).endLaunches r).stopUntil r o.frameNs (s.sched r)

/-- A mode transition at the boundary (R439): the launches of the route end, its chain with them, and a configuration that waits takes
effect. -/
def State.stopIfDue (s : State) (r : Route) : State :=
  if (s.route r).optics.stopAt then ((s.stopFdc (s.gov r) false).endLaunches r).takeAtStop r else s

/-- Whether a route, or both ends of a loop, send no frames. -/
def State.allSilent (s : State) (r : Route) : Bool := s.silentNow r && (!s.loopGuard || s.silentNow (otherRoute r))

/-- The frame of a launching route closes and the next opens: what the frame held, correction sets and counters. -/
def State.frameTurn (s : State) (r : Route) (ns : Nat) : State :=
  let s := (((s.endFibre r ns 0).openFrame r ns).crxBoundary r ns).closeQuasi r
  if s.allSilent r then s.silentFrame r else s

/-- The tables that take effect at a boundary of a route: a configuration, L writes on top of it, a queued bank, thresholds (R30). -/
def State.boundaryTables (s : State) (r : Route) : State :=
  let s := (s.configAt r).boundaryLive r
  let s := if s.loopGuard then s.boundaryLive .b else s
  (s.queuedBank (s.gov r)).noteThresholds (s.gov r)

/-- What stops a launching route at its boundary: a mode transition, or a switch movement. -/
def State.boundaryStops (s : State) (r : Route) : State := if (s.route r).optics.stopAt then s.stopIfDue r else s.moveIfDue r

/-- The changes that take effect on a launching route at its boundary. -/
def State.frameChanges (s : State) (r : Route) : State :=
  let s := if (s.route r).optics.stopAt then s else s.boundaryTables r
  (s.sequenceFrame r).boundaryStops r

/-- What every boundary does beside its route: stream returns, converter triggers, retirements, retraining and the count of
a cut (R182, R297, R383, R384, R398). -/
def State.sharedBoundary (s : State) (r : Route) (ns : Nat) : State :=
  let s := (((s.boundaryStreams r).hkaFrame r).retireDue).reportAlign r ns
  let s := if s.loopGuard then s.reportAlign .b ns else s
  let s := if r == .a || !s.hasBoundaries .a then s.startRetrain else s
  let s := if s.loopGuard then s.cutBoundary ns else s
  s.finishIfQuiet

/-- The boundary of a route on its own. -/
def State.soloBoundary (s : State) (r : Route) : State :=
  let start := (s.route r).optics.frameNs
  let ns := start + (s.sched r).frame
  if s.frameDone r then (((s.frameTurn r ns).beginAwaited r).frameChanges r).sharedBoundary r ns
  else if s.silentNow r && !(s.route r).optics.launching then (((s.silentFrame r).boundaryTables r).sharedBoundary r s.cyc).beginAwaited r
  else s

/-- The end that leads the loop: the one that launches, or of two the one whose frame began earlier. -/
def State.loopLead (s : State) : Route :=
  let a := s.routeA.optics
  let b := s.routeB.optics
  if a.launching && (!b.launching || decide (a.frameNs ≤ b.frameNs)) then .a else .b

/-- The frame of the loop turns while end A launches nothing: its frames go on counting, and what end A holds for the loop closes
(R181, R202, R211). -/
def State.turnWithoutA (s : State) (ns : Nat) : State :=
  let s := if s.routeA.optics.launching then s.modOptics .a (fun o => { o with frames := o.frames + 1 }) else s.openFrame .a ns
  s.closeQuasi .a

/-- The boundary of the loop, at which each end that launches closes its frame (R25, R56). The chain of the loop counts its
frames by end A, whether A launches or not. -/
def State.loopBoundary (s : State) : State :=
  let lead := s.loopLead
  let ns := (s.route lead).optics.frameNs + (s.sched lead).frame
  let due := fun (r : Route) =>
    let o := (s.route r).optics
    o.launching && decide (o.frameNs + (s.sched r).frame ≤ ns)
  if s.frameDone lead then
    let dueA := due .a
    let dueB := due .b
    let s := if dueB then s.frameTurn .b ns else s
    let s := (if dueA then s.frameTurn .a ns else s.turnWithoutA ns).beginAwaited .a
    let stop := s.routeA.optics.stopAt || s.routeB.optics.stopAt
    let s := (if stop then s else s.boundaryTables .a).sequenceFrame .a
    let s := if dueB then s.boundaryStops .b else s
    (if dueA then s.boundaryStops .a else s).sharedBoundary .a ns
  else if s.silentNow .a && s.silentNow .b && s.noLaunch then (((s.silentFrame .a).boundaryTables .a).sharedBoundary .a s.cyc).beginAwaited .a
  else s

/-- FRAME_BOUNDARY (R56): the shots of the frame have been launched, or the route sends no frames and its frame period has
passed. Under Loop Guard the loop has one boundary, commanded as that of route A. -/
def doFrameBoundary (r : Route) (s : State) : State :=
  if s.loopGuard then (match r with | .a => s.loopBoundary | .b => s) else s.soloBoundary r

def execFrameBoundary (r : Route) (s : State) : Out := State.next (doFrameBoundary r s)

end Sys2Proof.Machine
end

