-- ==== Sys2Proof/Machine/Forager.lean ====
section
/-! DEFINITION. The Forager instructions (Tables 9.5 to 9.7) and the invocation commands (R257, R263). An instruction is a
command for one core: it issues when that core runs, its cycle count is below W, and the word at its pc is the
instruction's encoding (Table 9.4); otherwise the command changes nothing. -/

namespace Sys2Proof.Machine

open Sys2Proof

/-! ### Encodings (Tables 9.4, 9.5) -/

/-- The opcode field. -/
def opWord (op : Nat) : W32 := BitVec.ofNat 32 (op * 2 ^ 24)

/-- A field of a word at a place. -/
def fieldAt (n k : Nat) : W32 := BitVec.ofNat 32 (n * 2 ^ k)

/-- Format R. -/
def encR (op : Nat) (d s1 s2 : Fin 16) : W32 := opWord op ||| fieldAt d.val 20 ||| fieldAt s1.val 16 ||| fieldAt s2.val 12

/-- Format I. -/
def encI (op : Nat) (d s1 : Fin 16) (imm : BitVec 16) : W32 := opWord op ||| fieldAt d.val 20 ||| fieldAt s1.val 16 ||| fieldAt imm.toNat 0

/-- Format M. -/
def encM (op : Nat) (g : Fin 16) (a : Fin 8) (m : Fin 4) : W32 := opWord op ||| fieldAt g.val 20 ||| fieldAt a.val 17 ||| fieldAt m.val 15

/-- Format MA. -/
def encMA (op : Nat) (g : Fin 16) (y : Bool) (addr : BitVec 13) : W32 :=
  opWord op ||| fieldAt g.val 20 ||| fieldAt (b2n y) 19 ||| fieldAt addr.toNat 0

/-- Format AR. -/
def encAR (op : Nat) (g : Nat) (i : Fin 8) (imm : Nat) : W32 := opWord op ||| fieldAt g 20 ||| fieldAt i.val 17 ||| fieldAt imm 0

/-- Format ACC. -/
def encACC (op : Nat) (g : Nat) (acb w16 : Bool) (sh : Nat) : W32 :=
  opWord op ||| fieldAt g 20 ||| fieldAt (b2n acb) 19 ||| fieldAt (b2n w16) 8 ||| fieldAt sh 0

/-- Format B. -/
def encB (op : Nat) (s1 s2 : Nat) (target : Nat) : W32 := opWord op ||| fieldAt s1 20 ||| fieldAt s2 16 ||| fieldAt target 0

/-- Format L. -/
def encL (op : Nat) (stop : BitVec 12) (low : Nat) : W32 := opWord op ||| fieldAt stop.toNat 12 ||| fieldAt low 0

/-- Format S. -/
def encS (op : Nat) (g : Nat) (a : Nat) : W32 := opWord op ||| fieldAt g 20 ||| fieldAt a 17

/-- The parallel-move instruction. -/
def encP (mop : Nat) (acb : Bool) (s1 s2 : Fin 8) (mv : Moves) : W32 :=
  fieldAt 15 28 ||| fieldAt mop 25 ||| fieldAt (b2n acb) 24 ||| fieldAt s1.val 21 ||| fieldAt s2.val 18 ||| fieldAt mv.xd.val 15
    ||| fieldAt mv.xa.val 13 ||| fieldAt mv.xm.val 11 ||| fieldAt mv.yd.val 8 ||| fieldAt mv.ya.val 6 ||| fieldAt mv.ym.val 4

/-! ### Issue -/

/-- Whether the core may issue an instruction of a word now; the bits of `free` are fields that the instruction does not
use and R253 does not refuse. -/
def Core.ready (c : Core) (w free : W32) : Bool :=
  c.run != .gated && decide (c.cycles < c.slotRec.w) && (c.instr c.pc ||| free) == (w ||| free)

/-- An instruction that a core in SENSE may issue reads its own word of P and `reads`: an error that SECDED corrects is counted in OD
27c0.29, one that it cannot correct aborts the invocation and loads the core (R242, R265). -/
def checked (core : Fin 8) (w free : W32) (reads : Core → List (CoreMem × Nat)) (go : State → State) (s : State) : State :=
  let c := s.cores.get core
  if !(s.mode == 4 && c.ready w free) then s
  else
    let l := ((CoreMem.p, c.pc.toNat) :: reads c).filterMap c.flawAt
    if l.contains true then s.coreEcc core
    else go (if l.isEmpty then s else s.bump (coreIdx core) 0x29 l.length)

/-- Issues an instruction that reads words of X and Y. -/
def issueReading (core : Fin 8) (w free : W32) (cycles : Nat) (reads : Core → List (CoreMem × Nat)) (f : Core → FgEff) (s : State) : State :=
  checked core w free reads (fun s => s.modCore core (fun c => c.issue cycles f)) s

/-- Issues an instruction that reads neither X nor Y. -/
def issueWith (core : Fin 8) (w free : W32) (cycles : Nat) (f : Core → FgEff) (s : State) : State :=
  issueReading core w free cycles (fun _ => []) f s

/-- Issues an instruction of one cycle whose every field counts. -/
def issue1 (core : Fin 8) (w : W32) (f : Core → FgEff) (s : State) : State := issueWith core w 0 1 f s

/-- A class A result in a general register. -/
def effG (d : Fin 16) (v : W32) : FgEff := { write := fun c => c.setReg d v }

/-- A class A result that saturates to 32 bits and sets SAT (R252). -/
def effSat (d : Fin 16) (x : Int) : FgEff :=
  { write := fun c =>
      let c := c.setReg d (BitVec.ofInt 32 (sat x 32))
      if sat x 32 = x then c else c.markSat c.shadow }

/-- A class L or M result, in the bank shown at issue. -/
def Core.late (c : Core) (d : Fin 16) (v : W32) (sat : Bool) : FgEff := { late := [⟨d, c.shadow, v, sat⟩] }

/-- An instruction of format R with a class A result. -/
def aluR (core : Fin 8) (op : Nat) (d s1 s2 : Fin 16) (f : W32 → W32 → W32) (s : State) : State :=
  issue1 core (encR op d s1 s2) (fun c => effG d (f (c.reg s1) (c.reg s2))) s

/-- An instruction of format I with a class A result. -/
def aluI (core : Fin 8) (op : Nat) (d s1 : Fin 16) (imm : BitVec 16) (f : W32 → W32) (s : State) : State :=
  issue1 core (encI op d s1 imm) (fun c => effG d (f (c.reg s1))) s

/-- The shift count of a register. -/
def shiftOf (w : W32) : Nat := w.toNat % 32

/-- A word of 1 for true. -/
def flag (b : Bool) : W32 := if b then 1 else 0

/-! ### Format R -/

/-- NOP. -/
def execNop (core : Fin 8) (s : State) : Out := State.next (issue1 core (opWord 0x00) (fun _ => {}) s)

/-- ADD. -/
def execAdd (core : Fin 8) (d s1 s2 : Fin 16) (s : State) : Out := State.next (aluR core 0x01 d s1 s2 (· + ·) s)

/-- SUB. -/
def execSub (core : Fin 8) (d s1 s2 : Fin 16) (s : State) : Out := State.next (aluR core 0x02 d s1 s2 (· - ·) s)

/-- ADDS. -/
def execAdds (core : Fin 8) (d s1 s2 : Fin 16) (s : State) : Out :=
  State.next (issue1 core (encR 0x03 d s1 s2) (fun c => effSat d ((c.reg s1).toInt + (c.reg s2).toInt)) s)

/-- SUBS. -/
def execSubs (core : Fin 8) (d s1 s2 : Fin 16) (s : State) : Out :=
  State.next (issue1 core (encR 0x04 d s1 s2) (fun c => effSat d ((c.reg s1).toInt - (c.reg s2).toInt)) s)

/-- AND. -/
def execAnd (core : Fin 8) (d s1 s2 : Fin 16) (s : State) : Out := State.next (aluR core 0x05 d s1 s2 (· &&& ·) s)

/-- OR. -/
def execOr (core : Fin 8) (d s1 s2 : Fin 16) (s : State) : Out := State.next (aluR core 0x06 d s1 s2 (· ||| ·) s)

/-- XOR. -/
def execXor (core : Fin 8) (d s1 s2 : Fin 16) (s : State) : Out := State.next (aluR core 0x07 d s1 s2 (· ^^^ ·) s)

/-- SHL. -/
def execShl (core : Fin 8) (d s1 s2 : Fin 16) (s : State) : Out := State.next (aluR core 0x08 d s1 s2 (fun a b => a <<< shiftOf b) s)

/-- SHR. -/
def execShr (core : Fin 8) (d s1 s2 : Fin 16) (s : State) : Out := State.next (aluR core 0x09 d s1 s2 (fun a b => a >>> shiftOf b) s)

/-- ASR. -/
def execAsr (core : Fin 8) (d s1 s2 : Fin 16) (s : State) : Out := State.next (aluR core 0x0A d s1 s2 (fun a b => a.sshiftRight (shiftOf b)) s)

/-- MIN. -/
def execMin (core : Fin 8) (d s1 s2 : Fin 16) (s : State) : Out := State.next (aluR core 0x0B d s1 s2 (fun a b => if b.slt a then b else a) s)

/-- MAX. -/
def execMax (core : Fin 8) (d s1 s2 : Fin 16) (s : State) : Out := State.next (aluR core 0x0C d s1 s2 (fun a b => if a.slt b then b else a) s)

/-- ABS. -/
def execAbs (core : Fin 8) (d s1 s2 : Fin 16) (s : State) : Out :=
  State.next (issue1 core (encR 0x0D d s1 s2) (fun c => effSat d (((c.reg s1).toInt.natAbs : Nat) : Int)) s)

/-- SLT. -/
def execSlt (core : Fin 8) (d s1 s2 : Fin 16) (s : State) : Out := State.next (aluR core 0x0E d s1 s2 (fun a b => flag (a.slt b)) s)

/-- SLTU. -/
def execSltu (core : Fin 8) (d s1 s2 : Fin 16) (s : State) : Out := State.next (aluR core 0x0F d s1 s2 (fun a b => flag (a.ult b)) s)

/-- PACK. -/
def execPack (core : Fin 8) (d s1 s2 : Fin 16) (s : State) : Out :=
  State.next (aluR core 0x10 d s1 s2 (fun a b => a.extractLsb' 0 16 ++ b.extractLsb' 0 16) s)

/-- HI. -/
def execHi (core : Fin 8) (d s1 s2 : Fin 16) (s : State) : Out := State.next (aluR core 0x11 d s1 s2 (fun a _ => BitVec.ofInt 32 (laneHi a)) s)

/-- LO. -/
def execLo (core : Fin 8) (d s1 s2 : Fin 16) (s : State) : Out := State.next (aluR core 0x12 d s1 s2 (fun a _ => BitVec.ofInt 32 (laneLo a)) s)

/-- MAXI and MINI: the pair D, D + 1 takes S1, S2 when the comparison holds; D is even (R253). -/
def selectPair (core : Fin 8) (op : Nat) (d s1 s2 : Fin 16) (take : W32 → W32 → Bool) (s : State) : State :=
  issue1 core (encR op d s1 s2) (fun c =>
    let a := c.reg s1
    let b := c.reg s2
    if take a (c.reg d) then { write := fun c => (c.setReg d a).setReg (Fin.ofNat 16 (d.val + 1)) b } else {}) s

/-- MAXI. -/
def execMaxi (core : Fin 8) (d s1 s2 : Fin 16) (s : State) : Out := State.next (selectPair core 0x13 d s1 s2 (fun a o => o.slt a) s)

/-- MINI. -/
def execMini (core : Fin 8) (d s1 s2 : Fin 16) (s : State) : Out := State.next (selectPair core 0x14 d s1 s2 (fun a o => a.slt o) s)

/-- MUL, class M. -/
def execMul (core : Fin 8) (d s1 s2 : Fin 16) (s : State) : Out :=
  State.next (issue1 core (encR 0x18 d s1 s2) (fun c => c.late d (BitVec.ofInt 32 (laneLo (c.reg s1) * laneLo (c.reg s2))) false) s)

/-- MULH, class M. -/
def execMulh (core : Fin 8) (d s1 s2 : Fin 16) (s : State) : Out :=
  State.next (issue1 core (encR 0x19 d s1 s2) (fun c => c.late d (BitVec.ofInt 32 (laneHi (c.reg s1) * laneHi (c.reg s2))) false) s)

/-! ### Format I -/

/-- ADDI. -/
def execAddi (core : Fin 8) (d s1 : Fin 16) (imm : BitVec 16) (s : State) : Out :=
  State.next (aluI core 0x20 d s1 imm (fun a => a + imm.signExtend 32) s)

/-- ANDI. -/
def execAndi (core : Fin 8) (d s1 : Fin 16) (imm : BitVec 16) (s : State) : Out :=
  State.next (aluI core 0x21 d s1 imm (fun a => a &&& imm.zeroExtend 32) s)

/-- ORI. -/
def execOri (core : Fin 8) (d s1 : Fin 16) (imm : BitVec 16) (s : State) : Out :=
  State.next (aluI core 0x22 d s1 imm (fun a => a ||| imm.zeroExtend 32) s)

/-- XORI. -/
def execXori (core : Fin 8) (d s1 : Fin 16) (imm : BitVec 16) (s : State) : Out :=
  State.next (aluI core 0x23 d s1 imm (fun a => a ^^^ imm.zeroExtend 32) s)

/-- LUI. -/
def execLui (core : Fin 8) (d : Fin 16) (imm : BitVec 16) (s : State) : Out :=
  State.next (aluI core 0x24 d 0 imm (fun _ => imm ++ (0 : BitVec 16)) s)

/-- SHLI. -/
def execShli (core : Fin 8) (d s1 : Fin 16) (imm : BitVec 16) (s : State) : Out :=
  State.next (aluI core 0x25 d s1 imm (fun a => a <<< (imm.toNat % 32)) s)

/-- SHRI. -/
def execShri (core : Fin 8) (d s1 : Fin 16) (imm : BitVec 16) (s : State) : Out :=
  State.next (aluI core 0x26 d s1 imm (fun a => a >>> (imm.toNat % 32)) s)

/-- ASRI. -/
def execAsri (core : Fin 8) (d s1 : Fin 16) (imm : BitVec 16) (s : State) : Out :=
  State.next (aluI core 0x27 d s1 imm (fun a => a.sshiftRight (imm.toNat % 32)) s)

/-- SLTI. -/
def execSlti (core : Fin 8) (d s1 : Fin 16) (imm : BitVec 16) (s : State) : Out :=
  State.next (aluI core 0x28 d s1 imm (fun a => flag (a.slt (imm.signExtend 32))) s)

/-! ### Memory -/

/-- The word that an address register names: X for a0 to a3, Y for a4 to a7. -/
def Core.load (c : Core) (a : Fin 8) : W32 := memWord (if a.val < 4 then c.x else c.y) (c.adr a).toNat

/-- The memory and address that an address register names. -/
def Core.place (c : Core) (a : Fin 8) : CoreMem × Nat := (if a.val < 4 then .x else .y, (c.adr a).toNat)

/-- Address register `i` of X, a0 to a3, or of Y, a4 to a7. -/
def adrOf (y : Bool) (i : Fin 4) : Fin 8 := Fin.ofNat 8 (if y then 4 + i.val else i.val)

/-- LD, class L. -/
def execLd (core : Fin 8) (g : Fin 16) (y : Bool) (i m : Fin 4) (s : State) : Out :=
  let a := adrOf y i
  State.next (issueReading core (encM 0x30 g a m) 0 1 (fun c => [c.place a])
    (fun c => { c.late g (c.load a) false with write := fun c => c.modAdr a m }) s)

/-- ST. -/
def execSt (core : Fin 8) (g : Fin 16) (a : Fin 8) (m : Fin 4) (s : State) : Out :=
  State.next (issue1 core (encM 0x31 g a m) (fun c =>
    let v := c.reg g
    let p := (c.adr a).toNat
    { write := fun c =>
        (c.store (decide (4 ≤ a.val)) p v).modAdr a m }) s)

/-- LDA, class L. -/
def execLda (core : Fin 8) (g : Fin 16) (y : Bool) (addr : BitVec 13) (s : State) : Out :=
  State.next (issueReading core (encMA 0x32 g y addr) 0 1 (fun _ => [(if y then .y else .x, addr.toNat)])
    (fun c => c.late g (memWord (if y then c.y else c.x) addr.toNat) false) s)

/-- STA. -/
def execSta (core : Fin 8) (g : Fin 16) (y : Bool) (addr : BitVec 13) (s : State) : Out :=
  State.next (issue1 core (encMA 0x33 g y addr) (fun c =>
    let v := c.reg g
    { write := fun c => c.store y addr.toNat v }) s)

/-! ### Format AR -/

/-- Field G, which SETA, SETN and ADDA do not use. -/
def fieldG : W32 := fieldAt 15 20

/-- SETA. -/
def execSeta (core : Fin 8) (a : Fin 8) (imm : BitVec 13) (s : State) : Out :=
  State.next (issueWith core (encAR 0x38 0 a imm.toNat) fieldG 1 (fun _ => { write := fun c => c.setAdr a imm }) s)

/-- SETN. -/
def execSetn (core : Fin 8) (a : Fin 8) (imm : BitVec 16) (s : State) : Out :=
  State.next (issueWith core (encAR 0x39 0 a imm.toNat) fieldG 1 (fun _ => { write := fun c => { c with n := c.n.set a imm } }) s)

/-- MOVA. -/
def execMova (core : Fin 8) (a : Fin 8) (g : Fin 16) (s : State) : Out :=
  State.next (issue1 core (encAR 0x3A g.val a 0) (fun c =>
    let v := (c.reg g).extractLsb' 0 13
    { write := fun c => c.setAdr a v }) s)

/-- MOVN. -/
def execMovn (core : Fin 8) (a : Fin 8) (g : Fin 16) (s : State) : Out :=
  State.next (issue1 core (encAR 0x3B g.val a 0) (fun c =>
    let v := (c.reg g).extractLsb' 0 16
    { write := fun c => { c with n := c.n.set a v } }) s)

/-- GETA. -/
def execGeta (core : Fin 8) (g : Fin 16) (a : Fin 8) (s : State) : Out :=
  State.next (issue1 core (encAR 0x3C g.val a 0) (fun c => effG g ((c.adr a).zeroExtend 32)) s)

/-- GETN. -/
def execGetn (core : Fin 8) (g : Fin 16) (a : Fin 8) (s : State) : Out :=
  State.next (issue1 core (encAR 0x3D g.val a 0) (fun c => effG g ((c.n.get a).signExtend 32)) s)

/-- ADDA. -/
def execAdda (core : Fin 8) (a : Fin 8) (imm : BitVec 16) (s : State) : Out :=
  State.next (issueWith core (encAR 0x3E 0 a imm.toNat) fieldG 1 (fun c =>
    let v := BitVec.ofInt 13 ((c.adr a).toNat + imm.toInt)
    { write := fun c => c.setAdr a v }) s)

/-! ### Format ACC -/

/-- Field W16, which LDAC and ADDAC do not use. -/
def fieldW16 : W32 := fieldAt 1 8

/-- RND, class M. -/
def execRnd (core : Fin 8) (g : Fin 16) (acb w16 : Bool) (sh : BitVec 6) (s : State) : Out :=
  State.next (issue1 core (encACC 0x40 g.val acb w16 sh.toNat) (fun c =>
    let x := rhu (c.acc acb) sh.toNat
    let v := sat x (if w16 then 16 else 32)
    c.late g (BitVec.ofInt 32 v) (v != x)) s)

/-- CLRA. -/
def execClra (core : Fin 8) (acb : Bool) (s : State) : Out :=
  State.next (issue1 core (encACC 0x41 0 acb false 0) (fun _ => { write := fun c => c.setAcc acb 0 }) s)

/-- LDAC. -/
def execLdac (core : Fin 8) (g : Fin 16) (acb : Bool) (sh : BitVec 6) (s : State) : Out :=
  State.next (issueWith core (encACC 0x42 g.val acb false sh.toNat) fieldW16 1 (fun c =>
    let x := (c.reg g).toInt * 2 ^ sh.toNat
    { write := fun c => c.setAcc acb x }) s)

/-- ADDAC. -/
def execAddac (core : Fin 8) (g : Fin 16) (acb : Bool) (sh : BitVec 6) (s : State) : Out :=
  State.next (issueWith core (encACC 0x43 g.val acb false sh.toNat) fieldW16 1 (fun c =>
    let x := c.acc acb + (c.reg g).toInt * 2 ^ sh.toNat
    { write := fun c => c.setAcc acb x }) s)

/-- GETS: the status of the present bank with BANK (Table 9.3). -/
def execGets (core : Fin 8) (g : Fin 16) (s : State) : Out :=
  State.next (issue1 core (encACC 0x44 g.val false false 0) (fun c =>
    effG g ((c.stat c.shadow ||| (if c.shadow then 4 else 0)).zeroExtend 32)) s)

/-- CLRS: SAT and ACSAT of the present bank. -/
def execClrs (core : Fin 8) (s : State) : Out :=
  State.next (issue1 core (encACC 0x45 0 false false 0) (fun _ => { write := fun c => c.setStat c.shadow 0 }) s)

/-! ### Branches (R247) -/

/-- A branch to a target when its condition holds. -/
def branchIf (core : Fin 8) (w free : W32) (target : BitVec 12) (p : Core → Bool) (s : State) : State :=
  issueWith core w free 1 (fun c => { target := if p c then some target else none }) s

/-- BR. -/
def execBr (core : Fin 8) (target : BitVec 12) (s : State) : Out :=
  State.next (branchIf core (encB 0x50 0 0 target.toNat) 0 target (fun _ => true) s)

/-- BEQ. -/
def execBeq (core : Fin 8) (s1 s2 : Fin 16) (target : BitVec 12) (s : State) : Out :=
  State.next (branchIf core (encB 0x51 s1.val s2.val target.toNat) 0 target (fun c => c.reg s1 == c.reg s2) s)

/-- BNE. -/
def execBne (core : Fin 8) (s1 s2 : Fin 16) (target : BitVec 12) (s : State) : Out :=
  State.next (branchIf core (encB 0x52 s1.val s2.val target.toNat) 0 target (fun c => c.reg s1 != c.reg s2) s)

/-- BLT. -/
def execBlt (core : Fin 8) (s1 s2 : Fin 16) (target : BitVec 12) (s : State) : Out :=
  State.next (branchIf core (encB 0x53 s1.val s2.val target.toNat) 0 target (fun c => (c.reg s1).slt (c.reg s2)) s)

/-- BGE. -/
def execBge (core : Fin 8) (s1 s2 : Fin 16) (target : BitVec 12) (s : State) : Out :=
  State.next (branchIf core (encB 0x54 s1.val s2.val target.toNat) 0 target (fun c => !(c.reg s1).slt (c.reg s2)) s)

/-- CALL: the link, address + 3, is a class A result in g15. -/
def execCall (core : Fin 8) (target : BitVec 12) (s : State) : Out :=
  State.next (issueWith core (encB 0x55 0 0 target.toNat) (fieldAt 0xFF 16) 1 (fun c =>
    let link := c.pc.zeroExtend 32 + 3
    { target := some target, write := fun c => c.setReg 15 link }) s)

/-- JR. -/
def execJr (core : Fin 8) (s1 : Fin 16) (s : State) : Out :=
  State.next (issue1 core (encB 0x56 s1.val 0 0) (fun c => { target := some ((c.reg s1).extractLsb' 0 12) }) s)

/-! ### Loops (R248) -/

/-- Whether a loop with an end address may be pushed: no fourth level, and no end beyond the enclosing end (R264). -/
def Core.mayPush (c : Core) (stop : BitVec 12) : Bool :=
  decide (c.loops.length < 3) && (match c.loops with
    | l :: _ => decide (stop ≤ l.stop)
    | [] => true)

/-- A loop instruction: a count of 0 skips the body; a level that may not be pushed is a program fault. -/
def loopWith (core : Fin 8) (w : W32) (stop : BitVec 12) (count : Core → BitVec 16) (s : State) : State :=
  checked core w 0 (fun _ => []) (fun s =>
    let c := s.cores.get core
    if count c != 0 && !c.mayPush stop then s.programFault core 1
    else s.modCore core (fun c => c.issue 1 (fun c =>
      if count c = 0 then { skip := some stop } else { push := some ⟨c.pc + 1, stop, count c⟩ }))) s

/-- LOOPI. -/
def execLoopi (core : Fin 8) (stop : BitVec 12) (count : BitVec 12) (s : State) : Out :=
  State.next (loopWith core (encL 0x58 stop count.toNat) stop (fun _ => count.zeroExtend 16) s)

/-- LOOP. -/
def execLoop (core : Fin 8) (stop : BitVec 12) (g : Fin 16) (s : State) : Out :=
  State.next (loopWith core (encL 0x59 stop (g.val * 256)) stop (fun c => (c.reg g).extractLsb' 0 16) s)

/-! ### Ends, output and events -/

/-- RETE: the handler ends in 2 cycles, BANK clears, the event is popped and the next one, or the frame program, begins
(R259); in the frame program it is a program fault (R264). -/
def doRete (core : Fin 8) (s : State) : State :=
  checked core (opWord 0x5C) 0 (fun _ => []) (fun s =>
    let c := s.cores.get core
    if c.run == .frame then s.programFault core 2
    else
      let e := c.taken.head?
      let c := { c.land with cycles := c.cycles + 2, taken := c.taken.drop 1 }
      let c := c.modSlot c.slot (fun y => { y with queue := match e with
        | some x => y.queue.erase x
        | none => y.queue })
      (s.setCore core c.enter).reportCore core) s

def execRete (core : Fin 8) (s : State) : Out := State.next (doRete core s)

/-- HALT: the invocation ends and is released (R257); in a handler it is a program fault (R264). -/
def doHalt (core : Fin 8) (s : State) : State :=
  checked core (opWord 0x5D) 0 (fun _ => []) (fun s =>
    let c := s.cores.get core
    if c.run == .handler then s.programFault core 1
    else (s.setCore core { c with cycles := c.cycles + 1 }).release core) s

def execHalt (core : Fin 8) (s : State) : Out := State.next (doHalt core s)

/-- OUT: appends a word, or counts it beyond OMAX (R260). -/
def doOut (core : Fin 8) (g : Fin 16) (s : State) : State :=
  checked core (encS 0x60 g.val 0) 0 (fun _ => []) (fun s =>
    let c := s.cores.get core
    let full := decide (c.slotRec.omax ≤ c.outBuf.length)
    let s := if full then s.bump (coreIdx core) 0x27 1 else s
    s.modCore core (fun c => c.issue 1 (fun c =>
      let v := c.reg g
      if full then {} else { write := fun c => { c with outBuf := c.outBuf ++ [v] } }))) s

def execOut (core : Fin 8) (g : Fin 16) (s : State) : Out := State.next (doOut core g s)

/-- The event record of four words of X (R261); its flags follow at release, its number from the event stream. -/
def Core.evtRecord (c : Core) (core : Fin 8) (a : Fin 8) : EventRec × Bool :=
  let w := fun (i : Nat) => memWord c.x ((c.adr a).toNat + i)
  let ty := (w 0).toNat / 2 ^ 24
  let bad := !(decide (0x80 ≤ ty) && decide (ty ≤ 0xBF))
  let f := c.input
  ({ time := (f.map (·.tstart)).getD 0, type := if bad then 0x80 else ty, source := 0x40 + 4 * core.val + c.slot.val,
     route := (f.map (·.routeCode)).getD 0, flags := 0, position := (w 1).toNat, value := (w 2).toInt, aux := (w 3).toInt,
     cmask := (w 0).toNat / 2 ^ 16 % 256, seq := 0 }, bad)

/-- EVT: issues an event record in 4 cycles, or counts it beyond VMAX (R261). -/
def doEvt (core : Fin 8) (a : Fin 4) (s : State) : State :=
  let i : Fin 8 := Fin.ofNat 8 a.val
  checked core (encS 0x61 0 a.val) fieldG (fun c => (List.range 4).map (fun k => (CoreMem.x, ((c.adr i).toNat + k) % 8192))) (fun s =>
    let c := s.cores.get core
    let full := decide (c.slotRec.vmax ≤ c.evtBuf.length)
    let s := if full then s.bump (coreIdx core) 0x26 1 else s
    s.modCore core (fun c => c.issue 4 (fun c =>
      let e := c.evtRecord core i
      { write := fun c =>
          let c := if e.2 then c.markSat c.shadow else c
          if full then c else { c with evtBuf := c.evtBuf ++ [e.1] } }))) s

def execEvt (core : Fin 8) (a : Fin 4) (s : State) : Out := State.next (doEvt core a s)

/-! ### The parallel-move format (R251) -/

/-- The moves of an instruction: X then Y land, and both modifiers are class A (R246, R249). -/
def Core.moves (c : Core) (mv : Moves) (w : Core → Core) : FgEff :=
  let xa : Fin 8 := Fin.ofNat 8 mv.xa.val
  let ya : Fin 8 := Fin.ofNat 8 (mv.ya.val + 4)
  { late := [⟨Fin.ofNat 16 mv.xd.val, c.shadow, c.load xa, false⟩, ⟨Fin.ofNat 16 mv.yd.val, c.shadow, c.load ya, false⟩]
    write := fun c => ((w c).modAdr xa mv.xm).modAdr ya mv.ym }

/-- The words that the moves of an instruction read; a move to g0 loads nothing. -/
def Core.movePlaces (mv : Moves) (c : Core) : List (CoreMem × Nat) :=
  (if mv.xd.val = 0 then [] else [c.place (Fin.ofNat 8 mv.xa.val)]) ++
    (if mv.yd.val = 0 then [] else [c.place (Fin.ofNat 8 (mv.ya.val + 4))])

/-- A parallel-move instruction with a MAC operation on the lanes of its sources (Table 9.6). -/
def macWith (core : Fin 8) (mop : Nat) (acb : Bool) (s1 s2 : Fin 8) (mv : Moves) (f : Int → W32 → W32 → Int) (s : State) : State :=
  issueReading core (encP mop acb s1 s2 mv) 0 1 (Core.movePlaces mv) (fun c =>
    let x := f (c.acc acb) (c.reg (Fin.ofNat 16 s1.val)) (c.reg (Fin.ofNat 16 s2.val))
    c.moves mv (fun c => c.setAcc acb x)) s

/-- PARALLEL_MOVE: the moves alone. -/
def execParallelMove (core : Fin 8) (mv : Moves) (s : State) : Out :=
  State.next (issueReading core (encP 0 false 0 0 mv) (fieldAt 127 18) 1 (Core.movePlaces mv) (fun c => c.moves mv id) s)

/-- MAC. -/
def execMac (core : Fin 8) (acb : Bool) (s1 s2 : Fin 8) (mv : Moves) (s : State) : Out :=
  State.next (macWith core 1 acb s1 s2 mv (fun x a b => x + laneHi a * laneHi b + laneLo a * laneLo b) s)

/-- MSU. -/
def execMsu (core : Fin 8) (acb : Bool) (s1 s2 : Fin 8) (mv : Moves) (s : State) : Out :=
  State.next (macWith core 2 acb s1 s2 mv (fun x a b => x - (laneHi a * laneHi b + laneLo a * laneLo b)) s)

/-- MPY. -/
def execMpy (core : Fin 8) (acb : Bool) (s1 s2 : Fin 8) (mv : Moves) (s : State) : Out :=
  State.next (macWith core 3 acb s1 s2 mv (fun _ a b => laneHi a * laneHi b + laneLo a * laneLo b) s)

/-- MACL. -/
def execMacl (core : Fin 8) (acb : Bool) (s1 s2 : Fin 8) (mv : Moves) (s : State) : Out :=
  State.next (macWith core 4 acb s1 s2 mv (fun x a b => x + laneLo a * laneLo b) s)

/-- MACH. -/
def execMach (core : Fin 8) (acb : Bool) (s1 s2 : Fin 8) (mv : Moves) (s : State) : Out :=
  State.next (macWith core 5 acb s1 s2 mv (fun x a b => x + laneHi a * laneHi b) s)

/-- MACX. -/
def execMacx (core : Fin 8) (acb : Bool) (s1 s2 : Fin 8) (mv : Moves) (s : State) : Out :=
  State.next (macWith core 6 acb s1 s2 mv (fun x a b => x + laneHi a * laneLo b + laneLo a * laneHi b) s)

/-- CMACI. -/
def execCmaci (core : Fin 8) (acb : Bool) (s1 s2 : Fin 8) (mv : Moves) (s : State) : Out :=
  State.next (macWith core 7 acb s1 s2 mv (fun x a b => x + laneHi a * laneLo b - laneLo a * laneHi b) s)

/-! ### Invocations (R257, R263) -/

/-- INVOCATION_START: the slot whose transfer completed first begins; one that cannot begin in time is skipped. -/
def doInvocationStart (core : Fin 8) (start : SlotStart) (s : State) : State :=
  let slot := start.slot
  let c := s.cores.get core
  match (c.fslot slot).waiting with
  | none => s
  | some f =>
    if !s.coreRuns core || c.run != .gated || c.nextSlot != some slot then s
    else if f.lateFrom ≤ s.cyc then s.skipLate core slot
    else s.beginInvocation core slot start.flaws f

def execInvocationStart (core : Fin 8) (start : SlotStart) (s : State) : Out :=
  State.next (doInvocationStart core start s)

/-- CYCLE_ABORT: the count has reached W without HALT. -/
def doCycleAbort (core : Fin 8) (s : State) : State :=
  let c := s.cores.get core
  if s.mode == 4 && c.run != .gated && decide (c.slotRec.w ≤ c.cycles) then (s.bump (coreIdx core) 0x22 1).abortInvocation core false else s

def execCycleAbort (core : Fin 8) (s : State) : Out := State.next (doCycleAbort core s)

/-- DEADLINE_ABORT: 100 us before the deadline of the slot's feature frame, the invocation in progress is aborted, or the
input frame that still waits is skipped; the feature frame that is not sent counts as dropped late (R77). -/
def doDeadlineAbort (core : Fin 8) (slot : Fin 4) (s : State) : State :=
  let c := s.cores.get core
  if s.mode != 4 then s
  else if c.run != .gated && c.slot == slot then
    (((s.bump (coreIdx core) 0x23 1).bump 0x2980 0x11 1).bump 0x2000 0x18 1).abortInvocation core false
  else if (c.fslot slot).waiting.isSome then s.skipLate core slot
  else s

def execDeadlineAbort (core : Fin 8) (slot : Fin 4) (s : State) : Out := State.next (doDeadlineAbort core slot s)

end Sys2Proof.Machine
end

