-- ==== Sys2Proof/Machine/Jtag.lean ====
section
/-! DEFINITION. The JTAG port (R458): the TAP controller of IEEE 1149.1 with BYPASS, IDCODE and SAMPLE/PRELOAD, and the
instructions that scan enables. The codes of the instructions are constants of Config. -/

namespace Sys2Proof.Machine

open Sys2Proof

/-- The next state of the TAP controller: Test-Logic-Reset 0, Run-Test/Idle 1, then Select, Capture, Shift, Exit1, Pause,
Exit2 and Update of the data column (2 to 8) and of the instruction column (9 to 15). -/
def tapNext (t : Nat) (tms : Bool) : Nat :=
  match t, tms with
  | 0, true => 0
  | 0, false => 1
  | 1, true => 2
  | 1, false => 1
  | 2, true => 9
  | 2, false => 3
  | 3, true => 5
  | 3, false => 4
  | 4, true => 5
  | 4, false => 4
  | 5, true => 8
  | 5, false => 6
  | 6, true => 7
  | 6, false => 6
  | 7, true => 8
  | 7, false => 4
  | 8, true => 2
  | 8, false => 1
  | 9, true => 0
  | 9, false => 10
  | 10, true => 12
  | 10, false => 11
  | 11, true => 12
  | 11, false => 11
  | 12, true => 15
  | 12, false => 13
  | 13, true => 14
  | 13, false => 13
  | 14, true => 15
  | 14, false => 11
  | 15, true => 2
  | 15, false => 1
  | _, _ => 0

/-- The bits of a number, the lowest first. -/
def bitsOf (n w : Nat) : List Bool := (List.range w).map (fun i => n.testBit i)

/-- The number of bits, the lowest first. -/
def ofBits (l : List Bool) : Nat := l.foldr (fun b n => b2n b + 2 * n) 0

/-- The data register captured under the instruction in force. EXTEST and INTEST are served only after scan is enabled;
CLAMP selects the bypass register, and so does every code that is not served. -/
def captureDr (scan : Bool) (ir : Option Nat) : List Bool :=
  let boundary := (List.range Config.boundaryLength).map Config.boundaryCell
  match ir with
  | none => bitsOf Config.idcode 32
  | some n =>
    if n = 2 ^ Config.irLength - 1 then [false]
    else if n = Config.irIdcode then bitsOf Config.idcode 32
    else if n = Config.irSample then boundary
    else if scan && (n == Config.irExtest || n == Config.irIntest) then boundary
    else [false]

/-- Shifts a bit in at the far end. -/
def shiftIn (l : List Bool) (b : Bool) : List Bool := l.tail ++ [b]

/-- A rising edge of TCK: capture or shift in the present state, then the next state. -/
def Jtag.rise (j : Jtag) (scan tms tdi : Bool) : Jtag :=
  let j := match j.tap with
    | 3 => { j with dr := captureDr scan j.ir }
    | 4 => { j with dr := shiftIn j.dr tdi }
    | 10 => { j with irShift := bitsOf 1 Config.irLength }
    | 11 => { j with irShift := shiftIn j.irShift tdi }
    | _ => j
  let t := tapNext j.tap tms
  { j with tap := t, ir := if t = 0 then none else j.ir, tckHigh := true }

/-- A falling edge of TCK: TDO takes the next bit in a shift state and is at high impedance otherwise; Update-IR puts the
instruction in force. -/
def Jtag.fall (j : Jtag) : Jtag :=
  match j.tap with
  | 4 => { j with tdo := j.dr.headD false, driven := true, tckHigh := false }
  | 11 => { j with tdo := j.irShift.headD false, driven := true, tckHigh := false }
  | 15 => { j with ir := some (ofBits j.irShift), driven := false, tckHigh := false }
  | _ => { j with driven := false, tckHigh := false }

/-- The port held in Test-Logic-Reset. -/
def Jtag.held (j : Jtag) : Jtag := { j with tap := 0, ir := none, driven := false }

/-- TCK_EDGE (R436, R458): in HIBERNATE and BRING-UP the port is held in Test-Logic-Reset and the edge is ignored. -/
def doTckEdge (rising tms tdi : Bool) (s : State) : State :=
  if s.mode == 0 || s.mode == 1 then { s with jtag := s.jtag.held }
  else if rising then { s with jtag := s.jtag.rise s.integrity.scan tms tdi }
  else
    let s := { s with jtag := s.jtag.fall }
    if s.jtag.driven then s.emit (.tdo s.jtag.tdo) else s

def execTckEdge (rising tms tdi : Bool) (s : State) : Out := State.next (doTckEdge rising tms tdi s)

end Sys2Proof.Machine
end

