-- ==== Sys2Proof/Machine/Ptp.lean ====
section
/-! DEFINITION. The PTP ordinary clock (R353, R354). The manual names IEEE 1588-2019; what the clock does with a message is
PRESUMED from that standard (assumption log 13). -/

namespace Sys2Proof.Machine

open Sys2Proof

/-- Updates the PTP port. -/
def State.modPtp (s : State) (f : Ptp → Ptp) : State := { s with ptp := f s.ptp }

/-- Whether the PTP port is enabled. -/
def State.ptpOn (s : State) : Bool := s.num 0x1150 0x01 == 1 && s.sampleClock

/-- Whether the port's NET link is up. -/
def State.ptpLink (s : State) : Bool := netUp s (if s.num 0x1150 0x02 == 0 then .net0 else .net1)

/-- Where a message of a messageType goes: UDP port 319 for the event messages (below 8) and 320 for the general ones, or under Layer 2 the
EtherType 0x88F7 (R353). -/
def State.ptpPort (s : State) (kind : Nat) : Nat := if s.num 0x1150 0x04 == 1 then 0x88F7 else if kind < 8 then 319 else 320

/-- A message of a messageType on the port, in its domain. -/
def State.ptpMsg (s : State) (kind seq : Nat) (fields : List Int) : OutMsg :=
  .ptp (s.num 0x1150 0x02) (s.ptpPort kind) (s.num 0x1150 0x06) kind seq fields

/-- Sends a message of a messageType on the port; only the Keeper in authority transmits on NET (R31). -/
def State.sendPtp (s : State) (kind seq : Nat) (fields : List Int) : State :=
  if s.ptpLink && s.keeperServes then s.emit (s.ptpMsg kind seq fields) else s

/-- Whether P2P delay measurement is configured. -/
def State.p2p (s : State) : Bool := s.num 0x1150 0x05 == 1

/-- The clock class announced (R354). -/
def State.clockClass (s : State) : Nat :=
  if s.timeState == 3 && (s.refInUse == 1 || s.refInUse == 3) then 6 else if s.timeState == 4 then 7 else 248

/-- The clock identity: the MAC address of the port's NET link with 0xFFFE between its halves. -/
def State.clockId (s : State) : Nat :=
  let m := Config.macAddress (s.num 0x1150 0x02) % 2 ^ 48
  m / 2 ^ 24 * 2 ^ 40 + 0xFFFE * 2 ^ 24 + m % 2 ^ 24

/-- The device's own data set in the order of comparison: priority 1, class, accuracy, variance, priority 2, identity. -/
def State.ownData (s : State) : List Nat := [s.num 0x1150 0x07, s.clockClass, 0xFE, 0xFFFF, s.num 0x1150 0x08, s.clockId, 0]

/-- Lexicographic order of data sets. -/
def dataLess : List Nat → List Nat → Bool
  | a :: s, b :: t => if a < b then true else if b < a then false else dataLess s t
  | _, _ => false

/-- Sets the port state; only SLAVE may hold PTP present (Table 13.1). -/
def State.toPort (s : State) (n : Nat) : State :=
  let s := s.put 0x1150 0x10 n
  if n == 9 then s else s.setPresent 2 false

/-- The mean of the last 16 path delays, OD 1150.12, with one more measured. -/
def State.addPathDelay (s : State) (d : Int) : State :=
  let l := (s.ptp.delays ++ [d])
  let l := l.drop (l.length - 16)
  (s.modPtp (fun p => { p with delays := l })).putI 0x1150 0x12 64 (rhuDiv (sumI l) l.length)

/-- The mean path delay. -/
def State.pathDelay (s : State) : Int := s.int 0x1150 0x12 64

/-! ### Messages -/

/-- The offset of a Sync whose origin and ingress instants are known; the port is present while it is SLAVE. -/
def State.ptpOffset (s : State) (t1 t2 : Int) : State :=
  let off := t2 - t1 - s.pathDelay
  let s := (s.putI 0x1150 0x11 64 off).modPtp (fun p => { p with lastSync := some (t1, t2) })
  (s.modTime (fun t => { t with ptpThetas := t.ptpThetas ++ [sat off 64] })).setPresent 2 true

/-- PTP_SYNC_RECEIVE: one-step and two-step Sync of the port's master and domain, in SLAVE. -/
def doPtpSyncReceive (m : PtpSync) (s : State) : State :=
  let fromMaster := match s.ptp.master with
    | some x => x.source == m.source
    | none => false
  if !s.ptpOn || m.domain.toNat != s.num 0x1150 0x06 || s.ptpState != 9 || !fromMaster then s
  else if m.followUp then
    match s.ptp.sync with
    | some (q, t2, c) =>
      if q == m.seqId.toNat then (s.modPtp (fun p => { p with sync := none })).ptpOffset (m.origin + c + m.correction) t2 else s
    | none => s
  else
    let t2 := m.stamp - ps16 (s.int 0x1150 0x0D 32)
    if m.twoStep then s.modPtp (fun p => { p with sync := some (m.seqId.toNat, t2, m.correction) })
    else s.ptpOffset (m.origin + m.correction) t2

def execPtpSyncReceive (m : PtpSync) (s : State) : Out := State.next (doPtpSyncReceive m s)

/-- The window of a foreign master in ns: four announce intervals. -/
def State.announceWindow (s : State) : Nat :=
  let k := s.int 0x1150 0x0A 8
  if 0 ≤ k then 4000000000 * 2 ^ k.toNat else 4000000000 / 2 ^ (-k).toNat

/-- The masters heard, with an Announce of one of them now: each keeps its Announce messages of the last four announce intervals. -/
def hearMaster (l : List Master) (src : BitVec 64) (d : List Nat) (now window : Nat) : List Master :=
  let old := (l.find? (fun x => x.source == src)).map (·.times)
  let l := (l.filter (fun x => x.source != src)).map (fun x => { x with times := x.times.filter (fun t => decide (now ≤ t + window)) })
  l.filter (fun x => !x.times.isEmpty) ++ [⟨src, d, now :: (old.getD []).filter (fun t => decide (now ≤ t + window))⟩]

/-- The best of the masters from which two Announce messages came within the window. -/
def bestMaster (l : List Master) : Option Master :=
  (l.filter (fun x => decide (2 ≤ x.times.length))).foldl (fun (b : Option Master) x => match b with
    | none => some x
    | some y => if dataLess x.data y.data then some x else b) none

/-- An Announce: the masters heard, the best of them, and the state the best master clock algorithm gives the port: MASTER for the better
data set, PASSIVE for a clock of class 1 to 127 that hears a better one, SLAVE otherwise. An Announce of the clock itself, or of 255 steps
or more, counts for nothing (PRESUMED, assumption log 13). -/
def State.announce (s : State) (src : BitVec 64) (d : List Nat) (utc : Nat) : State :=
  let role := s.num 0x1150 0x03
  if role == 2 || src.toNat == s.clockId || decide (255 ≤ d.getD 6 0) then s
  else
    let l := hearMaster s.ptp.foreign src d s.time.ns s.announceWindow
    let s := s.modPtp (fun p => { p with foreign := l, master := bestMaster l })
    match s.ptp.master with
    | none => s
    | some x =>
      if role == 0 && dataLess s.ownData x.data then (s.toPort 6).put 0x1150 0x13 s.clockId
      else if role == 0 && decide (s.clockClass ≤ 127) then s.toPort 7
      else
        let s := (s.toPort 9).put 0x1150 0x13 x.source.toNat
        if x.source == src then s.put 0x1400 0x13 utc else s

/-- PTP_MESSAGE_RECEIVE: Announce, delay and peer-delay messages of the port's domain. -/
def doPtpMessageReceive (m : PtpMsg) (s : State) : State :=
  if !s.ptpOn || m.domain.toNat != s.num 0x1150 0x06 then s
  else
    let ing := ps16 (s.int 0x1150 0x0D 32)
    let egr := ps16 (s.int 0x1150 0x0E 32)
    match m.body with
    | .announce src p1 cc acc var p2 gm steps utc =>
      s.announce src [p1.toNat, cc.toNat, acc.toNat, var.toNat, p2.toNat, gm.toNat, steps.toNat] utc.toNat
    | .delayReq src q stamp =>
      if s.ptpState == 6 && !s.p2p then s.sendPtp 9 q.toNat [src.toNat, stamp - ing] else s
    | .delayResp q who rx c =>
      match s.ptp.delaySent, s.ptp.lastSync with
      | some (n, t3), some (t1, t2) =>
        if s.ptpState == 9 && !s.p2p && n == q.toNat && who.toNat == s.clockId then
          (s.modPtp (fun p => { p with delaySent := none })).addPathDelay (rhu ((t2 - t1) + (rx - c - t3)) 1)
        else s
      | _, _ => s
    | .pdelayReq src q stamp =>
      if s.p2p then (s.sendPtp 3 q.toNat [src.toNat, stamp - ing]).sendPtp 10 q.toNat [src.toNat, s.now16 + egr] else s
    | .pdelayResp q t2 stamp c =>
      match s.ptp.delaySent with
      | some (n, _) => if s.p2p && n == q.toNat then s.modPtp (fun p => { p with pdelay := some (t2, stamp - ing, c) }) else s
      | none => s
    | .pdelayRespFollowUp q t3 c =>
      match s.ptp.delaySent, s.ptp.pdelay with
      | some (n, t1), some (t2, t4, c2) =>
        if s.p2p && n == q.toNat then
          (s.modPtp (fun p => { p with delaySent := none, pdelay := none })).addPathDelay (rhu ((t4 - t1) - (t3 - t2) - c2 - c) 1)
        else s
      | _, _ => s

def execPtpMessageReceive (m : PtpMsg) (s : State) : Out := State.next (doPtpMessageReceive m s)

/-- PTP_INTERVAL: Sync with Follow_Up and Announce as master, delay requests as slave. -/
def doPtpInterval (k : PtpKind) (s : State) : State :=
  let egr := ps16 (s.int 0x1150 0x0E 32)
  if !s.ptpOn then s
  else
    match k with
    | .sync =>
      if s.ptpState == 6 then
        let q := s.ptp.syncSeq
        ((s.sendPtp 0 q []).sendPtp 8 q [s.now16 + egr]).modPtp (fun p => { p with syncSeq := (q + 1) % 65536 })
      else s
    | .announce =>
      if s.ptpState == 6 then
        let q := s.ptp.announceSeq
        (s.sendPtp 11 q ((s.int 0x1400 0x13 16) :: s.ownData.map (fun (n : Nat) => (n : Int)))).modPtp
          (fun p => { p with announceSeq := (q + 1) % 65536 })
      else s
    | .delayReq =>
      if s.p2p || s.ptpState == 9 then
        let q := s.ptp.delaySeq
        (s.sendPtp (if s.p2p then 2 else 1) q []).modPtp (fun p => { p with
          delaySeq := (q + 1) % 65536, delaySent := some (q, s.now16 + egr), pdelay := none })
      else s

def execPtpInterval (k : PtpKind) (s : State) : Out := State.next (doPtpInterval k s)

/-- PTP_SYNC_TIMEOUT (Table 13.1): 4 Sync intervals without a Sync. -/
def doPtpSyncTimeout (s : State) : State := if s.ptpOn then s.setPresent 2 false else s

def execPtpSyncTimeout (s : State) : Out := State.next (doPtpSyncTimeout s)

/-- ANNOUNCE_RECEIPT_TIMEOUT: the port leaves SLAVE; it leads, or listens when it is slave only. -/
def doAnnounceReceiptTimeout (s : State) : State :=
  if !s.ptpOn then s
  else ((s.modPtp (fun p => { p with master := none, foreign := [], sync := none })).toPort (if s.num 0x1150 0x03 == 1 then 4 else 6)).put 0x1150 0x13
    (if s.num 0x1150 0x03 == 1 then 0 else s.clockId)

def execAnnounceReceiptTimeout (s : State) : Out := State.next (doAnnounceReceiptTimeout s)

end Sys2Proof.Machine
end

