-- ==== Sys2Proof/Machine/Streams.lean ====
section
/-! DEFINITION. Links and packets of the stream engine (11_streams_codec.md): training and fall-back (R293), loss and
return (R292, R297), precedence, pacing and packets (R296, R300, R301), address resolution (R291, R298), and the gathered
event frame (R305). -/

namespace Sys2Proof.Machine

open Sys2Proof

/-! ### Links (R291 to R293, R297) -/

/-- Whether links train and carry anything: the clocks run, and neither R33 nor HIBERNATE holds them. -/
def State.linksRun (s : State) : Bool := s.clkBit 8 && s.mode != 0 && !s.power.dead

/-- LINK_LOSS (R292, R297). -/
def doLinkLoss (l : Fin 2) (s : State) : State := s.dropLink l

def execLinkLoss (l : Fin 2) (s : State) : Out := State.next (doLinkLoss l s)

/-- RETRAIN_ATTEMPT_EXPIRY (R293): a 25G link with fall-back goes on at 10G; after the last attempt it is FAILED. -/
def doRetrainAttemptExpiry (l : Fin 2) (s : State) : State :=
  let i := 0x1120 + l.val
  if s.linkState l != 2 then s
  else if !s.streams.trying10.get l && s.num i 0x02 == 0 && s.on i 0x08 then
    { (s.bump i 0x15 1).put i 0x11 1 with streams := { s.streams with trying10 := s.streams.trying10.set l true } }
  else { s.put i 0x10 3 with streams := { s.streams with trying10 := s.streams.trying10.set l false } }

def execRetrainAttemptExpiry (l : Fin 2) (s : State) : Out := State.next (doRetrainAttemptExpiry l s)

/-- LINK_RETRY (R293): FAILED repeats the training sequence every 1 s. -/
def doLinkRetry (l : Fin 2) (s : State) : State :=
  let i := 0x1120 + l.val
  if s.linkState l != 3 then s
  else
    { (s.put i 0x10 2).put i 0x11 (s.num i 0x02) with
      streams := { s.streams with trying10 := s.streams.trying10.set l false } }

def execLinkRetry (l : Fin 2) (s : State) : Out := State.next (doLinkRetry l s)

/-- LINK_UP (R293, R297, R298): training of an enabled link that is not gated completes; destinations are resolved, and streams return. -/
def doLinkUp (l : Fin 2) (s : State) : State :=
  let i := 0x1120 + l.val
  if !s.linksRun || !s.on i 0x01 || (l == 1 && s.gated 0) || s.linkState l == 1 || s.linkState l == 3 then s
  else
    let ten := s.streams.trying10.get l
    let s := (s.put i 0x10 1).put i 0x11 (if ten then 1 else s.num i 0x02)
    let s := { s with streams := { s.streams with trying10 := s.streams.trying10.set l false, at10 := s.streams.at10.set l ten } }
    (s.resolveLink l).returnStreams l

def execLinkUp (l : Fin 2) (s : State) : Out := State.next (doLinkUp l s)

/-! ### Packets (R296, R300, R301) -/

/-- The packets of stream 0x09 on a link within 100 µs before now. -/
def State.pacedNow (s : State) (l : Fin 2) : List (Nat × Nat) := (s.streams.paced.get l).filter (fun e => decide (s.cyc < e.1 + 100000))

/-- Whether stream 0x09 may send a packet of `wire` bytes on a link (R300): the packets before it have been spaced at the cap, and
with those of the last 100 µs it stays within the cap; a packet that alone exceeds 100 µs of the cap goes by its spacing. -/
def State.paceAllows (s : State) (l : Fin 2) (wire : Nat) : Bool :=
  let now := s.pacedNow l
  decide (s.streams.paceNs.get l ≤ s.cyc)
    && (now.isEmpty || decide (8 * (sumN (now.map (·.2)) + wire) ≤ 100 * s.num 0x2900 0x03))

/-- Whether a frame may send its next packet on a link: it waits there, SAFE sends it (R462), and stream 0x09 keeps its
pace (R300). -/
def State.mayGo (s : State) (l : Fin 2) (f : Frame) : Bool :=
  (f.next.get l).isSome && (s.mode != 7 || f.stream == 10 || f.stream == 11)
    && (f.stream != 9 || s.paceAllows l (Nat.min s.packetSize (f.bytes.length - ((f.next.get l).getD 0) * s.packetSize) + 78))

/-- The precedence of R296 as a list compared from its first element. -/
def Frame.rank (f : Frame) : List Nat :=
  match f.deadline with
  | some d => [0, d, f.stream, f.route]
  | none => [if f.stream = 9 then 2 else 1, if f.stream = 7 then 0 else if f.stream = 10 then 1 else if f.stream = 11 then 2 else 3, 0, 0]

/-- Whether a rank goes before another. -/
def rankLt : List Nat → List Nat → Bool
  | a :: as, b :: bs => decide (a < b) || (a == b && rankLt as bs)
  | _, _ => false

/-- The place of the frame that sends next on a link: the first by precedence; of its stream and route, the oldest. -/
def State.nextFrame (s : State) (l : Fin 2) : Option Nat :=
  let b := s.streams.backlog
  let go := (List.range b.length).filter (fun i => match b[i]? with | some f => s.mayGo l f | none => false)
  go.foldl (fun (best : Option Nat) i =>
    match best, b[i]? with
    | none, _ => some i
    | some j, some f => if rankLt f.rank ((b[j]?.map Frame.rank).getD []) then
        (go.find? (fun k => (b[k]?.map (fun g => g.stream == f.stream && g.route == f.route)).getD false)) else some j
    | some j, none => some j) none

/-- A frame can no longer meet its deadline on a link: what is left of it would end too late (R39, R77). -/
def State.tooLate (s : State) (l : Fin 2) (f : Frame) (i : Nat) : Bool :=
  match f.deadline with
  | none => false
  | some t => decide (t < s.cyc + cdiv (8 * wireFrom f.bytes.length s.packetSize i) (s.linkRate l))

/-- The UDP payload of a fragment (Table 11.4). -/
def packetBytes (f : Frame) (l : Fin 2) (p i : Nat) : Bytes :=
  let last := decide (f.bytes.length ≤ (i + 1) * p)
  [byteOf f.stream, byteOf (b2n (f.route == 1) * 8 + b2n f.replay * 4 + l.val * 2 + b2n last)] ++ beBytes 2 i
    ++ beBytes 4 (f.fcount % 2 ^ 32) ++ beBytes 4 (i * p) ++ (f.bytes.drop (i * p)).take p

/-- A capture has been sent: a continuous slot that holds it re-arms (R276). -/
def State.captureSent (s : State) (f : Frame) : State :=
  if f.stream != 9 then s
  else
    let k : Fin 8 := Fin.ofNat 8 (beField f.bytes 65 1)
    let held := ((s.capture.get k).held.map (fun h => h.header.take 60 == (f.bytes.drop 64).take 60 && !h.retained)).getD false
    if s.num (capIdx k) 0x0C == 1 && s.num (capIdx k) 0x20 == 3 && held then s.slotState k 1 else s

/-- Sends fragment i of the frame at a place, with UDP source port 20,842, DF set and UDP checksum 0; the last completes the copy
(R301). -/
def State.sendPacket (s : State) (l : Fin 2) (place i : Nat) (f : Frame) : State :=
  let p := s.packetSize
  let st := streamIdx f.stream
  let s := s.emit (.dx l (s.streamDest f.stream l) 20842 (s.num st 0x04) (s.num st 0x07) true 0 (packetBytes f l p i))
  let s := s.requestFrame f.stream f.route f.fcount (i * p) (Nat.min p (f.bytes.length - i * p)) f.deadline
  let wire := Nat.min p (f.bytes.length - i * p) + 78
  let s := if f.stream == 9 then
      { s with streams := { s.streams with
        paceNs := s.streams.paceNs.set l (s.cyc + cdiv (8000 * wire) (Nat.max (s.num 0x2900 0x03) 1))
        paced := s.streams.paced.set l (s.pacedNow l ++ [(s.cyc, wire)]) } }
    else s
  let last := decide (f.bytes.length ≤ (i + 1) * p)
  let g := { f with
    started := true, entered := if i = 0 then f.entered.set l (some s.cyc) else f.entered
    next := f.next.set l (if last then none else some (i + 1)) }
  let s := s.setFrame place g
  if last then
    let s := s.bump st 0x10 1
    (if f.replay then s.bump st 0x12 1 else s).captureSent f
  else s

/-- The next packet of a link; a frame whose destination has no ARP entry there is not sent (R298), and frames that can no longer meet their deadline are dropped first, with those that wait behind
them in the backlog and for their hand-over (R39). -/
def State.transmit (s : State) (l : Fin 2) : Nat → State
  | 0 => s
  | n + 1 =>
    match s.nextFrame l with
    | none => s
    | some place =>
      match s.streams.backlog[place]? with
      | none => s
      | some f =>
        let i := (f.next.get l).getD 0
        if !s.arpKnown l (s.streamDest f.stream l) then
          ((s.setFrame place { f with next := f.next.set l none }).bump (streamIdx f.stream) 0x13 1).transmit l n
        else if s.tooLate l f i then
          ((s.dropCopy l place f).dropWaiting l place f).transmit l n
        else s.sendPacket l place i f

/-- PACKET_TRANSMIT (R296): one packet leaves a link that is UP, outside BRING-UP and R33. A frame with a burst that reads uncorrectable is lost:
it is not sent, and the next goes (R386, Table 14.3). -/
def doPacketTransmit (l : Fin 2) (errors : List BurstError) (s : State) : State :=
  if s.linkState l != 1 || s.power.dead || s.mode == 0 || s.mode == 1 then s
  else (s.readLoss errors).transmit l (s.streams.backlog.length + 1)

def execPacketTransmit (p : PacketRead) (s : State) : Out := State.next (doPacketTransmit p.link p.errors s)

/-! ### Addresses (R291, R298) -/

/-- ARP_REFRESH (R298): the entry is asked for again, but not while R33 stops every DX transmission; one that has gone 3 refreshes without an answer is removed. -/
def doArpRefresh (l : Fin 2) (ip : W32) (s : State) : State :=
  match s.streams.arp.find? (fun e => e.link == l && e.ip == ip) with
  | none => s
  | some e =>
    if s.power.dead then s
    else
    let others := s.streams.arp.filter (fun x => !(x.link == l && x.ip == ip))
    if 3 ≤ e.misses then { s with streams := { s.streams with arp := others } }
    else { s with streams := { s.streams with arp := others ++ [{ e with misses := e.misses + 1 }] } }.emit (.arpRequest l ip)

def execArpRefresh (l : Fin 2) (ip : W32) (s : State) : Out := State.next (doArpRefresh l ip s)

/-- ARP_REPLY (R298): the answer for a destination in use makes or refreshes its entry. -/
def doArpReply (l : Fin 2) (ip : W32) (mac : BitVec 48) (s : State) : State :=
  let used := allStreams.any (fun st => s.streamDest st l == ip)
  if s.linkState l != 1 || !used || ip == 0 then s
  else { s with streams := { s.streams with
    arp := s.streams.arp.filter (fun x => !(x.link == l && x.ip == ip)) ++ [{ link := l, ip := ip, mac := mac, misses := 0 }] } }

def execArpReply (l : Fin 2) (ip : W32) (mac : BitVec 48) (s : State) : Out := State.next (doArpReply l ip mac s)

/-- Whether a DX link answers for an address: it is UP outside BRING-UP, and the address is its own. -/
def State.ownAddress (s : State) (l : Fin 2) (ip : W32) : Bool :=
  s.linkState l == 1 && s.mode != 0 && s.mode != 1 && !s.power.dead && ip != 0 && s.num (0x1120 + l.val) 0x13 == ip.toNat

/-- ARP_REQUEST (R291): answered for the link's own address. -/
def doArpRequest (l : Fin 2) (ip senderIp : W32) (senderMac : BitVec 48) (s : State) : State :=
  if s.ownAddress l ip then s.emit (.arpReply l ip senderIp senderMac) else s

def execArpRequest (l : Fin 2) (ip senderIp : W32) (senderMac : BitVec 48) (s : State) : Out :=
  State.next (doArpRequest l ip senderIp senderMac s)

/-- ICMP_ECHO (R291): answered with the data of the request. -/
def doIcmpEcho (l : Fin 2) (ip senderIp : W32) (data : Bytes) (s : State) : State :=
  if s.ownAddress l ip then s.emit (.icmpReply l senderIp data) else s

def execIcmpEcho (l : Fin 2) (ip senderIp : W32) (data : Bytes) (s : State) : Out := State.next (doIcmpEcho l ip senderIp data s)

/-- PAUSE_RECEIVED (R291): counted and discarded. -/
def doPauseReceived (l : Fin 2) (s : State) : State := if s.linkState l == 1 then s.bump (0x1120 + l.val) 0x16 1 else s

def execPauseReceived (l : Fin 2) (s : State) : Out := State.next (doPauseReceived l s)

/-- DHCP_REPLY (R291, Table 12.7): a grant or renewal on a port that uses DHCPv4 is its address in force. -/
def doDhcpReply (p : IpPort) (ip : W32) (s : State) : State :=
  let i := match p with
    | .net .net0 => 0x1110
    | .net .net1 => 0x1111
    | .dx l => 0x1120 + l.val
  let up := match p with
    | .net n => netUp s n
    | .dx l => s.linkState l == 1
  if up && s.num i 0x04 == 1 then s.put i 0x13 ip.toNat else s

def execDhcpReply (p : IpPort) (ip : W32) (s : State) : Out := State.next (doDhcpReply p ip s)

/-! ### The gathered frame (R305) -/

/-- GATHERED_FRAME_CLOSE: 1 ms has passed since its first record. -/
def doGatheredFrameClose (s : State) : State := s.closeGathered

def execGatheredFrameClose (s : State) : Out := State.next (doGatheredFrameClose s)

end Sys2Proof.Machine
end

