-- ==== Sys2Proof/Machine/Sync.lean ====
section
/-! DEFINITION. The SYNC bus (R362 to R366): cycles and messages, leadership, path delay, triggers. -/

namespace Sys2Proof.Machine

open Sys2Proof

/-- Updates the SYNC unit. -/
def State.modSync (s : State) (f : SyncBus → SyncBus) : State := { s with sync := f s.sync }

/-- Whether the unit has a clock: the sample clock runs and the block is not gated (R430: a gated block stands still). -/
def State.syncClock (s : State) : Bool := s.sampleClock && !s.gated 4

/-- Whether the unit drives the bus: it has its clock, and PLL-T, without which SYNC_CLK is not driven (R421). -/
def State.syncDrives (s : State) : Bool := s.syncClock && bit (s.num 0x1500 0x03) 9

/-- The unit number u. -/
def State.syncUnit (s : State) : Nat := s.num 0x1450 0x02

/-- A message: START, its fields and the CRC over every bit after START (R362). -/
def syncMessage (body : List Bool) : List Bool := true :: (body ++ bitsMsb 16 (crc16 body))

/-- Whether a received message of a length has START and a valid CRC. -/
def syncValid (n : Nat) (l : List Bool) : Bool :=
  l.length == n && l.head? == some true &&
    (let body := (l.drop 1).take (n - 17)
     l.drop (n - 16) == bitsMsb 16 (crc16 body))

/-- The field of `n` bits from bit `i` of a message, first bit most significant. -/
def bitField (l : List Bool) (i n : Nat) : Nat := ((l.drop i).take n).foldl (fun a b => 2 * a + b2n b) 0

/-- The number of the cycle within its second and the second, from device time in ns (R362). -/
def cycleOf (ns : Nat) : Nat × Nat := (ns % 1000000000 / 100000, ns / 1000000000)

/-- The leader message of Table 13.4. -/
def State.leaderMessage (s : State) : List Bool :=
  let c := cycleOf s.time.ns
  let r := s.sync.reply
  let t := ((r.map (·.2)).getD 0 % sec16).toNat
  syncMessage (bitsMsb 15 0x2B3C ++ bitsMsb 4 1 ++ bitsMsb 4 s.syncUnit ++ bitsMsb 4 s.timeState ++ bitsMsb 14 c.1 ++ bitsMsb 48 c.2
    ++ [r.isSome] ++ bitsMsb 4 ((r.map (·.1)).getD 0) ++ bitsMsb 30 (t / 65536) ++ bitsMsb 16 t)

/-- A message of a unit in its own slot (Table 13.4): DELAY_REQ, or TRIGGER with its number and instant. -/
def unitMessage (u : Nat) (trigger : Option (Nat × Int)) : List Bool :=
  match trigger with
  | none => syncMessage (bitsMsb 4 2 ++ bitsMsb 4 u ++ List.replicate 58 false)
  | some (n, t) =>
    let x := t.toNat
    syncMessage (bitsMsb 4 3 ++ bitsMsb 4 u ++ bitsMsb 4 n ++ bitsMsb 8 (x / 65536 / 1000000000)
      ++ bitsMsb 30 (x / 65536 % 1000000000) ++ bitsMsb 16 x)

/-- A loss of the leader: the unit listens again (R363). -/
def State.loseLeader (s : State) : State :=
  let s := s.setPresent 3 false
  if s.syncState == 2 then (s.put 0x1450 0x10 1).put 0x1450 0x11 0xFF else s

/-- The judgement of the cycle that ends (Table 13.1). -/
def State.judgeSync (s : State) : State :=
  if s.syncState != 2 then s
  else
    let saw := s.sync.sawLeader
    let s := s.modTime (fun t => { t with syncGood := if saw then t.syncGood + 1 else 0, syncBad := if saw then 0 else t.syncBad + 1 })
    if 3 ≤ s.time.syncGood then s.setPresent 3 true else if 3 ≤ s.time.syncBad then s.loseLeader else s

/-- SYNC_CYCLE (R362, R364): a cycle begins by the unit's own device time. The leader sends its message, with the request
stamped since; a follower sends DELAY_REQ in cycle 100u + 1; the units heard are reported each second. -/
def doSyncCycle (s : State) : State :=
  if s.syncState == 0 || !s.syncClock then s
  else
    let s := (s.judgeSync).modSync (fun x => { x with sawLeader := false, sending := false })
    let c := cycleOf s.time.ns
    let s := if c.1 = 0 then
        (s.put 0x1450 0x13 (s.sync.heard.foldl (fun a u => setBit a u true) 0)).modSync (fun x => { x with heard := [] })
      else s
    if s.syncState == 3 then
      (if s.syncDrives then ((s.countEdge 13 s.now16).emit (.sync s.leaderMessage)).modSync (fun x => { x with reply := none }) else s)
    else if s.syncState == 2 && s.syncDrives && c.1 == 100 * s.syncUnit + 1 then
      let t1 : Int := ((c.2 * 1000000000 + c.1 * 100000 + (320 + 105 * s.syncUnit) * 50 : Nat) : Int) * 65536
      (s.emit (.sync (unitMessage s.syncUnit none))).modSync (fun x => { x with t1 := some t1, sending := true })
    else s

def execSyncCycle (s : State) : Out := State.next (doSyncCycle s)

/-- A message whose CRC fails: counted, and recorded when it came in the unit's own slot while it was sending (R362). -/
def State.syncCrc (s : State) (slot : Fin 16) : State :=
  let s := s.bump 0x1450 0x18 1
  if s.sync.sending && slot.val == s.syncUnit then s.issueOpen 0x39 0x28 0 else s

/-- The instant within half a second of another whose place in its second is given (2^-16 ns). -/
def nearSecond (near within : Int) : Int :=
  let x := near / sec16 * sec16 + within
  if near < x - sec16 / 2 then x - sec16 else if x + sec16 / 2 < near then x + sec16 else x

/-- A measured path delay d (R364): the mean of the last 16, and a record when d differs from it by more than 10 ns. -/
def State.syncDelay (s : State) (d : Int) : State :=
  let l := s.sync.delays ++ [d]
  let l := l.drop (l.length - 16)
  let m := rhuDiv (sumI l) l.length
  let s := (s.modSync (fun x => { x with delays := l, t1 := none })).putI 0x1450 0x12 64 m
  if 10 * 65536 < (d - m).natAbs then s.issueOpen 0x39 0x28 0 else s

/-- SYNC_LEADER_MESSAGE (R355, R362 to R364): SYNC_CLK rose `ago` cycles before, at a tap. A listening unit follows; cycle 0 gives t4 - t3
and θ, the returned t2 a delay. A leading unit takes nothing from the message. -/
def doSyncLeaderMessage (bits : List Bool) (ago : Nat) (tap : Fin 128) (s : State) : State :=
  if s.syncState == 0 || !s.syncClock then s
  else
  let x := s.tdcStamp 8 (s.cyc - ago) tap 0
  let t4 := x.1
  let s := x.2.countEdge 13 t4
  if !syncValid 157 bits then s.bump 0x1450 0x18 1
  else if s.syncState == 3 || bitField bits 1 15 != 0x2B3C || bitField bits 16 4 != 1 then s
  else
    let lead := bitField bits 20 4
    let s := (s.put 0x1450 0x10 2).put 0x1450 0x11 lead
    let s := s.modSync (fun x => { x with sawLeader := true, heard := x.heard ++ [lead] })
    let t3 : Int := (bitField bits 42 48 : Nat) * sec16
    let first := bitField bits 28 14 == 0
    let s := if first then s.modSync (fun x => { x with lastHalf := some (t4 - t3) }) else s
    let s := if bitField bits 90 1 == 1 && bitField bits 91 4 == s.syncUnit then
        match s.sync.t1, s.sync.lastHalf with
        | some t1, some h =>
          let t2 := nearSecond t1 ((bitField bits 95 30 * 65536 + bitField bits 125 16 : Nat) : Int)
          s.syncDelay (rhu (h + (t2 - t1)) 1 - ps16 (s.int 0x1450 0x04 32))
        | _, _ => s
      else s
    if first then s.modTime (fun t => { t with syncTheta := some (t4 - t3 - s.int 0x1450 0x12 64) }) else s

def execSyncLeaderMessage (bits : List Bool) (edge : BusEdge) (s : State) : Out := State.next (doSyncLeaderMessage bits edge.ago edge.tap s)

/-- SYNC_DELAY_REQ (R355, R362, R364): its START transition came in a slot `ago` cycles before, at a tap of SYNC_DAT. The leader stamps the
request and returns it in the next cycle. -/
def doSyncDelayReq (slot : Fin 16) (bits : List Bool) (ago : Nat) (tap : Fin 128) (s : State) : State :=
  if s.syncState == 0 || !s.syncClock then s
  else if !syncValid 83 bits then s.syncCrc slot
  else if bitField bits 1 4 != 2 then s
  else
    let u := bitField bits 5 4
    let s := s.modSync (fun x => { x with heard := x.heard ++ [u] })
    if s.syncState == 3 then
      let x := s.tdcStamp 9 (s.cyc - ago) tap 0
      x.2.modSync (fun y => { y with reply := some (u, x.1) })
    else s

def execSyncDelayReq (m : SlotMessage) (edge : BusEdge) (s : State) : Out :=
  State.next (doSyncDelayReq m.slot m.bits edge.ago edge.tap s)

/-- The second nearest an instant (2^-16 ns) whose low 8 bits are given; of two equally near the earlier (assumption log 31), and none before
second 0. -/
def nearestSecond (now : Int) (low : Nat) : Int :=
  let k := now / sec16
  let d := ((low : Int) - k) % 256
  if decide (2 * (d * sec16 - now % sec16) < 256 * sec16) || decide (k + d < 256) then k + d else k + d - 256

/-- SYNC_TRIGGER (R365): the instant in the second nearest own device time; the unit's own message is never accepted. -/
def doSyncTrigger (slot : Fin 16) (bits : List Bool) (s : State) : State :=
  if s.syncState == 0 || !s.syncClock then s
  else if !syncValid 83 bits then s.syncCrc slot
  else if bitField bits 1 4 != 3 || bitField bits 5 4 == s.syncUnit then s
  else
    let s := s.modSync (fun x => { x with heard := x.heard ++ [bitField bits 5 4] })
    let near := nearestSecond s.now16 (bitField bits 13 8)
    s.triggerSync (bitField bits 9 4) ((near * 1000000000 + (bitField bits 21 30 : Nat)) * 65536 + (bitField bits 51 16 : Nat))

def execSyncTrigger (m : SlotMessage) (s : State) : Out := State.next (doSyncTrigger m.slot m.bits s)

/-- SYNC_TRIGGER_SEND (R365): the oldest queued trigger leaves in the unit's slot, one per cycle and never beside a DELAY_REQ. -/
def doSyncTriggerSend (s : State) : State :=
  if s.syncState != 2 && s.syncState != 3 || !s.syncDrives || s.sync.sending then s
  else
    match s.sync.queue with
    | [] => s
    | e :: t => (s.emit (.sync (unitMessage s.syncUnit (some e)))).modSync (fun x => { x with queue := t, sending := true })

def execSyncTriggerSend (s : State) : Out := State.next (doSyncTriggerSend s)

/-- SYNC_LISTEN_EXPIRY (R363): a leader-capable unit follows a running bus and leads a silent one. -/
def doSyncListenExpiry (running : Bool) (s : State) : State :=
  if s.syncState != 1 || s.num 0x1450 0x01 != 2 || !s.syncClock then s
  else if running then s.put 0x1450 0x10 2
  else (s.put 0x1450 0x10 3).put 0x1450 0x11 s.syncUnit

def execSyncListenExpiry (running : Bool) (s : State) : Out := State.next (doSyncListenExpiry running s)

end Sys2Proof.Machine
end

