-- ==== Sys2Proof/Machine/Dispatch.lean ====
section
/-! DEFINITION. The dispatch: one arm per command, each a direct call of the command's meaning. -/

namespace Sys2Proof.Machine

open Sys2Proof

/-- The effect of a command on everything but the queue. -/
def exec (i : Instr) (s : State) : Host.Outcome State Fault Refusal :=
  match i with
  | .read r draft idx sub => Sys2Proof.Machine.execRead r draft idx sub s
  | .write r idx sub ty val => Sys2Proof.Machine.execWrite r idx sub ty val s
  | .readBlock r idx sub span errors => Sys2Proof.Machine.execReadBlock r idx sub span errors s
  | .writeBlock r f idx sub => Sys2Proof.Machine.execWriteBlock r f idx sub s
  | .commit v asWrite => Sys2Proof.Machine.execCommit v asWrite s
  | .abortDraft v asWrite => Sys2Proof.Machine.execAbortDraft v asWrite s
  | .abortBlockWrite r => Sys2Proof.Machine.execAbortBlockWrite r s
  | .subscribeCancel r idx sub interval => Sys2Proof.Machine.execSubscribeCancel r idx sub interval s
  | .subscribeOnChange r idx sub interval => Sys2Proof.Machine.execSubscribeOnChange r idx sub interval s
  | .subscribePeriodic r idx sub interval => Sys2Proof.Machine.execSubscribePeriodic r idx sub interval s
  | .openSession a seq level nonce => Sys2Proof.Machine.execOpenSession a seq level nonce s
  | .proof a seq session proof => Sys2Proof.Machine.execProof a seq session proof s
  | .closeSession r => Sys2Proof.Machine.execCloseSession r s
  | .bdpInvalidRequest r op raw => Sys2Proof.Machine.execBdpInvalidRequest r op raw s
  | .challengeLapse session => Sys2Proof.Machine.execChallengeLapse session s
  | .authLockoutEnd => Sys2Proof.Machine.execAuthLockoutEnd s
  | .sessionIdleTimeout session => Sys2Proof.Machine.execSessionIdleTimeout session s
  | .canDraftIdleTimeout => Sys2Proof.Machine.execCanDraftIdleTimeout s
  | .subscriptionInterval session idx sub => Sys2Proof.Machine.execSubscriptionInterval session idx sub s
  | .sdoDownload idx sub segmented val => Sys2Proof.Machine.execSdoDownload idx sub segmented val s
  | .sdoUpload idx sub => Sys2Proof.Machine.execSdoUpload idx sub s
  | .sdoSegment toggle last val => Sys2Proof.Machine.execSdoSegment toggle last val s
  | .sdoSegmentTimeout => Sys2Proof.Machine.execSdoSegmentTimeout s
  | .canHeartbeat => Sys2Proof.Machine.execCanHeartbeat s
  | .admissionTrial v => Sys2Proof.Machine.execAdmissionTrial v s
  | .admissionComplete => Sys2Proof.Machine.execAdmissionComplete s
  | .imageWriteComplete ok => Sys2Proof.Machine.execImageWriteComplete ok s
  | .imageImport r f => Sys2Proof.Machine.execImageImport r f s
  | .firmwareImage r f => Sys2Proof.Machine.execFirmwareImage r f s
  | .activateFirmware v => Sys2Proof.Machine.execActivateFirmware v s
  | .modeRequestHibernate v => Sys2Proof.Machine.execModeRequestHibernate v s
  | .modeRequestReady v => Sys2Proof.Machine.execModeRequestReady v s
  | .modeRequestSentinel v => Sys2Proof.Machine.execModeRequestSentinel v s
  | .modeRequestSense v => Sys2Proof.Machine.execModeRequestSense v s
  | .modeRequestSurvey v => Sys2Proof.Machine.execModeRequestSurvey v s
  | .modeRequestMaintenance v => Sys2Proof.Machine.execModeRequestMaintenance v s
  | .warmResetRequest v => Sys2Proof.Machine.execWarmResetRequest v s
  | .coldResetRequest v => Sys2Proof.Machine.execColdResetRequest v s
  | .sentinelReturn => Sys2Proof.Machine.execSentinelReturn s
  | .laserSettleExpiry => Sys2Proof.Machine.execLaserSettleExpiry s
  | .switchDwellExpiry r => Sys2Proof.Machine.execSwitchDwellExpiry r s
  | .rangeSweepComplete r sets => Sys2Proof.Machine.execRangeSweepComplete r sets s
  | .pumpRampComplete r => Sys2Proof.Machine.execPumpRampComplete r s
  | .frameBoundary r => Sys2Proof.Machine.execFrameBoundary r s
  | .switchOswChange r => Sys2Proof.Machine.execSwitchOswChange r s
  | .probeLaunch r group => Sys2Proof.Machine.execProbeLaunch r group s
  | .tapEdge r edge => Sys2Proof.Machine.execTapEdge r edge s
  | .tapWindowClose r => Sys2Proof.Machine.execTapWindowClose r s
  | .aprDecision r raw => Sys2Proof.Machine.execAprDecision r raw s
  | .restorationProbe r => Sys2Proof.Machine.execRestorationProbe r s
  | .restoreRequest v r => Sys2Proof.Machine.execRestoreRequest v r s
  | .ramanPulse r => Sys2Proof.Machine.execRamanPulse r s
  | .dtspPulseEnd r => Sys2Proof.Machine.execDtspPulseEnd r s
  | .drxWindowEnd r stokes anti => Sys2Proof.Machine.execDrxWindowEnd r stokes anti s
  | .agcIntervalEnd r x y => Sys2Proof.Machine.execAgcIntervalEnd r x y s
  | .blankEdge level => Sys2Proof.Machine.execBlankEdge level s
  | .crxTemperatureRead r temp => Sys2Proof.Machine.execCrxTemperatureRead r temp s
  | .foregroundIntervalExpiry r => Sys2Proof.Machine.execForegroundIntervalExpiry r s
  | .calibrationRequest v r => Sys2Proof.Machine.execCalibrationRequest v r s
  | .foregroundRunComplete r x y => Sys2Proof.Machine.execForegroundRunComplete r x y s
  | .blindPeriodEnd r spare spare' spare'' => Sys2Proof.Machine.execBlindPeriodEnd r spare spare' spare'' s
  | .launchCompressed r raw checkFail => Sys2Proof.Machine.execLaunchCompressed r raw checkFail s
  | .sliceUpdate r pos checkFail ecc => Sys2Proof.Machine.execSliceUpdate r pos checkFail ecc s
  | .spareTestCycle pass => Sys2Proof.Machine.execSpareTestCycle pass s
  | .loopMerge pos => Sys2Proof.Machine.execLoopMerge pos s
  | .fdcInput r => Sys2Proof.Machine.execFdcInput r s
  | .frameHandover stream r => Sys2Proof.Machine.execFrameHandover stream r s
  | .bankSelect v r bank => Sys2Proof.Machine.execBankSelect v r bank s
  | .trackedUpdate r pos ecc => Sys2Proof.Machine.execTrackedUpdate r pos ecc s
  | .ramanBlockClose r => Sys2Proof.Machine.execRamanBlockClose r s
  | .attenuationCalibrationRequest v r => Sys2Proof.Machine.execAttenuationCalibrationRequest v r s
  | .attenuationCalibrationComplete r => Sys2Proof.Machine.execAttenuationCalibrationComplete r s
  | .surveyRunRequest v => Sys2Proof.Machine.execSurveyRunRequest v s
  | .surveyNormalPhaseEnd => Sys2Proof.Machine.execSurveyNormalPhaseEnd s
  | .surveyRunComplete => Sys2Proof.Machine.execSurveyRunComplete s
  | .register v => Sys2Proof.Machine.execRegister v s
  | .loopCutLocated => Sys2Proof.Machine.execLoopCutLocated s
  | .invocationStart core start => Sys2Proof.Machine.execInvocationStart core start s
  | .cycleAbort core => Sys2Proof.Machine.execCycleAbort core s
  | .deadlineAbort core slot => Sys2Proof.Machine.execDeadlineAbort core slot s
  | .nop core => Sys2Proof.Machine.execNop core s
  | .add core d s1 s2 => Sys2Proof.Machine.execAdd core d s1 s2 s
  | .sub core d s1 s2 => Sys2Proof.Machine.execSub core d s1 s2 s
  | .adds core d s1 s2 => Sys2Proof.Machine.execAdds core d s1 s2 s
  | .subs core d s1 s2 => Sys2Proof.Machine.execSubs core d s1 s2 s
  | .and core d s1 s2 => Sys2Proof.Machine.execAnd core d s1 s2 s
  | .or core d s1 s2 => Sys2Proof.Machine.execOr core d s1 s2 s
  | .xor core d s1 s2 => Sys2Proof.Machine.execXor core d s1 s2 s
  | .shl core d s1 s2 => Sys2Proof.Machine.execShl core d s1 s2 s
  | .shr core d s1 s2 => Sys2Proof.Machine.execShr core d s1 s2 s
  | .asr core d s1 s2 => Sys2Proof.Machine.execAsr core d s1 s2 s
  | .min core d s1 s2 => Sys2Proof.Machine.execMin core d s1 s2 s
  | .max core d s1 s2 => Sys2Proof.Machine.execMax core d s1 s2 s
  | .abs core d s1 s2 => Sys2Proof.Machine.execAbs core d s1 s2 s
  | .slt core d s1 s2 => Sys2Proof.Machine.execSlt core d s1 s2 s
  | .sltu core d s1 s2 => Sys2Proof.Machine.execSltu core d s1 s2 s
  | .pack core d s1 s2 => Sys2Proof.Machine.execPack core d s1 s2 s
  | .hi core d s1 s2 => Sys2Proof.Machine.execHi core d s1 s2 s
  | .lo core d s1 s2 => Sys2Proof.Machine.execLo core d s1 s2 s
  | .maxi core d s1 s2 => Sys2Proof.Machine.execMaxi core d s1 s2 s
  | .mini core d s1 s2 => Sys2Proof.Machine.execMini core d s1 s2 s
  | .mul core d s1 s2 => Sys2Proof.Machine.execMul core d s1 s2 s
  | .mulh core d s1 s2 => Sys2Proof.Machine.execMulh core d s1 s2 s
  | .addi core d s1 imm => Sys2Proof.Machine.execAddi core d s1 imm s
  | .andi core d s1 imm => Sys2Proof.Machine.execAndi core d s1 imm s
  | .ori core d s1 imm => Sys2Proof.Machine.execOri core d s1 imm s
  | .xori core d s1 imm => Sys2Proof.Machine.execXori core d s1 imm s
  | .lui core d imm => Sys2Proof.Machine.execLui core d imm s
  | .shli core d s1 imm => Sys2Proof.Machine.execShli core d s1 imm s
  | .shri core d s1 imm => Sys2Proof.Machine.execShri core d s1 imm s
  | .asri core d s1 imm => Sys2Proof.Machine.execAsri core d s1 imm s
  | .slti core d s1 imm => Sys2Proof.Machine.execSlti core d s1 imm s
  | .ld core g y a m => Sys2Proof.Machine.execLd core g y a m s
  | .st core g a m => Sys2Proof.Machine.execSt core g a m s
  | .lda core g y addr => Sys2Proof.Machine.execLda core g y addr s
  | .sta core g y addr => Sys2Proof.Machine.execSta core g y addr s
  | .seta core a imm => Sys2Proof.Machine.execSeta core a imm s
  | .setn core a imm => Sys2Proof.Machine.execSetn core a imm s
  | .mova core a g => Sys2Proof.Machine.execMova core a g s
  | .movn core a g => Sys2Proof.Machine.execMovn core a g s
  | .geta core g a => Sys2Proof.Machine.execGeta core g a s
  | .getn core g a => Sys2Proof.Machine.execGetn core g a s
  | .adda core a imm => Sys2Proof.Machine.execAdda core a imm s
  | .rnd core g acb w16 sh => Sys2Proof.Machine.execRnd core g acb w16 sh s
  | .clra core acb => Sys2Proof.Machine.execClra core acb s
  | .ldac core g acb sh => Sys2Proof.Machine.execLdac core g acb sh s
  | .addac core g acb sh => Sys2Proof.Machine.execAddac core g acb sh s
  | .gets core g => Sys2Proof.Machine.execGets core g s
  | .clrs core => Sys2Proof.Machine.execClrs core s
  | .br core target => Sys2Proof.Machine.execBr core target s
  | .beq core s1 s2 target => Sys2Proof.Machine.execBeq core s1 s2 target s
  | .bne core s1 s2 target => Sys2Proof.Machine.execBne core s1 s2 target s
  | .blt core s1 s2 target => Sys2Proof.Machine.execBlt core s1 s2 target s
  | .bge core s1 s2 target => Sys2Proof.Machine.execBge core s1 s2 target s
  | .call core target => Sys2Proof.Machine.execCall core target s
  | .jr core s1 => Sys2Proof.Machine.execJr core s1 s
  | .loopi core stop count => Sys2Proof.Machine.execLoopi core stop count s
  | .loop core stop g => Sys2Proof.Machine.execLoop core stop g s
  | .rete core => Sys2Proof.Machine.execRete core s
  | .halt core => Sys2Proof.Machine.execHalt core s
  | .out core g => Sys2Proof.Machine.execOut core g s
  | .evt core a => Sys2Proof.Machine.execEvt core a s
  | .parallelMove core mv => Sys2Proof.Machine.execParallelMove core mv s
  | .mac core acb s1 s2 mv => Sys2Proof.Machine.execMac core acb s1 s2 mv s
  | .msu core acb s1 s2 mv => Sys2Proof.Machine.execMsu core acb s1 s2 mv s
  | .mpy core acb s1 s2 mv => Sys2Proof.Machine.execMpy core acb s1 s2 mv s
  | .macl core acb s1 s2 mv => Sys2Proof.Machine.execMacl core acb s1 s2 mv s
  | .mach core acb s1 s2 mv => Sys2Proof.Machine.execMach core acb s1 s2 mv s
  | .macx core acb s1 s2 mv => Sys2Proof.Machine.execMacx core acb s1 s2 mv s
  | .cmaci core acb s1 s2 mv => Sys2Proof.Machine.execCmaci core acb s1 s2 mv s
  | .combLineWrite r => Sys2Proof.Machine.execCombLineWrite r s
  | .combLineDiscard r => Sys2Proof.Machine.execCombLineDiscard r s
  | .hostTrigger v slot => Sys2Proof.Machine.execHostTrigger v slot s
  | .trigInEdge input rising tap => Sys2Proof.Machine.execTrigInEdge input rising tap s
  | .captureComplete slot errors => Sys2Proof.Machine.execCaptureComplete slot errors s
  | .reArm v slot => Sys2Proof.Machine.execReArm v slot s
  | .evtOutPulseEnd n => Sys2Proof.Machine.execEvtOutPulseEnd n s
  | .syncTriggerSend => Sys2Proof.Machine.execSyncTriggerSend s
  | .packetTransmit p => Sys2Proof.Machine.execPacketTransmit p s
  | .linkLoss link => Sys2Proof.Machine.execLinkLoss link s
  | .retrainAttemptExpiry link => Sys2Proof.Machine.execRetrainAttemptExpiry link s
  | .linkRetry link => Sys2Proof.Machine.execLinkRetry link s
  | .linkUp link => Sys2Proof.Machine.execLinkUp link s
  | .arpRefresh link ip => Sys2Proof.Machine.execArpRefresh link ip s
  | .arpRequest link ip senderIp senderMac => Sys2Proof.Machine.execArpRequest link ip senderIp senderMac s
  | .icmpEcho link ip senderIp data => Sys2Proof.Machine.execIcmpEcho link ip senderIp data s
  | .pauseReceived link => Sys2Proof.Machine.execPauseReceived link s
  | .gatheredFrameClose => Sys2Proof.Machine.execGatheredFrameClose s
  | .telemetrySample => Sys2Proof.Machine.execTelemetrySample s
  | .timestampFrameClose => Sys2Proof.Machine.execTimestampFrameClose s
  | .tsEdge input rising held tap => Sys2Proof.Machine.execTsEdge input rising held tap s
  | .rateCeilingWindow => Sys2Proof.Machine.execRateCeilingWindow s
  | .frequencyGateEnd n tFirst tLast => Sys2Proof.Machine.execFrequencyGateEnd n tFirst tLast s
  | .timeSet v ns frac => Sys2Proof.Machine.execTimeSet v ns frac s
  | .discipline => Sys2Proof.Machine.execDiscipline s
  | .ppsInEdge rising tap refin => Sys2Proof.Machine.execPpsInEdge rising tap refin s
  | .ppsInTimeout => Sys2Proof.Machine.execPpsInTimeout s
  | .refinGate count => Sys2Proof.Machine.execRefinGate count s
  | .referenceRevert => Sys2Proof.Machine.execReferenceRevert s
  | .holdoverLimitExpiry => Sys2Proof.Machine.execHoldoverLimitExpiry s
  | .ocxoWarmChange level => Sys2Proof.Machine.execOcxoWarmChange level s
  | .ppsOutPulse => Sys2Proof.Machine.execPpsOutPulse s
  | .ppsOutWidthEnd => Sys2Proof.Machine.execPpsOutWidthEnd s
  | .ptpSyncReceive m => Sys2Proof.Machine.execPtpSyncReceive m s
  | .ptpMessageReceive m => Sys2Proof.Machine.execPtpMessageReceive m s
  | .ptpInterval k => Sys2Proof.Machine.execPtpInterval k s
  | .ptpSyncTimeout => Sys2Proof.Machine.execPtpSyncTimeout s
  | .tdcCalibrationStart => Sys2Proof.Machine.execTdcCalibrationStart s
  | .tdcCalibrationComplete hits => Sys2Proof.Machine.execTdcCalibrationComplete hits s
  | .syncCycle => Sys2Proof.Machine.execSyncCycle s
  | .syncLeaderMessage bits edge => Sys2Proof.Machine.execSyncLeaderMessage bits edge s
  | .syncDelayReq m edge => Sys2Proof.Machine.execSyncDelayReq m edge s
  | .syncTrigger m => Sys2Proof.Machine.execSyncTrigger m s
  | .syncListenExpiry running => Sys2Proof.Machine.execSyncListenExpiry running s
  | .refreshDue ch rank spare => Sys2Proof.Machine.execRefreshDue ch rank spare s
  | .mr4Read ch code0 code1 => Sys2Proof.Machine.execMr4Read ch code0 code1 s
  | .neighbourRefresh ch => Sys2Proof.Machine.execNeighbourRefresh ch s
  | .rowIdleClose ch rank bank => Sys2Proof.Machine.execRowIdleClose ch rank bank s
  | .lateRequestDiscard ch stream r => Sys2Proof.Machine.execLateRequestDiscard ch stream r s
  | .retrainTrigger m => Sys2Proof.Machine.execRetrainTrigger m s
  | .retrainRequest v => Sys2Proof.Machine.execRetrainRequest v s
  | .dramTrainingComplete ch t temp => Sys2Proof.Machine.execDramTrainingComplete ch t temp s
  | .backlogCopyComplete errors => Sys2Proof.Machine.execBacklogCopyComplete errors s
  | .patrolScrub ch res spare => Sys2Proof.Machine.execPatrolScrub ch res spare s
  | .hiveScrub store bank place res owner => Sys2Proof.Machine.execHiveScrub store bank place res owner s
  | .hiveRowSpare store bank row => Sys2Proof.Machine.execHiveRowSpare store bank row s
  | .sequencePassStart => Sys2Proof.Machine.execSequencePassStart s
  | .sequenceRequest v => Sys2Proof.Machine.execSequenceRequest v s
  | .injectedTrigger v => Sys2Proof.Machine.execInjectedTrigger v s
  | .conversionComplete conv outputs => Sys2Proof.Machine.execConversionComplete conv outputs s
  | .hkaCalibrationStart v => Sys2Proof.Machine.execHkaCalibrationStart v s
  | .hkaCalibrationComplete => Sys2Proof.Machine.execHkaCalibrationComplete s
  | .excitationChange => Sys2Proof.Machine.execExcitationChange s
  | .powerOn => Sys2Proof.Machine.execPowerOn s
  | .resetN => Sys2Proof.Machine.execResetN s
  | .resetRelease f => Sys2Proof.Machine.execResetRelease f s
  | .xt1Ready x => Sys2Proof.Machine.execXt1Ready x s
  | .xt1ReadyTimeout => Sys2Proof.Machine.execXt1ReadyTimeout s
  | .xt1Stop => Sys2Proof.Machine.execXt1Stop s
  | .pllaLoss => Sys2Proof.Machine.execPllaLoss s
  | .pllsLoss => Sys2Proof.Machine.execPllsLoss s
  | .pllmLoss => Sys2Proof.Machine.execPllmLoss s
  | .plllLoss => Sys2Proof.Machine.execPlllLoss s
  | .plltLoss => Sys2Proof.Machine.execPlltLoss s
  | .pllRelockAttempt t ok => Sys2Proof.Machine.execPllRelockAttempt t ok s
  | .xt1Return => Sys2Proof.Machine.execXt1Return s
  | .xt2Loss => Sys2Proof.Machine.execXt2Loss s
  | .canTrim => Sys2Proof.Machine.execCanTrim s
  | .alwaysOnSource v src => Sys2Proof.Machine.execAlwaysOnSource v src s
  | .domainSource v dom src => Sys2Proof.Machine.execDomainSource v dom src s
  | .clockSwitchRetry dom => Sys2Proof.Machine.execClockSwitchRetry dom s
  | .clockSwitchTimeout dom newEdge => Sys2Proof.Machine.execClockSwitchTimeout dom newEdge s
  | .clockSwitchComplete dom => Sys2Proof.Machine.execClockSwitchComplete dom s
  | .gateRequest v mask => Sys2Proof.Machine.execGateRequest v mask s
  | .gateHandshakeTimeout block => Sys2Proof.Machine.execGateHandshakeTimeout block s
  | .avsLoop slack misses => Sys2Proof.Machine.execAvsLoop slack misses s
  | .supplyFailure => Sys2Proof.Machine.execSupplyFailure s
  | .supplyRecovery => Sys2Proof.Machine.execSupplyRecovery s
  | .wakeEdge rising => Sys2Proof.Machine.execWakeEdge rising s
  | .canWake => Sys2Proof.Machine.execCanWake s
  | .rtcAlarm => Sys2Proof.Machine.execRtcAlarm s
  | .rtcSecond => Sys2Proof.Machine.execRtcSecond s
  | .keeperHeartbeat k => Sys2Proof.Machine.execKeeperHeartbeat k s
  | .heartbeatWindow => Sys2Proof.Machine.execHeartbeatWindow s
  | .lockstepMismatch k => Sys2Proof.Machine.execLockstepMismatch k s
  | .targetedTestComplete u pass pass1 => Sys2Proof.Machine.execTargetedTestComplete u pass pass1 s
  | .bistRequest v mask => Sys2Proof.Machine.execBistRequest v mask s
  | .bistComplete bit count signature failing => Sys2Proof.Machine.execBistComplete bit count signature failing s
  | .faultClear v bistPass => Sys2Proof.Machine.execFaultClear v bistPass s
  | .scanEnable v => Sys2Proof.Machine.execScanEnable v s
  | .clearLog v => Sys2Proof.Machine.execClearLog v s
  | .netLinkUp n => Sys2Proof.Machine.execNetLinkUp n s
  | .netLinkDown n => Sys2Proof.Machine.execNetLinkDown n s
  | .arpReply link ip mac => Sys2Proof.Machine.execArpReply link ip mac s
  | .dhcpReply p ip => Sys2Proof.Machine.execDhcpReply p ip s
  | .xt2Ready => Sys2Proof.Machine.execXt2Ready s
  | .pllLockRegained m => Sys2Proof.Machine.execPllLockRegained m s
  | .announceReceiptTimeout => Sys2Proof.Machine.execAnnounceReceiptTimeout s
  | .powerDown => Sys2Proof.Machine.execPowerDown s
  | .tckEdge rising tms tdi => Sys2Proof.Machine.execTckEdge rising tms tdi s

end Sys2Proof.Machine
end

