-- ==== Sys2Proof/Safety.lean ====
section
/-! DEFINITION. The terms that the statements use: which outputs are safe, the canonical form of word memories, what a
Forager instruction may change, and how a write reaches the dictionary over either transport. -/

namespace Sys2Proof.Safety

open Sys2Proof Sys2Proof.Machine

/-! ### Outputs -/

/-- The outputs held safe (Table 3.9): OPT_SAFE_N, EDFA_EN and DTSP low, the MOD DACs muted, the pump and Raman lanes at
zero and clamped. -/
def SafeOutputs (p : Pins) : Prop :=
  p.optSafeN = false ∧ p.edfaA = false ∧ p.edfaB = false ∧ p.modMutedA = true ∧ p.modMutedB = true ∧
  p.dtspA = false ∧ p.dtspB = false ∧ p.clampA = true ∧ p.clampB = true ∧ p.clampR = true ∧
  p.cdac.get 2 = 0 ∧ p.cdac.get 3 = 0 ∧ p.cdac.get 4 = 0

/-- The route's safe subset: its EDFA, its DTSP, its MOD DACs and its own pump lane. -/
def RouteSafeOutputs (p : Pins) : Route → Prop
  | .a => p.edfaA = false ∧ p.modMutedA = true ∧ p.dtspA = false ∧ p.clampA = true ∧ p.cdac.get 2 = 0
  | .b => p.edfaB = false ∧ p.modMutedB = true ∧ p.dtspB = false ∧ p.clampB = true ∧ p.cdac.get 3 = 0

/-- The outputs follow their causes: safe under the safe request, a route's own subset safe while the route is in
LAUNCH_FAIL or disabled, and FAULT_N low exactly while a cause of it holds. -/
def OutputsFollowCauses (s : State) : Prop :=
  (s.power.safeRequest = true → SafeOutputs s.pins) ∧
  (∀ r, s.routeHeld r = true → RouteSafeOutputs s.pins r) ∧
  s.pins.faultN = !s.faultCause

/-! ### Memories -/

/-- The canonical form of a word memory: the numbers rise strictly and no entry equals what an unlisted word reads as. -/
def Memory.wf (dflt : W32) (m : WordMem) : Bool := mapRising m && m.all (fun e => e.2 != dflt)

/-- The memories of a core are canonical: P reads HALT where it lists nothing, X and Y read 0. -/
def CoreMemories (c : Core) : Prop :=
  Memory.wf haltWord c.p = true ∧ Memory.wf 0 c.x = true ∧ Memory.wf 0 c.y = true

/-! ### Forager instructions -/

/-- The core may issue the instruction of a word now: it runs in SENSE, its count of cycles is below W, the word at its pc is
the instruction's, the bits of `free` apart, and reads without an error. -/
def MayIssue (s : State) (core : Fin 8) (w free : W32) : Prop :=
  s.mode = 4 ∧ (s.cores.get core).run ≠ .gated ∧ (s.cores.get core).cycles < (s.cores.get core).slotRec.w ∧
  (s.cores.get core).instr (s.cores.get core).pc ||| free = w ||| free ∧
  (s.cores.get core).flawAt (.p, (s.cores.get core).pc.toNat) = none

/-- Of the whole state only one core has changed; the outputs are as their causes have them. -/
def OnlyCore (s t : State) (core : Fin 8) : Prop := t = (s.setCore core (t.cores.get core)).settle

/-- Core y is core x but for its place in the program, the results still to land and the count of cycles. -/
def SameRegisters (x y : Core) : Prop :=
  y = { x with pc := y.pc, loops := y.loops, branch := y.branch, landing := y.landing, cycles := y.cycles }

/-- The place in the program after an instruction: sequence, loop stack and delay slots as `Core.advance` has them for the
branch target, loop level or skipped body of `e` (R247, R248). -/
def PlaceAfter (e : FgEff) (x y : Core) : Prop :=
  y.pc = (x.advance e).pc ∧ y.loops = (x.advance e).loops ∧ y.branch = (x.advance e).branch

/-- An instruction of n cycles completes: a next state follows in which only its core has changed. The results in flight have
landed, `f` is what the instruction writes itself, `late` what lands one cycle later, and `e` where it goes; with no `e` the
next instruction in sequence follows. -/
def Completes (i : Instr) (s : State) (core : Fin 8) (n : Nat) (late : List Landing) (f : Core → Core) (e : FgEff := {}) : Prop :=
  ∃ t, exec i s = .next t ∧ OnlyCore s t core ∧
    SameRegisters (f (s.cores.get core).land) (t.cores.get core) ∧ PlaceAfter e (s.cores.get core) (t.cores.get core) ∧
    (t.cores.get core).landing = late ∧ (t.cores.get core).cycles = (s.cores.get core).cycles + n

/-- An integer held to w bits, two's complement (R14). -/
def clampTo (w : Nat) (x : Int) : Int := max (-(2 ^ (w - 1))) (min x (2 ^ (w - 1) - 1))

/-! ### Requests and writes -/

/-- A request of a session that is to be executed: it arrives on a link that is up while a Keeper serves, its session is
open, its MAC verifies under the session key, and its sequence number is new (R316, R325, R327). -/
def Authentic (s : State) (r : Req) (op flags : Nat) (body : Bytes) (x : Session) : Prop :=
  s.bdpServes r.peer.net = true ∧ s.mode ≠ 1 ∧ s.session r.session = some x ∧
  r.mac = bdpMac x.key (bdpMessage op flags 0 r.session.toNat r.seq.toNat body) ∧ x.seqCase r.seq.toNat = .fresh

/-- A write of a value reaches the dictionary with the rights of a level: an authentic WRITE of a session of that level, or
an SDO download while the CAN server has that level. -/
def Reaches (s : State) (v : Via) (level idx sub : Nat) (b : Bytes) : Prop :=
  match v with
  | .bdp r => ∃ x, Authentic s r 0x02 0 (objHead idx sub (typeOf idx sub).code ++ b) x ∧ x.level = level
  | .can => s.canServes = true ∧ s.canLevel = level

/-- The state that a write finds: an SDO download ends an SDO transfer that was open. -/
def Opened (v : Via) (s : State) : State :=
  match v with
  | .bdp _ => s
  | .can => { s with control := { s.control with sdo := none } }

/-- State w is u with one message sent in answer: only the sessions, the cache of responses and what has left the ports
differ. -/
def Answered (u w : State) : Prop :=
  ∃ m sessions cache, w = { u with
    out := u.out ++ [m], control := { u.control with sessions := sessions, cache := cache } }

/-- A write command does what its object does: of the state u that the write leaves one answer is sent, and `post` follows. -/
def Does (i : Instr) (s u : State) (post : State → State) : Prop :=
  ∃ w, Answered u w ∧ exec i s = .next (post w).settle

/-! ### Records -/

/-- The objects that a record may change: the log's counts, and the counts of the event stream. -/
def recordKeys : List Nat :=
  [objKey 0x5000 0x01, objKey 0x5000 0x02, objKey 0x2970 0x11, objKey 0x2970 0x13, objKey 0x2970 0x15, objKey 0x2000 0x18]

/-- The DRAM channels differ in the requests that wait alone. -/
def SameChannels (x y : Vector Dram 2) : Prop := ∀ ch : Fin 2, { y.get ch with queue := (x.get ch).queue } = x.get ch

/-- State t is s but for records issued: streams, drawn values, the counts that records move, and the requests that write the event frames to
the backlog. -/
def Recorded (s t : State) : Prop :=
  ∃ free streams od dram, t = { s with free := free, streams := streams, od := od, dram := dram } ∧
    (∀ k, k ∉ recordKeys → dictGet od k = dictGet s.od k) ∧ SameChannels s.dram dram

/-- The newest record of state t, which follows s, is of a type: it stands last in the log, or last of those latched while no
Keeper runs (R446). -/
def NewestRecord (s t : State) (type : Nat) : Prop :=
  ∃ e, (if s.power.dead then t.streams.held else t.streams.log).getLast? = some e ∧ e.type = type

/-- State t is s with one more record of a type. -/
def Records (s t : State) (type : Nat) : Prop := Recorded s t ∧ NewestRecord s t type

end Sys2Proof.Safety
end

