-- ==== Sys2Proof/Certificates/Slice0/Obligations.lean ====
section
/-! DEFINITION. The statements for the provers, family by family in the order of the manual. Each docstring names the rules of
spec/ that its statement formalises. A command completes in the state that the statement gives; outputs follow their causes
within the command (`State.settle`). -/

open Sys2Proof Sys2Proof.Machine Sys2Proof.Safety

/-! ### The step, the outputs, reset -/

/-- A step takes the command at the front of the queue and answers its outcome on the rest of the queue. -/
def Obligations.StepRunsTheFrontCommand : Prop :=
  ∀ (s : State) (c : Instr) (rest : List Instr), s.pending = c :: rest → step s = exec c { s with pending := rest }

/-- With nothing waiting one cycle of the sample clock passes: while the clock runs, no stamp waits to be merged, no BLANK to be recognised and no DRAM
request or refresh debt to be served, device time advances by one increment of R343 and the count of cycles by one, and nothing else changes; while the
clock is stopped all stands (the empty queue as a clock cycle: DESIGN CHOICE, assumption log 2).
Model's choices: assumption log 2, 32. -/
def Obligations.EmptyQueuePassesOneSampleClockCycle : Prop :=
  ∀ s : State, s.pending = [] →
    ∃ t, step s = .next t ∧
      (s.sampleClock = false → t = s.settle) ∧
      (s.sampleClock = true → (∀ i, (s.inputs.get i).queue = []) → s.pins.blank = false ∨ s.pins.blankSeen = true →
        (∀ ch, (s.dram.get ch).queue = [] ∧ (s.dram.get ch).debt.get 0 = 0 ∧ (s.dram.get ch).debt.get 1 = 0) →
        t = ({ s with time := { s.time.set48 (s.time.t48 + (2 ^ 48 + rhuDiv (s.rate * 2 ^ 32) 1000000000)) with
          cycles := s.time.cycles + 1 } } : State).settle)

/-- Tier 3: after every step, from every state, the outputs follow their causes: the outputs of Table 3.9 are safe under the
safe request, a route's own subset is safe while it is in LAUNCH_FAIL or disabled, and FAULT_N is low exactly while a cause
of it holds.
Model's choices: assumption log 8, 42. -/
def Obligations.OutputsFollowTheirCausesAfterEveryStep : Prop :=
  ∀ s t : State, step s = .next t → OutputsFollowCauses t

/-- R464: after every step FAULT_N is low exactly while one of its causes holds: steps 1 and 2 of bring-up (a failed step 2 stays
there), SAFE, no Keeper (R33), scan; and, when OD 1700.05 is set, any of bits 9 to 15 of OD 1700.10, or NO_SPARE in OD 2400.03. -/
def Obligations.FaultNIsLowWhileACauseHolds : Prop :=
  ∀ s t : State, step s = .next t →
    (t.pins.faultN = false ↔
      (∃ k, t.power.bringUp = some k ∧ k < 3) ∨ t.mode = 7 ∨ t.power.dead = true ∨ t.integrity.scan = true ∨
      (t.on 0x1700 0x05 = true ∧
        ((∃ b, 9 ≤ b ∧ b ≤ 15 ∧ bit (t.num 0x1700 0x10) b = true) ∨ bit (t.num 0x2400 0x03) 31 = true)))

/-- No command and no state ends in a fault or a refusal.
Model's choices: assumption log 1, 4. -/
def Obligations.EveryCommandAnswersANextState : Prop :=
  ∀ (c : Instr) (s : State), ∃ t, exec c s = .next t

/-- What reset leaves (Tables 16.8 and 3.9, R105, R464): mode BRING-UP before the release of reset, every safe output safe,
FAULT_N low, the safe request asserted, no Keeper with authority, no session and no draft held, no command waiting.
Model's choices: assumption log 4, 7. -/
def Obligations.ResetHoldsTheSafeOutputs : Prop :=
  State.reset.mode = 1 ∧ State.reset.power.bringUp = some 0 ∧ State.reset.power.safeRequest = true ∧
  SafeOutputs State.reset.pins ∧ State.reset.pins.faultN = false ∧ OutputsFollowCauses State.reset ∧
  State.reset.arbiter.holder = none ∧ State.reset.control.sessions = [] ∧ State.reset.control.holder = none ∧
  State.reset.pending = [] ∧ (∀ c, CoreMemories (State.reset.cores.get c))

/-! ### Arithmetic (R13, R14) -/

/-- R13 and R14: rhu removes F fractional bits by round-half-up, ties toward plus infinity; sat limits to the range of a signed or
an unsigned destination of W bits. -/
def Obligations.RoundingAndSaturationAreAsStated : Prop :=
  ∀ (x : Int) (f w : Nat),
    rhu x 0 = x ∧
    (1 ≤ f → rhu x f = (x + 2 ^ (f - 1)) >>> f ∧ rhu x f = ⌊((x : ℚ) + 2 ^ (f - 1)) / 2 ^ f⌋) ∧
    sat x w = max (-(2 ^ (w - 1))) (min x (2 ^ (w - 1) - 1)) ∧
    (satU x w : Int) = max 0 (min x (2 ^ w - 1))

/-! ### Forager: registers and results (R243 to R246, R252) -/

/-- g0 reads as 0 and discards writes, in either bank; every other register reads what was written to it in the bank that was
written, and no other register of the bank changes (R243).
Model's choices: assumption log 27. -/
def Obligations.GeneralRegistersReadWhatWasWritten : Prop :=
  ∀ (c : Core) (i j : Fin 16) (shadow : Bool) (v : W32),
    c.regIn 0 shadow = 0 ∧ c.setRegIn 0 shadow v = c ∧
    (i ≠ 0 → (c.setRegIn i shadow v).regIn i shadow = v) ∧
    (i ≠ j → (c.setRegIn i shadow v).regIn j shadow = c.regIn j shadow)

/-- Format R with a class A result (Tables 9.4 and 9.7): the result in D, nothing else in the core's registers, memories, accumulators
and status changed, nothing outside the core.
Model's choices: assumption log 27. -/
def Obligations.ForagerRegisterFormResults : Prop :=
  ∀ (s : State) (core : Fin 8) (d s1 s2 : Fin 16),
    let c := s.cores.get core
    let a := c.reg s1
    let b := c.reg s2
    let gives := fun (i : Instr) (op : Nat) (v : W32) =>
      MayIssue s core (encR op d s1 s2) 0 → Completes i s core 1 [] (fun x => x.setReg d v)
    gives (.add core d s1 s2) 0x01 (a + b) ∧
    gives (.sub core d s1 s2) 0x02 (a - b) ∧
    gives (.and core d s1 s2) 0x05 (a &&& b) ∧
    gives (.or core d s1 s2) 0x06 (a ||| b) ∧
    gives (.xor core d s1 s2) 0x07 (a ^^^ b) ∧
    gives (.shl core d s1 s2) 0x08 (a <<< (b.toNat % 32)) ∧
    gives (.shr core d s1 s2) 0x09 (a >>> (b.toNat % 32)) ∧
    gives (.asr core d s1 s2) 0x0A (a.sshiftRight (b.toNat % 32)) ∧
    gives (.min core d s1 s2) 0x0B (BitVec.ofInt 32 (min a.toInt b.toInt)) ∧
    gives (.max core d s1 s2) 0x0C (BitVec.ofInt 32 (max a.toInt b.toInt)) ∧
    gives (.slt core d s1 s2) 0x0E (if a.toInt < b.toInt then 1 else 0) ∧
    gives (.sltu core d s1 s2) 0x0F (if a.toNat < b.toNat then 1 else 0) ∧
    gives (.pack core d s1 s2) 0x10 (BitVec.ofNat 32 (a.toNat % 2 ^ 16 * 2 ^ 16 + b.toNat % 2 ^ 16)) ∧
    gives (.hi core d s1 s2) 0x11 (BitVec.ofInt 32 (BitVec.ofNat 16 (a.toNat / 2 ^ 16)).toInt) ∧
    gives (.lo core d s1 s2) 0x12 (BitVec.ofInt 32 (BitVec.ofNat 16 a.toNat).toInt)

/-- ADDS, SUBS and ABS saturate to 32 bits, and a result that saturated sets SAT of the present bank (R252).
Model's choices: assumption log 27. -/
def Obligations.ForagerSaturatingResults : Prop :=
  ∀ (s : State) (core : Fin 8) (d s1 s2 : Fin 16),
    let c := s.cores.get core
    let gives := fun (i : Instr) (op : Nat) (v : Int) =>
      MayIssue s core (encR op d s1 s2) 0 → Completes i s core 1 [] (fun x =>
        let y := x.setReg d (BitVec.ofInt 32 (clampTo 32 v))
        if clampTo 32 v = v then y else y.setStat x.shadow (x.stat x.shadow ||| 1))
    gives (.adds core d s1 s2) 0x03 ((c.reg s1).toInt + (c.reg s2).toInt) ∧
    gives (.subs core d s1 s2) 0x04 ((c.reg s1).toInt - (c.reg s2).toInt) ∧
    gives (.abs core d s1 s2) 0x0D ((c.reg s1).toInt.natAbs : Int)

/-- MAXI and MINI: the pair D, D + 1 takes S1 and S2 when S1 is above, or below, D; otherwise nothing is written (R252).
Model's choices: assumption log 27. -/
def Obligations.ForagerPairSelection : Prop :=
  ∀ (s : State) (core : Fin 8) (d s1 s2 : Fin 16),
    let c := s.cores.get core
    let both := fun (x : Core) => (x.setReg d (c.reg s1)).setReg (Fin.ofNat 16 (d.val + 1)) (c.reg s2)
    (MayIssue s core (encR 0x13 d s1 s2) 0 →
      Completes (.maxi core d s1 s2) s core 1 [] (fun x => if (c.reg d).toInt < (c.reg s1).toInt then both x else x)) ∧
    (MayIssue s core (encR 0x14 d s1 s2) 0 →
      Completes (.mini core d s1 s2) s core 1 [] (fun x => if (c.reg s1).toInt < (c.reg d).toInt then both x else x))

/-- Format I (Table 9.7, R252): ADDI, ANDI, ORI, XORI, LUI, SHLI, SHRI, ASRI and SLTI write their result to D in one cycle on S1 and the
immediate; nothing else in the core changes but the results that land, the cycle count and the place in the program, and nothing outside the
core.
Model's choices: assumption log 27. -/
def Obligations.ForagerImmediateResults : Prop :=
  ∀ (s : State) (core : Fin 8) (d s1 : Fin 16) (imm : BitVec 16),
    let a := (s.cores.get core).reg s1
    let gives := fun (i : Instr) (w : W32) (v : W32) =>
      MayIssue s core w 0 → Completes i s core 1 [] (fun x => x.setReg d v)
    gives (.addi core d s1 imm) (encI 0x20 d s1 imm) (a + BitVec.ofInt 32 imm.toInt) ∧
    gives (.andi core d s1 imm) (encI 0x21 d s1 imm) (a &&& BitVec.ofNat 32 imm.toNat) ∧
    gives (.ori core d s1 imm) (encI 0x22 d s1 imm) (a ||| BitVec.ofNat 32 imm.toNat) ∧
    gives (.xori core d s1 imm) (encI 0x23 d s1 imm) (a ^^^ BitVec.ofNat 32 imm.toNat) ∧
    gives (.lui core d imm) (encI 0x24 d 0 imm) (BitVec.ofNat 32 (imm.toNat * 2 ^ 16)) ∧
    gives (.shli core d s1 imm) (encI 0x25 d s1 imm) (a <<< (imm.toNat % 32)) ∧
    gives (.shri core d s1 imm) (encI 0x26 d s1 imm) (a >>> (imm.toNat % 32)) ∧
    gives (.asri core d s1 imm) (encI 0x27 d s1 imm) (a.sshiftRight (imm.toNat % 32)) ∧
    gives (.slti core d s1 imm) (encI 0x28 d s1 imm) (if a.toInt < imm.toInt then 1 else 0)

/-- Results of class L and M land one cycle later, in the bank shown at issue, on operands read before (R245, R246): MUL, MULH,
LD, LDA and RND. LD steps its address register by its modifier at once (R249).
Model's choices: assumption log 27. -/
def Obligations.ForagerLateResults : Prop :=
  ∀ (s : State) (core : Fin 8) (d s1 s2 : Fin 16) (i m : Fin 4) (y acb w16 : Bool) (addr : BitVec 13) (sh : BitVec 6),
    let c := s.cores.get core
    let a := adrOf y i
    let lands := fun (g : Fin 16) (v : W32) (sat : Bool) => [({ reg := g, shadow := c.shadow, value := v, sat := sat } : Landing)]
    let r := rhu (c.acc acb) sh.toNat
    let w := if w16 then 16 else 32
    (MayIssue s core (encR 0x18 d s1 s2) 0 → Completes (.mul core d s1 s2) s core 1
      (lands d (BitVec.ofInt 32 (laneLo (c.reg s1) * laneLo (c.reg s2))) false) id) ∧
    (MayIssue s core (encR 0x19 d s1 s2) 0 → Completes (.mulh core d s1 s2) s core 1
      (lands d (BitVec.ofInt 32 (laneHi (c.reg s1) * laneHi (c.reg s2))) false) id) ∧
    (MayIssue s core (encM 0x30 d a m) 0 → c.flawAt (c.place a) = none → Completes (.ld core d y i m) s core 1
      (lands d (memWord (if y then c.y else c.x) (c.adr a).toNat) false) (fun x => x.modAdr a m)) ∧
    (MayIssue s core (encMA 0x32 d y addr) 0 → c.flawAt (if y then .y else .x, addr.toNat) = none → Completes (.lda core d y addr) s core 1
      (lands d (memWord (if y then c.y else c.x) addr.toNat) false) id) ∧
    (MayIssue s core (encACC 0x40 d.val acb w16 sh.toNat) 0 → Completes (.rnd core d acb w16 sh) s core 1
      (lands d (BitVec.ofInt 32 (clampTo w r)) (clampTo w r != r)) id)

/-- ST and STA store one word: it reads back at its address, every other word of X and Y reads as before, and nothing else
changes but the address register of ST; a word written holds no error (R242, R249, R252).
Model's choices: assumption log 27. -/
def Obligations.ForagerStoresOneWord : Prop :=
  ∀ (s : State) (core : Fin 8) (g : Fin 16) (a : Fin 8) (m : Fin 4) (y : Bool) (addr : BitVec 13),
    let c := s.cores.get core
    let stores := fun (i : Instr) (inY : Bool) (p : Nat) (f : Core → Core) =>
      ∃ t, exec i s = .next t ∧ OnlyCore s t core ∧
        (let u := t.cores.get core
         (∀ q, memWord u.y q = if inY = true ∧ q % 8192 = p then c.reg g else memWord c.y q) ∧
         (∀ q, memWord u.x q = if inY = false ∧ q % 8192 = p then c.reg g else memWord c.x q) ∧
         (∀ q, u.flawAt q = if q = (if inY then .y else .x, p) then none else c.flawAt q) ∧
         SameRegisters { f c.land with x := u.x, y := u.y, flaws := u.flaws } u ∧ PlaceAfter {} c u ∧ u.landing = [] ∧ u.cycles = c.cycles + 1)
    (MayIssue s core (encM 0x31 g a m) 0 →
      stores (.st core g a m) (decide (4 ≤ a.val)) (c.adr a).toNat (fun x => x.modAdr a m)) ∧
    (MayIssue s core (encMA 0x33 g y addr) 0 → stores (.sta core g y addr) y addr.toNat id)

/-- Format AR (Table 9.7, R252): SETA, SETN, MOVA, MOVN, GETA, GETN and ADDA write the address, increment or general register named in one
cycle; ADDA wraps in 13 bits; nothing else in the core changes but the results that land, the cycle count and the place in the program.
Model's choices: assumption log 27. -/
def Obligations.ForagerAddressRegisters : Prop :=
  ∀ (s : State) (core : Fin 8) (a : Fin 8) (g : Fin 16) (imm13 : BitVec 13) (imm : BitVec 16),
    let c := s.cores.get core
    (MayIssue s core (encAR 0x38 0 a imm13.toNat) fieldG → Completes (.seta core a imm13) s core 1 [] (fun x => x.setAdr a imm13)) ∧
    (MayIssue s core (encAR 0x39 0 a imm.toNat) fieldG →
      Completes (.setn core a imm) s core 1 [] (fun x => { x with n := x.n.set a imm })) ∧
    (MayIssue s core (encAR 0x3A g.val a 0) 0 →
      Completes (.mova core a g) s core 1 [] (fun x => x.setAdr a (BitVec.ofNat 13 (c.reg g).toNat))) ∧
    (MayIssue s core (encAR 0x3B g.val a 0) 0 →
      Completes (.movn core a g) s core 1 [] (fun x => { x with n := x.n.set a (BitVec.ofNat 16 (c.reg g).toNat) })) ∧
    (MayIssue s core (encAR 0x3C g.val a 0) 0 →
      Completes (.geta core g a) s core 1 [] (fun x => x.setReg g (BitVec.ofNat 32 (c.adr a).toNat))) ∧
    (MayIssue s core (encAR 0x3D g.val a 0) 0 →
      Completes (.getn core g a) s core 1 [] (fun x => x.setReg g (BitVec.ofInt 32 (c.n.get a).toInt))) ∧
    (MayIssue s core (encAR 0x3E 0 a imm.toNat) fieldG →
      Completes (.adda core a imm) s core 1 [] (fun x => x.setAdr a (BitVec.ofInt 13 ((c.adr a).toNat + imm.toInt))))

/-- An accumulator holds what was written to it, saturated to 72 bits; saturation sets ACSAT of the present bank and leaves
the other accumulator (R244, R252).
Model's choices: assumption log 27. -/
def Obligations.AccumulatorsSaturateTo72Bits : Prop :=
  ∀ (c : Core) (b : Bool) (v : Int),
    (c.setAcc b v).acc b = clampTo 72 v ∧ (c.setAcc b v).acc (!b) = c.acc (!b) ∧
    (c.setAcc b v).stat c.shadow = (if clampTo 72 v = v then c.stat c.shadow else c.stat c.shadow ||| 2)

/-- Format ACC (Table 9.7, R252): CLRA clears, LDAC loads and ADDAC adds a shifted register, saturated to 72 bits; GETS reads the status with
the bank, CLRS clears it; nothing else in the core changes but the results that land, the cycle count and the place in the program.
Model's choices: assumption log 27. -/
def Obligations.ForagerAccumulatorInstructions : Prop :=
  ∀ (s : State) (core : Fin 8) (g : Fin 16) (acb : Bool) (sh : BitVec 6),
    let c := s.cores.get core
    (MayIssue s core (encACC 0x41 0 acb false 0) 0 → Completes (.clra core acb) s core 1 [] (fun x => x.setAcc acb 0)) ∧
    (MayIssue s core (encACC 0x42 g.val acb false sh.toNat) fieldW16 →
      Completes (.ldac core g acb sh) s core 1 [] (fun x => x.setAcc acb ((c.reg g).toInt * 2 ^ sh.toNat))) ∧
    (MayIssue s core (encACC 0x43 g.val acb false sh.toNat) fieldW16 →
      Completes (.addac core g acb sh) s core 1 [] (fun x => x.setAcc acb (c.acc acb + (c.reg g).toInt * 2 ^ sh.toNat))) ∧
    (MayIssue s core (encACC 0x44 g.val false false 0) 0 →
      Completes (.gets core g) s core 1 [] (fun x =>
        x.setReg g (BitVec.ofNat 32 (c.stat c.shadow ||| (if c.shadow then 4 else 0)).toNat))) ∧
    (MayIssue s core (encACC 0x45 0 false false 0) 0 → Completes (.clrs core) s core 1 [] (fun x => x.setStat x.shadow 0))

/-- The parallel-move format (R251, Table 9.6): both moves load with the latency of class L and step their address registers at
once; the MAC operation acts on the lanes that its sources hold before.
Model's choices: assumption log 27. -/
def Obligations.ForagerParallelMoves : Prop :=
  ∀ (s : State) (core : Fin 8) (acb : Bool) (s1 s2 : Fin 8) (mv : Moves),
    let c := s.cores.get core
    let xa : Fin 8 := Fin.ofNat 8 mv.xa.val
    let ya : Fin 8 := Fin.ofNat 8 (mv.ya.val + 4)
    let late : List Landing :=
      [⟨Fin.ofNat 16 mv.xd.val, c.shadow, memWord c.x (c.adr xa).toNat, false⟩,
       ⟨Fin.ofNat 16 mv.yd.val, c.shadow, memWord c.y (c.adr ya).toNat, false⟩]
    let step := fun (x : Core) => (x.modAdr xa mv.xm).modAdr ya mv.ym
    let a := c.reg (Fin.ofNat 16 s1.val)
    let b := c.reg (Fin.ofNat 16 s2.val)
    let gives := fun (i : Instr) (mop : Nat) (v : Int) =>
      MayIssue s core (encP mop acb s1 s2 mv) 0 → c.flawAt (c.place xa) = none → c.flawAt (c.place ya) = none →
        Completes i s core 1 late (fun x => step (x.setAcc acb v))
    let reads := c.flawAt (c.place xa) = none ∧ c.flawAt (c.place ya) = none
    (MayIssue s core (encP 0 false 0 0 mv) (fieldAt 127 18) → reads → Completes (.parallelMove core mv) s core 1 late step) ∧
    gives (.mac core acb s1 s2 mv) 1 (c.acc acb + (laneHi a * laneHi b + laneLo a * laneLo b)) ∧
    gives (.msu core acb s1 s2 mv) 2 (c.acc acb - (laneHi a * laneHi b + laneLo a * laneLo b)) ∧
    gives (.mpy core acb s1 s2 mv) 3 (laneHi a * laneHi b + laneLo a * laneLo b) ∧
    gives (.macl core acb s1 s2 mv) 4 (c.acc acb + laneLo a * laneLo b) ∧
    gives (.mach core acb s1 s2 mv) 5 (c.acc acb + laneHi a * laneHi b) ∧
    gives (.macx core acb s1 s2 mv) 6 (c.acc acb + (laneHi a * laneLo b + laneLo a * laneHi b)) ∧
    gives (.cmaci core acb s1 s2 mv) 7 (c.acc acb + (laneHi a * laneLo b - laneLo a * laneHi b))

/-! ### Forager: sequence (R247, R248) -/

/-- R247: BR, BEQ, BNE, BLT, BGE, CALL and JR have two delay slots. Each is taken on the register values that it reads in its own
cycle; after the instructions at the next two addresses execution continues at the target of a taken branch, whatever loop
levels are held, and in sequence otherwise. CALL leaves the address after its delay slots in g15; NOP only goes on. -/
def Obligations.BranchesHaveTwoDelaySlots : Prop :=
  (∀ (s : State) (core : Fin 8) (s1 s2 : Fin 16) (target : BitVec 12),
    let c := s.cores.get core
    let branches := fun (i : Instr) (w free : W32) (p : Prop) [Decidable p] =>
      MayIssue s core w free → Completes i s core 1 [] id { target := if p then some target else none }
    (MayIssue s core 0 0 → Completes (.nop core) s core 1 [] id) ∧
    branches (.br core target) (encB 0x50 0 0 target.toNat) 0 True ∧
    branches (.beq core s1 s2 target) (encB 0x51 s1.val s2.val target.toNat) 0 (c.reg s1 = c.reg s2) ∧
    branches (.bne core s1 s2 target) (encB 0x52 s1.val s2.val target.toNat) 0 (c.reg s1 ≠ c.reg s2) ∧
    branches (.blt core s1 s2 target) (encB 0x53 s1.val s2.val target.toNat) 0 ((c.reg s1).toInt < (c.reg s2).toInt) ∧
    branches (.bge core s1 s2 target) (encB 0x54 s1.val s2.val target.toNat) 0 ((c.reg s2).toInt ≤ (c.reg s1).toInt) ∧
    (MayIssue s core (encB 0x55 0 0 target.toNat) (fieldAt 0xFF 16) →
      Completes (.call core target) s core 1 [] (fun x => x.setReg 15 (BitVec.ofNat 32 (c.pc.toNat + 3)))
        { target := some target }) ∧
    (MayIssue s core (encB 0x56 s1.val 0 0) 0 →
      Completes (.jr core s1) s core 1 [] id { target := some (BitVec.ofNat 12 (c.reg s1).toNat) })) ∧
  (∀ (c : Core) (target : BitVec 12), c.branch = none →
    let taken := c.advance { target := some target }
    let not := c.advance { target := none }
    ((taken.advance {}).advance {}).pc = target ∧ ((taken.advance {}).advance {}).branch = none ∧
    taken.pc = not.pc ∧ taken.loops = not.loops ∧ (taken.advance {}).pc = (not.advance {}).pc ∧
    not.branch = none ∧ (not.advance {}).branch = none ∧
    (c.loops = [] → taken.pc = c.pc + 1 ∧ (taken.advance {}).pc = c.pc + 2 ∧ ((not.advance {}).advance {}).pc = c.pc + 3))

/-- R248: LOOPI and LOOP push a level whose body runs from the next address to the end address; a count of 0 skips the body. At
the end the count decrements; if it is not 0 the body starts again, else the level is popped and the next enclosing level with
the same end is evaluated in the same way. A taken branch pops every level whose body excludes the target, with every level
inside it. A fourth level, or an end beyond the enclosing end, is a program fault (R264). -/
def Obligations.LoopBodiesRepeatByTheirCount : Prop :=
  (∀ (s : State) (core : Fin 8) (stop count : BitVec 12) (g : Fin 16),
    let c := s.cores.get core
    let loops := fun (i : Instr) (w : W32) (n : BitVec 16) =>
      MayIssue s core w 0 →
        (n = 0 → Completes i s core 1 [] id { skip := some stop }) ∧
        (n ≠ 0 → c.loops.length < 3 → (∀ l ∈ c.loops.head?, stop ≤ l.stop) →
          Completes i s core 1 [] id { push := some { start := c.pc + 1, stop := stop, count := n } }) ∧
        (n ≠ 0 → (3 ≤ c.loops.length ∨ ∃ l ∈ c.loops.head?, l.stop < stop) → exec i s = .next (s.programFault core 1).settle)
    loops (.loopi core stop count) (encL 0x58 stop count.toNat) (BitVec.ofNat 16 count.toNat) ∧
    loops (.loop core stop g) (encL 0x59 stop (g.val * 256)) (BitVec.ofNat 16 (c.reg g).toNat)) ∧
  (∀ (c : Core) (stop : BitVec 12) (l : LoopLevel), c.branch = none → (∀ k ∈ c.loops.head?, k.stop ≠ c.pc) →
    (c.advance { skip := some stop }).pc = stop + 1 ∧ (c.advance { skip := some stop }).loops = c.loops ∧
    (l.stop ≠ c.pc → (c.advance { push := some l }).pc = c.pc + 1 ∧ (c.advance { push := some l }).loops = l :: c.loops)) ∧
  (∀ (c : Core) (l : LoopLevel) (rest : List LoopLevel), c.branch = none → c.loops = l :: rest →
    (c.pc = l.stop → l.count ≠ 1 →
      (c.advance {}).pc = l.start ∧ (c.advance {}).loops = { l with count := l.count - 1 } :: rest) ∧
    (c.pc = l.stop → l.count = 1 →
      (c.advance {}).pc = (({ c with loops := rest } : Core).advance {}).pc ∧
      (c.advance {}).loops = (({ c with loops := rest } : Core).advance {}).loops) ∧
    (c.pc ≠ l.stop → (c.advance {}).pc = c.pc + 1 ∧ (c.advance {}).loops = l :: rest)) ∧
  (∀ (c : Core) (target : BitVec 12), c.branch = some (1, target) → (∀ k ∈ c.loops.head?, k.stop ≠ c.pc) →
    let t := c.advance {}
    t.pc = target ∧ ∃ n, t.loops = c.loops.drop n ∧ (∀ k ∈ t.loops, k.start ≤ target ∧ target ≤ k.stop) ∧
      (n = 0 ∨ ∃ k, c.loops[n - 1]? = some k ∧ ¬ (k.start ≤ target ∧ target ≤ k.stop)))

/-- OUT and EVT (R260, R261): a word, or an event record of four words of X, joins the buffer of the invocation; beyond OMAX or
VMAX it is counted and lost. A type outside 0x80 to 0xBF becomes 0x80 and sets SAT.
Model's choices: assumption log 27. -/
def Obligations.ForagerOutputAndEvents : Prop :=
  ∀ (s : State) (core : Fin 8) (g : Fin 16) (a : Fin 4),
    let c := s.cores.get core
    let e := c.evtRecord core (Fin.ofNat 8 a.val)
    let mark := fun (x : Core) => if e.2 then x.markSat x.shadow else x
    let sound := ∀ k < 4, c.flawAt (.x, ((c.adr (Fin.ofNat 8 a.val)).toNat + k) % 8192) = none
    (MayIssue s core (encS 0x60 g.val 0) 0 → c.outBuf.length < c.slotRec.omax →
      Completes (.out core g) s core 1 [] (fun x => { x with outBuf := x.outBuf ++ [c.reg g] })) ∧
    (MayIssue s core (encS 0x60 g.val 0) 0 → c.slotRec.omax ≤ c.outBuf.length →
      exec (.out core g) s = .next ((s.bump (coreIdx core) 0x27 1).setCore core (c.issue 1 (fun _ => {}))).settle) ∧
    (MayIssue s core (encS 0x61 0 a.val) fieldG → sound → c.evtBuf.length < c.slotRec.vmax →
      Completes (.evt core a) s core 4 [] (fun x => { mark x with evtBuf := x.evtBuf ++ [e.1] })) ∧
    (MayIssue s core (encS 0x61 0 a.val) fieldG → sound → c.slotRec.vmax ≤ c.evtBuf.length →
      exec (.evt core a) s = .next ((s.bump (coreIdx core) 0x26 1).setCore core (c.issue 4 (fun _ => { write := mark }))).settle)

/-- The ends of programs (R257, R259, R264): RETE in a handler goes on with the next event or the frame program in 2 cycles and
drops the event from its slot's queue; HALT in the frame program releases the invocation; RETE there, and HALT in a
handler, are program faults, whose cycles count (R262).
Model's choices: assumption log 27. -/
def Obligations.ForagerProgramEnds : Prop :=
  ∀ (s : State) (core : Fin 8),
    let c := s.cores.get core
    (MayIssue s core (opWord 0x5C) 0 → c.run = .handler → ∀ e rest, c.taken = e :: rest →
      exec (.rete core) s = .next ((s.setCore core
        ({ c.land with cycles := c.cycles + 2, taken := rest }.modSlot c.slot
          (fun y => { y with queue := y.queue.erase e })).enter).reportCore core).settle) ∧
    (MayIssue s core (opWord 0x5C) 0 → c.run = .frame → exec (.rete core) s = .next (s.programFault core 2).settle) ∧
    (MayIssue s core (opWord 0x5D) 0 → c.run = .frame →
      exec (.halt core) s = .next ((s.setCore core { c with cycles := c.cycles + 1 }).release core).settle) ∧
    (MayIssue s core (opWord 0x5D) 0 → c.run = .handler → exec (.halt core) s = .next (s.programFault core 1).settle)

/-- The start of an invocation (R257, R259): the slot whose transfer completed first runs on its input frame with empty
buffers; it enters the handler of its first event in 18 cycles, or its frame program in 16.
Model's choices: assumption log 27. -/
def Obligations.InvocationsBeginOnTheOldestInput : Prop :=
  ∀ (s : State) (core : Fin 8) (slot : Fin 4) (flaws : List CoreFlaw) (f : InputFrame),
    let c := s.cores.get core
    let r := s.slotOf core slot
    (c.fslot slot).waiting = some f → s.coreRuns core = true → c.run = .gated → c.nextSlot = some slot → s.cyc < f.lateFrom →
    ∃ t, exec (.invocationStart core ⟨slot, flaws⟩) s = .next t ∧
      (∃ od cores, t = ({ s with od := od, cores := cores } : State).settle) ∧
      (∀ d, d ≠ core → t.cores.get d = s.cores.get d) ∧
      (let u := t.cores.get core
       u.slot = slot ∧ u.input = some f ∧ u.outBuf = [] ∧ u.evtBuf = [] ∧ u.landing = [] ∧ u.loops = [] ∧ u.flaws = flaws ∧
       (u.fslot slot).waiting = none ∧
       (u.taken = [] → u.run = .frame ∧ u.pc = BitVec.ofNat 12 r.entry ∧ u.cycles = 16) ∧
       (u.taken ≠ [] → u.run = .handler ∧ u.pc = BitVec.ofNat 12 r.handler ∧ u.cycles = 18))

/-- Aborts (R263, R265): at W cycles, and 100 us before the deadline of the feature frame, the invocation in progress is
aborted and counted; an input frame that still waits is skipped; a load of an uncorrectable word, or a fetch of
one, loads the core, and a corrected one is counted and used.
Model's choices: assumption log 9, 27. -/
def Obligations.InvocationsAreAborted : Prop :=
  ∀ (s : State) (core : Fin 8) (slot : Fin 4) (g : Fin 16) (y : Bool) (n m : Fin 4),
    let c := s.cores.get core
    let a := adrOf y n
    let i := coreIdx core
    (s.mode = 4 → c.run ≠ .gated → c.slotRec.w ≤ c.cycles →
      exec (.cycleAbort core) s = .next ((s.bump i 0x22 1).abortInvocation core false).settle) ∧
    (s.mode = 4 → c.run ≠ .gated → c.slot = slot →
      exec (.deadlineAbort core slot) s =
        .next ((((s.bump i 0x23 1).bump 0x2980 0x11 1).bump 0x2000 0x18 1).abortInvocation core false).settle) ∧
    (s.mode = 4 → c.run = .gated → (c.fslot slot).waiting.isSome = true →
      exec (.deadlineAbort core slot) s = .next (s.skipLate core slot).settle) ∧
    (s.mode = 4 → c.ready (encM 0x30 g a m) 0 = true →
      (c.flawAt (.p, c.pc.toNat) = some true ∨ c.flawAt (c.place a) = some true →
        exec (.ld core g y n m) s = .next (s.coreEcc core).settle) ∧
      (c.flawAt (.p, c.pc.toNat) = none → c.flawAt (c.place a) = some false →
        ∃ t, exec (.ld core g y n m) s = .next t ∧ t.num i 0x29 = incWrap (s.num i 0x29) 1 32 ∧
          (t.cores.get core).landing = [⟨g, c.shadow, memWord (if y then c.y else c.x) (c.adr a).toNat, false⟩]))

/-- Every Forager instruction keeps the memories of its core canonical (tier 2): with them canonical before, they are
canonical in the next state.
Model's choices: assumption log 27. -/
def Obligations.ForagerInstructionsKeepMemoriesCanonical : Prop :=
  ∀ (s t : State) (core : Fin 8) (g : Fin 16) (a : Fin 8) (n m : Fin 4) (y : Bool) (addr : BitVec 13),
    CoreMemories (s.cores.get core) →
    (exec (.st core g a m) s = .next t ∨ exec (.sta core g y addr) s = .next t ∨
      exec (.ld core g y n m) s = .next t ∨ exec (.out core g) s = .next t ∨ exec (.rete core) s = .next t) →
    CoreMemories (t.cores.get core)

/-! ### The control protocol (R313 to R331) -/

/-- OPEN and PROOF (R323 to R325): a challenge with a new identifier and a nonce answers OPEN; the right proof opens the session
under the key of R324, a wrong one drops the identifier and counts, and the eighth failure locks out until the lock-out ends.
Model's choices: assumption log 1, 11. -/
def Obligations.SessionsOpenByChallengeAndProof : Prop :=
  ∀ (s : State) (a : Peer) (seq id : W32) (level : Byte) (nonce p : Bytes) (ch : Challenge),
    let c := s.control
    let drop := c.challenges.filter (fun x => x.id != id)
    let key := c.levelKey ch.level
    let right := proofOf key "BDP-PROOF" id ch.hostNonce ch.deviceNonce ch.level
    let ks := sessionKey key id ch.hostNonce ch.deviceNonce
    (s.bdpServes a.net = true → s.mode ≠ 1 → level.toNat ≤ 3 → nonce.length = 16 → c.lockout = false →
      s.integrity.otpLocked = false → c.sessions.length < 16 →
      ∃ (new : W32) (nd : Bytes), new ≠ 0 ∧ nd.length = 16 ∧
        exec (.openSession a seq level nonce) s = .next ({ s with
          free := s.free + 2
          control := { c with challenges := c.challenges ++ [⟨new, level.toNat, nonce, nd⟩] }
          out := s.out ++ [.bdp a (bdpMessage 0x11 128 0 new.toNat seq.toNat (beBytes 4 new.toNat ++ nd))] } : State).settle) ∧
    (s.bdpServes a.net = true → s.mode ≠ 1 → c.challenges.find? (fun x => x.id == id) = some ch →
      (p = right → p.length = 32 → c.sessions.length < 16 →
        exec (.proof a seq id p) s = .next ({ s with
          control := { c with challenges := drop, sessions := c.sessions ++ [⟨id, ch.level, ks, 0, [], none, none, 0⟩] }
          out := s.out ++ [.bdp a (sealed ks (bdpMessage 0x13 128 0 id.toNat seq.toNat (beBytes 4 id.toNat ++
            proofOf key "BDP-ACCEPT" id ch.hostNonce ch.deviceNonce ch.level)))] } : State).settle) ∧
      (p ≠ right → p.length = 32 →
        ∃ t, exec (.proof a seq id p) s = .next t ∧ t.control.challenges = drop ∧ t.control.sessions = c.sessions ∧
          t.od = (s.bump 0x1130 0x21 1).od ∧ t.out = s.out ++ [.bdp a (bdpMessage 0x12 128 11 id.toNat seq.toNat [])] ∧
          (7 ≤ (c.proofFails.filter (fun t => decide (s.cyc < t + 10000000000))).length → t.control.lockout = true))) ∧
    exec (.challengeLapse id) s = .next ({ s with control := { c with challenges := drop } } : State).settle ∧
    (c.lockout = true →
      exec .authLockoutEnd s = .next ({ s with control := { c with lockout := false, proofFails := [] } } : State).settle)

/-- CLOSE and the idle timeout (R314, R326): the answer to CLOSE leaves, then the session ends: it is no longer open, no
subscription of it is left, and it holds no draft.
Model's choices: assumption log 11. -/
def Obligations.SessionsEndWithTheirSubscriptions : Prop :=
  ∀ (s : State) (r : Req) (x : Session) (id : W32),
    (Authentic s r 0x14 0 [] x →
      ∃ w t, Answered s w ∧ exec (.closeSession r) s = .next t ∧ t = (w.endSession x.id).settle ∧
        t.session x.id = none ∧ (∀ b ∈ t.control.subs, b.session ≠ x.id) ∧ t.control.holder ≠ some (.session x.id)) ∧
    ((s.session id).isSome = true →
      ∃ t, exec (.sessionIdleTimeout id) s = .next t ∧ t = (s.endSession id).settle ∧ t.session id = none ∧
        (∀ b ∈ t.control.subs, b.session ≠ id) ∧ t.control.holder ≠ some (.session id)) ∧
    (s.control.holder = some .can → exec .canDraftIdleTimeout s = .next (s.releaseDraft).settle ∧ s.releaseDraft.control.holder = none)

/-- READ and READ_BLOCK (R313, R318, R320, R321): an object that the level may read is answered with its type and value, from the
draft when DRAFT is set and the object carries S; fragments after offset 0 of an object of up to 65,536 bytes come from the
copy that the read at offset 0 took, and where there is none from the object as it is; the event log is read from the DRAM (R447).
Model's choices: assumption log 11, 43. -/
def Obligations.ReadsAnswerTheValue : Prop :=
  ∀ (s : State) (r : Req) (x : Session) (draft : Bool) (off : W32) (i : BitVec 16) (sub : Byte) (max : BitVec 16) (errors : List BurstError)
    (o : ObjRow) (l : Nat),
    findObj i.toNat sub.toNat = .row o → o.rd = some l → l ≤ x.level →
    let k := objKey i.toNat sub.toNat
    let value := wireBytes o.ty (if draft && o.draft then dictGet s.draftNow k else s.readObj i.toNat sub.toNat)
    let now := wireBytes o.ty (s.readObj i.toNat sub.toNat)
    let u := s.domainRead i.toNat sub.toNat off.toNat max.toNat errors
    let read := wireBytes o.ty (u.readObj i.toNat sub.toNat)
    let asked := Authentic s r 0x03 0 (objHead i.toNat sub.toNat 0 ++ beBytes 4 off.toNat ++ beBytes 2 max.toNat) x
    let part := fun (u : State) (from' : Bytes) => u.answer r.peer x.key x.id r.seq.toNat 0x03 0 0
      (objHead i.toNat sub.toNat 0 ++ beBytes 4 from'.length ++ beBytes 4 off.toNat ++ (from'.drop off.toNat).take max.toNat)
    (Authentic s r 0x01 (b2n draft * 64) (objHead i.toNat sub.toNat 0) x → o.ty ≠ .domain → (o.ty = .str → value.length ≤ 1396) →
      exec (.read r draft i sub) s = .next (s.answer r.peer x.key x.id r.seq.toNat 0x01 0 0
        (objHead i.toNat sub.toNat o.ty.code ++ value)).settle) ∧
    (asked → o.ty = .domain → captureData i.toNat sub.toNat = none → 1 ≤ max.toNat → max.toNat ≤ 1388 →
      (off = 0 → exec (.readBlock r i sub ⟨off, max⟩ errors) s =
        .next (part (u.modSession x.id (fun y => { y with read := some ⟨k, read, false⟩ })) read).settle) ∧
      (off ≠ 0 → x.read = none → off.toNat ≤ now.length → exec (.readBlock r i sub ⟨off, max⟩ errors) s = .next (part u read).settle) ∧
      (∀ b, off ≠ 0 → x.read = some b → b.key = k → b.copy.length ≤ 65536 → off.toNat ≤ b.copy.length →
        exec (.readBlock r i sub ⟨off, max⟩ errors) s = .next (part s b.copy).settle))

/-- WRITE and the SDO download of an S object (R313 to R315, R330): with its checks passed the value reaches the draft, which the
writer takes when no one holds it, and no value in force changes.
Model's choices: assumption log 11, 15. -/
def Obligations.WritesOfStagedObjectsReachTheDraft : Prop :=
  ∀ (s : State) (v : Via) (level l : Nat) (i : BitVec 16) (sub : Byte) (b : Bytes) (o : ObjRow) (c : Client),
    findObj i.toNat sub.toNat = .row o → o.draft = true → o.live = false → o.wr = some l → l ≤ level → s.mode ≠ 7 →
    blockOnly o b.length = false → lengthOk o.ty b.length = true → inRange o (ofWire o.ty b) = true →
    Reaches s v level i.toNat sub.toNat b → viaClient v = c → (∀ h, s.control.holder = some h → h = c) →
    ∃ w, Answered (((Opened v s).takeDraft c).setDraft (objKey i.toNat sub.toNat) (ofWire o.ty b)) w ∧
      (match v with
       | .bdp r => exec (.write r i sub (BitVec.ofNat 8 o.ty.code) b) s = .next w.settle
       | .can => exec (.sdoDownload i sub false (swapWire o.ty b)) s = .next w.settle) ∧
      w.control.holder = some c ∧ dictGet w.control.draft (objKey i.toNat sub.toNat) = ofWire o.ty b ∧
      (∀ k, k ≠ objKey 0x1200 0x01 → k ≠ objKey 0x1200 0x06 → k ≠ objKey 0x1200 0x07 → w.val k = s.val k)

/-- A write that fails a check changes nothing and is answered by the first status in the order of R313: NO_OBJECT, NO_SUBINDEX,
DENIED, WRONG_MODE in SAFE, BUSY for a draft of another client, BAD_TYPE, OUT_OF_RANGE.
Model's choices: assumption log 11. -/
def Obligations.WritesAreCheckedInOrder : Prop :=
  ∀ (s : State) (r : Req) (x : Session) (i : BitVec 16) (sub ty : Byte) (b : Bytes),
    Authentic s r 0x02 0 (objHead i.toNat sub.toNat ty.toNat ++ b) x →
    let fails := fun (n : Nat) =>
      exec (.write r i sub ty b) s = .next (s.answer r.peer x.key x.id r.seq.toNat 0x02 0 n []).settle
    (findObj i.toNat sub.toNat = .noObject → fails 4) ∧
    (findObj i.toNat sub.toNat = .noSubindex → fails 5) ∧
    (∀ n, findObj i.toNat sub.toNat = .count n → fails 3) ∧
    (∀ o, findObj i.toNat sub.toNat = .row o → o.wr = none → fails 3) ∧
    (∀ o l, findObj i.toNat sub.toNat = .row o → o.wr = some l →
      (x.level < l → fails 3) ∧
      (l ≤ x.level →
        let allowed := s.mode ≠ 7 ∨ (i.toNat = 0x1300 ∧ sub.toNat = 0x01) ∨ (i.toNat = 0x1700 ∧ sub.toNat = 0x02)
        let held := o.draft = true ∧ o.live = false ∧ ∃ h, s.control.holder = some h ∧ h ≠ .session x.id
        let fits := ty.toNat = o.ty.code ∧ blockOnly o b.length = false ∧ lengthOk o.ty b.length = true
        (¬ allowed → fails 9) ∧
        (allowed → held → fails 1) ∧
        (allowed → ¬ held → (i.toNat = 0x1200 → sub.toNat ≠ 0x11) → ¬ fits → fails 6) ∧
        (allowed → ¬ held → (i.toNat = 0x1200 → sub.toNat ≠ 0x11) → fits → inRange o (ofWire o.ty b) = false → fails 7)))

/-- WRITE_BLOCK, its ABORT, the import of an image and a firmware image (R320, R322, R339, R340): fragments collect in the
session, in sequence from offset 0; the last one writes the object as a whole: that of an S object into the draft.
Model's choices: assumption log 11, 14. -/
def Obligations.BlockWritesCollectTheirFragments : Prop :=
  ∀ (s : State) (r : Req) (f : Fragment) (x : Session) (i : BitVec 16) (sub : Byte) (o : ObjRow) (w : BlockWrite) (l : Nat),
    let body := fun (idx sub : Nat) =>
      objHead idx sub (b2n f.last * 2 + b2n f.first) ++ beBytes 4 f.off.toNat ++ beBytes 4 f.total.toNat ++ f.data
    let k := objKey i.toNat sub.toNat
    let open' := fun (u : State) (b : Option BlockWrite) => u.modSession x.id (fun y => { y with block := b })
    let whole := w.data ++ f.data
    let sent := 1 ≤ f.data.length ∧ f.data.length ≤ 1388
    let fits := sent ∧ f.first = false ∧ f.last = true ∧ f.off.toNat = w.data.length ∧ whole.length = w.total
    (Authentic s r 0x04 0 (body i.toNat sub.toNat) x → s.mode ≠ 7 → sent →
      (findObj i.toNat sub.toNat = .row o → o.ty = .domain → o.draft = true → o.live = false → f.first = true → f.last = false →
        f.off = 0 → f.data.length ≤ f.total.toNat → inRange o (.blob (List.replicate f.total.toNat 0)) = true →
        (∀ h, s.control.holder = some h → h = .session x.id) → x.block = none →
        ∃ t, exec (.writeBlock r f i sub) s = .next (t.answer r.peer x.key x.id r.seq.toNat 0x04 0 0
            (objHead i.toNat sub.toNat 0 ++ beBytes 4 f.data.length)).settle ∧
          t = open' (open' (s.takeDraft (.session x.id)) (some ⟨k, f.total.toNat, []⟩)) (some ⟨k, f.total.toNat, f.data⟩)) ∧
      (x.block = some w → w.key = k → f.first = false → f.last = false → f.off.toNat = w.data.length → whole.length ≤ w.total →
        exec (.writeBlock r f i sub) s = .next ((open' s (some { w with data := whole })).answer r.peer x.key x.id r.seq.toNat
          0x04 0 0 (objHead i.toNat sub.toNat 0 ++ beBytes 4 whole.length)).settle) ∧
      (x.block = some w → w.key = k → fits → findObj i.toNat sub.toNat = .row o → o.ty = .domain → o.draft = true → o.live = false →
        o.wr = some l → l ≤ x.level → lengthOk o.ty whole.length = true → inRange o (ofWire o.ty whole) = true →
        (∀ h, s.control.holder = some h → h = .session x.id) →
        ∃ t, Answered (((open' s none).takeDraft (.session x.id)).setDraft k (ofWire o.ty whole)) t ∧
          exec (.writeBlock r f i sub) s = .next t.settle) ∧
      (x.block = some w → w.key ≠ k →
        exec (.writeBlock r f i sub) s = .next (s.answer r.peer x.key x.id r.seq.toNat 0x04 0 1 []).settle)) ∧
    (Authentic s r 0x06 0 [1] x →
      exec (.abortBlockWrite r) s = .next ((open' s none).answer r.peer x.key x.id r.seq.toNat 0x06 0 0 []).settle) ∧
    (Authentic s r 0x04 0 (body 0x1200 0x11) x → s.mode ≠ 7 → x.block = some w → w.key = objKey 0x1200 0x11 → fits →
      2 ≤ x.level → s.control.holder = some (.session x.id) → whole.length ≤ 8388608 → (importImage s.control.signKey whole).1 = 0 →
      ∃ u t, Answered u t ∧ exec (.imageImport r f) s = .next t.settle ∧
        u = { open' s none with control := { (open' s none).control with draft := (importImage s.control.signKey whole).2 } }) ∧
    (Authentic s r 0x04 0 (body 0x1210 0x10) x → s.mode = 6 → x.block = some w → w.key = objKey 0x1210 0x10 → fits →
      2 ≤ x.level → whole.length ≤ 4194304 →
      ∃ u t, Answered u t ∧ exec (.firmwareImage r f) s = .next t.settle ∧
        let m := parseFirmware Config.firmwareKey Config.minFirmware whole
        (m.1 ≠ 0 → u = open' s none) ∧
        (m.1 = 0 → u = { open' s none with control := if s.control.fwRunning then { (open' s none).control with fwA := m.2 }
                                                       else { (open' s none).control with fwB := m.2 } }))

/-- SUBSCRIBE and the intervals of subscriptions (R329): a new subscription replaces the one of the same object, mode 1 notifies
at once, mode 0 cancels; at the end of an interval a subscription of mode 2 notifies.
Model's choices: assumption log 9, 11. -/
def Obligations.SubscriptionsNotify : Prop :=
  ∀ (s : State) (r : Req) (x : Session) (i : BitVec 16) (sub : Byte) (interval : W32) (b : Subscription),
    let k := objKey i.toNat sub.toNat
    let v := s.readBytes x.level i.toNat sub.toNat false
    let others := s.control.subs.filter (fun b => !(b.session == x.id && b.key == k))
    let asked := fun (mode : Nat) => Authentic s r 0x07 0 (subscribeBody i.toNat sub.toNat mode interval.toNat) x ∧ v.1 = 0
    let new := fun (mode : Nat) => ({ session := x.id, key := k, mode := mode, interval := interval.toNat, peer := r.peer, last := none } : Subscription)
    let after := fun (l : List Subscription) => ({ s with control := { s.control with subs := l } } : State)
    let ok := v.2.1 ≠ .domain ∧ 10 ≤ interval.toNat ∧ interval.toNat ≤ 60000 ∧ others.length < 64
    (asked 0 → ∃ w, Answered (after others) w ∧ exec (.subscribeCancel r i sub interval) s = .next w.settle) ∧
    (asked 1 → ok → ∃ w, Answered (after (others ++ [new 1])) w ∧
      exec (.subscribeOnChange r i sub interval) s = .next (w.notify (new 1) v.2.1 v.2.2).settle) ∧
    (asked 2 → ok → ∃ w, Answered (after (others ++ [new 2])) w ∧ exec (.subscribePeriodic r i sub interval) s = .next w.settle) ∧
    (s.subscription x.id k = some b → s.session x.id = some x → v.1 = 0 → s.bdpServes b.peer.net = true → s.mode ≠ 1 →
      (b.mode = 2 ∨ b.last ≠ some (.blob v.2.2) →
        ∃ t, exec (.subscriptionInterval x.id i sub) s = .next t ∧ t.od = s.od ∧
          t.out = s.out ++ [.bdp b.peer (sealed x.key (bdpMessage 0x08 0 0 b.session.toNat (x.notifySeq + 1)
            (objHead (b.key / 256) (b.key % 256) v.2.1.code ++ v.2.2)))]) ∧
      (b.mode ≠ 2 → b.last = some (.blob v.2.2) → exec (.subscriptionInterval x.id i sub) s = .next s.settle))

/-- Requests out of place (R316, R317, R325, R327): before the end of bring-up a request is answered REFUSED_BRINGUP, and of a session
that is not open NO_SESSION, both without a MAC; a request executed before is answered from the cache and counted, with
nothing executed; a malformed one whose MAC verifies is answered OUT_OF_RANGE, COMMIT with its body (R318); and one whose MAC does not verify changes nothing but
the count of OD 1130.21, whatever it asks for.
Model's choices: assumption log 11. -/
def Obligations.RequestsOutOfPlace : Prop :=
  ∀ (s : State) (r : Req) (x : Session) (draft : Bool) (i : BitVec 16) (sub op ty : Byte) (c : Cached) (raw b : Bytes)
    (off interval : W32) (max : BitVec 16) (f : Fragment) (errors : List BurstError),
    s.bdpServes r.peer.net = true →
    let bare := fun (op n : Nat) => s.emit (.bdp r.peer (bdpMessage op 128 n r.session.toNat r.seq.toNat []))
    (s.mode = 1 → exec (.read r draft i sub) s = .next (bare 0x01 2).settle) ∧
    (s.mode ≠ 1 → s.session r.session = none → exec (.read r draft i sub) s = .next (bare 0x01 10).settle) ∧
    (s.mode ≠ 1 → s.session r.session = some x → x.seqCase r.seq.toNat = .executed →
      r.mac = bdpMac x.key (bdpMessage 0x01 (b2n draft * 64) 0 r.session.toNat r.seq.toNat (objHead i.toNat sub.toNat 0)) →
      s.control.cache.find? (fun c => c.session == r.session && c.seq == r.seq.toNat) = some c →
      exec (.read r draft i sub) s = .next ((s.bump 0x1130 0x22 1).emit (.bdp r.peer c.bytes)).settle) ∧
    (s.mode ≠ 1 → s.session r.session = some x → x.seqCase r.seq.toNat = .fresh → r.mac = bdpMac x.key raw →
      16 ≤ raw.length → beField raw 0 1 = 1 → beField raw 1 1 = op.toNat → beField raw 4 4 = r.session.toNat →
      beField raw 8 4 = r.seq.toNat → malformed raw = true →
      exec (.bdpInvalidRequest r op raw) s = .next (s.answer r.peer x.key x.id r.seq.toNat op.toNat 0 7 (s.refusedBody op.toNat)).settle) ∧
    (s.mode ≠ 1 → s.session r.session = some x → r.mac ≠ bdpMac x.key raw →
      16 ≤ raw.length → beField raw 0 1 = 1 → beField raw 1 1 = op.toNat → beField raw 4 4 = r.session.toNat →
      beField raw 8 4 = r.seq.toNat → malformed raw = true →
      exec (.bdpInvalidRequest r op raw) s = .next (s.bump 0x1130 0x21 1).settle) ∧
    (s.mode ≠ 1 → s.session r.session = some x →
      let head := objHead i.toNat sub.toNat
      let fragment := fun (idx sub : Nat) =>
        objHead idx sub (b2n f.last * 2 + b2n f.first) ++ beBytes 4 f.off.toNat ++ beBytes 4 f.total.toNat ++ f.data
      let forged := fun (c : Instr) (op flags : Nat) (body : Bytes) =>
        r.mac ≠ bdpMac x.key (bdpMessage op flags 0 r.session.toNat r.seq.toNat body) → exec c s = .next (s.bump 0x1130 0x21 1).settle
      forged (.read r draft i sub) 0x01 (b2n draft * 64) (head 0) ∧
      forged (.write r i sub ty b) 0x02 0 (head ty.toNat ++ b) ∧
      forged (.readBlock r i sub ⟨off, max⟩ errors) 0x03 0 (head 0 ++ beBytes 4 off.toNat ++ beBytes 2 max.toNat) ∧
      forged (.writeBlock r f i sub) 0x04 0 (fragment i.toNat sub.toNat) ∧
      forged (.imageImport r f) 0x04 0 (fragment 0x1200 0x11) ∧
      forged (.firmwareImage r f) 0x04 0 (fragment 0x1210 0x10) ∧
      forged (.commit (.bdp r) false) 0x05 0 [] ∧
      forged (.abortDraft (.bdp r) false) 0x06 0 [0] ∧
      forged (.abortBlockWrite r) 0x06 0 [1] ∧
      forged (.subscribeCancel r i sub interval) 0x07 0 (subscribeBody i.toNat sub.toNat 0 interval.toNat) ∧
      forged (.subscribeOnChange r i sub interval) 0x07 0 (subscribeBody i.toNat sub.toNat 1 interval.toNat) ∧
      forged (.subscribePeriodic r i sub interval) 0x07 0 (subscribeBody i.toNat sub.toNat 2 interval.toNat) ∧
      forged (.closeSession r) 0x14 0 [])

/-- R327: a sequence number is executed once. Executed, it is not new again, whatever is executed after it.
Model's choices: assumption log 11. -/
def Obligations.SequenceNumbersAreExecutedOnce : Prop :=
  ∀ (x : Session) (n : Nat) (later : List Nat), ((later.foldl Session.execute (x.execute n)).seqCase n) ≠ .fresh

/-- The SDO server (R330, R331, R333): an upload of up to four bytes answers in one frame, a longer one in segments of seven
whose toggle alternates; a segmented download collects its segments and writes the object with the last; a segment that does not come aborts the transfer; the
heartbeat tells 0x05 while probes are launched and 0x7F otherwise; a frame switches its bit rate when the data rate exceeds the nominal rate.
Model's choices: assumption log 12 (CiA 301, PRESUMED). -/
def Obligations.SdoTransfersRun : Prop :=
  ∀ (s : State) (i : BitVec 16) (sub : Byte) (b : Bytes) (t : SdoTransfer),
    s.canServes = true →
    let close : State := { s with control := { s.control with sdo := none } }
    let hold := fun (t : SdoTransfer) => ({ s with control := { s.control with sdo := some t } } : State)
    let v := s.readBytes s.canLevel i.toNat sub.toNat false
    let w := swapWire v.2.1 v.2.2
    let k := objKey i.toNat sub.toNat
    let frame := fun (cs : Nat) (d : Bytes) => [byteOf cs] ++ leBytes 2 i.toNat ++ [byteOf sub.toNat] ++ d
    let sends := fun (u : State) (d : Bytes) => (u.canSend (0x580 + s.num 0x1140 0x01) d).settle
    let quiet := captureData (t.key / 256) (t.key % 256) = none
    (v.1 = 0 → captureData i.toNat sub.toNat = none → 1 ≤ w.length → w.length ≤ 4 →
      exec (.sdoUpload i sub) s = .next (sends close (frame (0x43 + 4 * (4 - w.length)) (w ++ List.replicate (4 - w.length) 0)))) ∧
    (v.1 = 0 → captureData i.toNat sub.toNat = none → w.length = 0 ∨ 4 < w.length →
      exec (.sdoUpload i sub) s = .next (sends (hold ⟨k, true, w, false⟩) (frame 0x41 (leBytes 4 w.length)))) ∧
    (exec (.sdoDownload i sub true b) s = .next (sends (hold ⟨k, false, [], false⟩) (frame 0x60 [0, 0, 0, 0]))) ∧
    (s.control.sdo = some t → t.upload = true → 7 < t.data.length →
      exec (.sdoSegment t.toggle false b) s = .next (sends (hold { t with data := t.data.drop 7, toggle := !t.toggle })
        (byteOf (b2n t.toggle * 16) :: t.data.take 7))) ∧
    (s.control.sdo = some t → t.upload = true → t.data.length ≤ 7 → quiet →
      exec (.sdoSegment t.toggle false b) s = .next (sends close
        (byteOf (b2n t.toggle * 16 + (7 - t.data.length) * 2 + 1) :: t.data ++ List.replicate (7 - t.data.length) 0))) ∧
    (s.control.sdo = some t → t.upload = false →
      exec (.sdoSegment t.toggle false b) s = .next (sends (hold { t with data := t.data ++ b, toggle := !t.toggle })
        [byteOf (0x20 + b2n t.toggle * 16), 0, 0, 0, 0, 0, 0, 0])) ∧
    (s.control.sdo = some t → t.upload = false →
      exec (.sdoSegment t.toggle true b) s = .next (close.canWrite none (t.key / 256) (t.key % 256) (t.data ++ b)
        [byteOf (0x20 + b2n t.toggle * 16), 0, 0, 0, 0, 0, 0, 0]).settle) ∧
    (s.control.sdo = some t →
      exec .sdoSegmentTimeout s = .next (close.sdoAbort (t.key / 256) (t.key % 256) 0x05040000).settle) ∧
    (s.num 0x1140 0x04 ≠ 0 →
      exec .canHeartbeat s = .next (s.canSend (0x700 + s.num 0x1140 0x01) [if s.mode = 3 ∨ s.mode = 4 ∨ s.mode = 5 then 0x05 else 0x7F]).settle) ∧
    (∀ (u : State) (cob : Nat) (d : Bytes), u.canSend cob d =
      u.emit (.can cob (decide (canNominal (u.num 0x1140 0x02) < canData (u.num 0x1140 0x03))) d))

/-- COMMIT, ABORT and the trial (R314, R334, R335, R61): a draft that differs from its base goes to admission and the commit waits for
its answer; one that does not is released with OK; BUSY while an earlier commit is admitted, pending or written, DENIED for a draft of another. ABORT
releases the draft; a trial runs admission on it without a commit.
Model's choices: assumption log 15. -/
def Obligations.CommitsGoToAdmission : Prop :=
  ∀ (s : State) (r : Req) (v : Via) (x : Session) (level : Nat),
    let c := s.control
    let asked := Authentic s r 0x05 0 [] x ∧ 2 ≤ x.level ∧ s.mode ≠ 7
    let idle := c.admission.any Admission.isCommit = false ∧ c.pending = none ∧ c.writing = none
    (asked → idle → c.holder = some (.session x.id) → c.draft ≠ s.base →
      ∃ t, exec (.commit (.bdp r) false) s = .next t ∧ t.control = { c with admission := c.admission ++ [Admission.commit (.bdp r) false c.draft] } ∧
        t.num 0x1200 0x01 = 2 ∧ t.out = s.out) ∧
    (asked → idle → c.holder = some (.session x.id) → c.draft = s.base →
      ∃ w, Answered s.releaseDraft w ∧ exec (.commit (.bdp r) false) s = .next w.settle ∧ w.control.holder = none) ∧
    (asked → ¬ idle → exec (.commit (.bdp r) false) s = .next (s.answer r.peer x.key x.id r.seq.toNat 0x05 0 1 s.commitBody).settle) ∧
    (asked → idle → ∀ h, c.holder = some h → h ≠ .session x.id →
      exec (.commit (.bdp r) false) s = .next (s.answer r.peer x.key x.id r.seq.toNat 0x05 0 3 s.commitBody).settle) ∧
    (Reaches s v level 0x1200 0x02 [1] → 2 ≤ level → s.mode ≠ 7 → idle → c.holder = some (viaClient v) → c.draft ≠ s.base →
      ∃ t, exec (.commit v true) s = .next t ∧ t.control.admission = c.admission ++ [Admission.commit v true c.draft] ∧
        t.control.draft = c.draft ∧ t.control.holder = c.holder ∧ t.num 0x1200 0x01 = 2 ∧ t.out = s.out) ∧
    (Reaches s v level 0x1200 0x08 [1] → 2 ≤ level → s.mode ≠ 7 → s.num 0x1200 0x01 ≠ 2 →
      Does (.abortDraft v true) s (Opened v s).releaseDraft id) ∧
    (Authentic s r 0x06 0 [0] x → 2 ≤ x.level → s.num 0x1200 0x01 ≠ 2 →
      ∃ w, Answered s.releaseDraft w ∧ exec (.abortDraft (.bdp r) false) s = .next w.settle) ∧
    (Reaches s v level 0x2000 0x05 [1] → 2 ≤ level → s.mode ≠ 7 → c.admission.any Admission.isCommit = false → c.pending = none →
      Does (.admissionTrial v) s { Opened v s with control := { (Opened v s).control with
        admission := c.admission ++ [Admission.trial s.draftNow] } } id)

/-- The ends of admission and of an image write (R36, R60, R61, R334, R336, R340): a refused draft stays and is answered
ADMISSION_FAILED; an admitted one is pending with the sequence N + 1 and released; a trial reports alone. A written image is valid, a failed
write is state 2; an activated slot boots at the next reset. None ends with no Keeper (R31).
Model's choices: assumption log 14, 15. -/
def Obligations.AdmissionAndImagesEnd : Prop :=
  ∀ (s : State) (v : Via) (level : Nat) (w : Bool) (d : Dict) (rest : List Admission) (m : Bool × Image),
    let c := s.control
    s.power.dead = false →
    (c.admission = .trial d :: rest →
      ∃ t, exec .admissionComplete s = .next t ∧ t.control = { c with admission := rest } ∧ t.out = s.out) ∧
    (c.admission = .commit v w d :: rest → s.mode ≠ 7 → (s.admitRun d).2.isSome = true →
      ∃ (u t : State), exec .admissionComplete s = .next t ∧ t = (u.answerCommit v w 8).settle ∧
        u.control = { c with admission := rest } ∧ u.out = s.out) ∧
    (c.admission = .commit v w d :: rest → s.mode ≠ 7 → (s.admitRun d).2 = none → c.holder = some (viaClient v) →
      ∃ (u t : State) (b : Bool), exec .admissionComplete s = .next t ∧ t = (u.answerCommit v w 0).takeOrWait.settle ∧
        u.control.holder = none ∧ u.control.draft = [] ∧ u.control.admission = rest ∧ u.out = s.out ∧
        u.control.pending = some ⟨d, (s.num 0x1200 0x03 + 1) % 2 ^ 32, s.cyc + 2000000, true, true⟩ ∧
        u.control.writing = some (b, ⟨(s.num 0x1200 0x03 + 1) % 2 ^ 32, d, false, List.replicate 64 0⟩)) ∧
    (c.writing = some m →
      (∃ t, exec (.imageWriteComplete true) s = .next t ∧ t.num 0x1200 0x05 = 0 ∧ t.control.writing = none ∧
        t.control.inForceSlot = some m.1 ∧ (if m.1 then t.control.slotB else t.control.slotA) = some m.2) ∧
      (∃ t, exec (.imageWriteComplete false) s = .next t ∧ t.num 0x1200 0x05 = 2 ∧ t.control.writing = none ∧
        t.control.slotA = c.slotA ∧ t.control.slotB = c.slotB)) ∧
    (Reaches s v level 0x1210 0x11 [1] → 2 ≤ level → s.mode ≠ 7 →
      Does (.activateFirmware v) s { Opened v s with control := { (Opened v s).control with fwActivate := true } } id)

/-! ### Modes, resets, clocks and power (R417 to R443) -/

/-- Mode requests (Table 16.9, R438 to R441): a permitted request is answered OK and begins the transition, the current mode is
answered OK without effect, and the return to SENTINEL begins by itself. While a route launches, the transition waits for its
frame boundary: OD 1300.10 reads 1 and the mode stays.
Model's choices: assumption log 9, 36. -/
def Obligations.ModeRequestsBeginTransitions : Prop :=
  ∀ (s : State) (v : Via) (level n : Nat),
    let any := enabledRoutes (s.read .a) ≠ []
    let normal := commissioning (s.read .a) = false
    let clear := field (s.num 0x1700 0x10) 8 0 = 0
    let request := fun (i : Instr) (n : Nat) (may : Prop) =>
      Reaches s v level 0x1300 0x01 [BitVec.ofNat 8 n] → s.power.transition = none →
        (may → Does i s ((Opened v s).put 0x1300 0x01 n) (fun t => t.beginTransition n)) ∧
        (s.mode = n → Does i s (Opened v s) id)
    (1 ≤ level → request (.modeRequestHibernate v) 0 (s.mode = 2 ∧ s.num 0x1300 0x05 ≠ 0)) ∧
    (1 ≤ level → request (.modeRequestReady v) 2 (s.mode = 3 ∨ s.mode = 4 ∨ s.mode = 5 ∨ ((s.mode = 6 ∨ s.mode = 7) ∧ clear))) ∧
    (1 ≤ level → request (.modeRequestSentinel v) 3 ((s.mode = 2 ∧ any ∧ normal) ∨ (s.mode = 4 ∧ normal))) ∧
    (1 ≤ level → request (.modeRequestSense v) 4 ((s.mode = 2 ∧ any ∧ normal) ∨ ((s.mode = 3 ∨ s.mode = 5) ∧ normal))) ∧
    (2 ≤ level → request (.modeRequestSurvey v) 5 ((s.mode = 2 ∧ any) ∨ s.mode = 4)) ∧
    (2 ≤ level → request (.modeRequestMaintenance v) 6 (s.mode = 2 ∨ s.mode = 7)) ∧
    (s.mode = 4 → s.power.fromSentinel = true → s.num 0x1300 0x08 ≠ 0 → s.power.transition = none →
      exec .sentinelReturn s = .next ({ s with power := { s.power with awaited := some 3 } } : State).settle) ∧
    (s.mode = 4 → s.power.awaited = some 3 → s.power.transition = none → s.beginAwaited (if s.enabled .a then .a else .b) = s.beginTransition 3) ∧
    (s.mode = 3 ∨ s.mode = 4 ∨ s.mode = 5 → s.routeA.optics.launching = true ∨ s.routeB.optics.launching = true →
      let t := s.beginTransition n
      t.mode = s.mode ∧ t.num 0x1300 0x10 = 1 ∧ t.routeA.optics.stopAt = s.routeA.optics.launching ∧
        t.routeB.optics.stopAt = s.routeB.optics.launching ∧ ∃ x, t.power.transition = some x ∧ x.target = n)

/-- Resets (R435, Table 16.13), HIBERNATE and wakes (R442), PWR_EN (R472): what each kind keeps. Every reset leaves BRING-UP with the outputs safe, no session
and no draft, its cause in OD 1300.11, and the keys, stored images, authority and real-time counter as they were; a warm one with an unchanged memory
geometry keeps the event log and the training values and puts the channels in service into self-refresh (R388), a cold one keeps no log.
Model's choices: assumption log 36, 40. -/
def Obligations.ResetsKeepWhatTheirKindKeeps : Prop :=
  ∀ (s : State) (v : Via) (level cause : Nat) (warm rising : Bool),
    (Reaches s v level 0x1300 0x09 [1] → 2 ≤ level → s.mode ≠ 7 → Does (.warmResetRequest v) s (Opened v s) (fun t => t.resetTo true 3)) ∧
    (Reaches s v level 0x1300 0x09 [2] → 2 ≤ level → s.mode ≠ 7 → Does (.coldResetRequest v) s (Opened v s) (fun t => t.resetTo false 2)) ∧
    (let t := s.resetTo warm cause
     let served := ([0, 1] : List (Fin 2)).filter (fun ch => s.chState ch == 2 || s.chState ch == 3)
     t.mode = 1 ∧ t.num 0x1300 0x11 = cause ∧ SafeOutputs t.pins ∧ t.pins.pwrEn = true ∧ t.power.safeRequest = true ∧ t.power.bringUp = some 0 ∧
     t.control.sessions = [] ∧ t.control.holder = none ∧ t.control.keyE = s.control.keyE ∧ t.control.signKey = s.control.signKey ∧
     t.control.slotA = s.control.slotA ∧ t.control.slotB = s.control.slotB ∧ t.arbiter.holder = s.arbiter.holder ∧
     t.arbiter.epoch = s.arbiter.epoch ∧ t.power.rtcSec = s.power.rtcSec ∧ t.cores = State.reset.cores ∧
     t.out = s.out ++ (if warm && s.control.nextGeometry == s.control.geometry then served.map (fun ch => .selfRefresh ch true) else []) ∧
     (warm = true → s.control.nextGeometry = s.control.geometry →
       t.streams.log = s.streams.log ∧ ∀ ch, (t.dram.get ch).training = (s.dram.get ch).training) ∧
     (warm = false → t.streams.log = [])) ∧
    (s.power.vaon = true → ∃ t, exec .resetN s = .next t ∧ t.power.resetLow = true ∧ t.mode = 1 ∧
      t.num 0x1300 0x11 = (if s.power.supplyOk = true then 1 else 5) ∧
      t.control.slotA = s.control.slotA ∧ t.arbiter.holder = s.arbiter.holder) ∧
    (∃ t, exec .powerOn s = .next t ∧ t.power = { State.reset.power with vaon := true } ∧ t.arbiter = State.reset.arbiter ∧
      t.num 0x1300 0x11 = 0 ∧ t.control.keyE = s.control.keyE ∧ t.control.slotA = s.control.slotA ∧ t.streams.log = []) ∧
    (∃ t, exec .powerDown s = .next t ∧ t.power.vaon = false ∧ t.power.bringUp = none ∧ t.arbiter = State.reset.arbiter ∧
      t.pins.pwrEn = false) ∧
    (s.power.wakeKept = 0 → s.hibernate.mode = 0 ∧ s.hibernate.pins.pwrEn = false ∧ s.hibernate.control.sessions = []) ∧
    (s.mode = 0 → s.power.vaon = true →
      let woken := fun (i : Instr) (c : Nat) => ∃ t, exec i s = .next t ∧ t.mode = 1 ∧ t.num 0x1300 0x11 = 4 ∧ t.num 0x1300 0x12 = c ∧
        t.power.fromWake = true ∧ t.power.bringUp = some 0 ∧ t.pins.pwrEn = true
      (bit (s.num 0x1300 0x05) 0 = true → (rising = true ↔ s.num 0x1300 0x06 = 0) → woken (.wakeEdge rising) 1) ∧
      (bit (s.num 0x1300 0x05) 1 = true → woken .canWake 2) ∧
      (bit (s.num 0x1300 0x05) 2 = true → s.num 0x1300 0x07 ≠ 0 → woken .rtcAlarm 4))

/-- Bring-up (Table 16.8, R419, R436, R461): the release of reset asks for 0.85 V, starts the control domain on FRC and lets the Keepers
claim authority, a failed test of theirs stays in step 2; a count of XT1 within 10 % of a nominal is that nominal, which locks the PLLs and begins
the datapath BIST; without XT1 bring-up ends in SAFE with its time reported.
Model's choices: assumption log 7, 36. -/
def Obligations.BringUpFollowsItsSteps : Prop :=
  ∀ (s : State) (count n : Nat) (us : W32) (misses : Fin 4),
    let a := s.arbiter
    let avs := List.replicate (min misses.val 2 + 1) (OutMsg.avs 850)
    (s.power.vaon = true → s.power.supplyOk = true → s.power.bringUp = some 0 →
      (∃ t, exec (.resetRelease ⟨true, misses⟩) s = .next t ∧ t.power.bringUp = some 4 ∧ t.power.resetLow = false ∧ t.clkBit 2 = true ∧
        bit (t.num 0x1300 0x15) 1 = (bit (s.num 0x1300 0x15) 1 || misses == 3) ∧ t.out = s.out ++ avs ∧
        (a.stateA ≠ .retired → a.holder ≠ some .b ∨ a.stateB = .retired → t.arbiter.holder = some .a) ∧
        (a.stateB ≠ .retired → a.holder = some .b ∨ a.stateA = .retired → t.arbiter.holder = some .b) ∧
        (a.stateA = .retired → a.stateB = .retired → t.arbiter.holder = none ∧ t.power.dead = true ∧ t.power.safeRequest = true)) ∧
      (∃ t, exec (.resetRelease ⟨false, misses⟩) s = .next t ∧ t.out = s.out ++ avs ∧ t.power.bringUp = some 2 ∧ t.power.domainBistFailed = true ∧ t.arbiter = a ∧ t.pins.faultN = false)) ∧
    (s.power.bringUp = some 4 → xt1Nominal count = some n →
      ∃ t, exec (.xt1Ready ⟨count, us⟩) s = .next t ∧ t.num 0x1500 0x02 = n ∧ t.power.bringUpUs = us.toNat ∧ (∀ b ∈ [3, 5, 6, 7, 8, 9], t.clkBit b = true) ∧
        (∀ d, (t.dom d).onPll = true) ∧ bit (t.num 0x1300 0x15) 0 = true ∧ t.power.bringUp = some 6 ∧
        t.num 0x1700 0x21 = 1 ∧ t.integrity.bistLeft = List.range 8) ∧
    (xt1Nominal count = some n ↔ n < 4 ∧ 10 * ((count : Int) - 1000 * (xt1Nominals.getD n 0 : Nat)).natAbs ≤ 1000 * xt1Nominals.getD n 0) ∧
    (s.power.bringUp = some 4 → s.mode = 1 →
      ∃ t, exec .xt1ReadyTimeout s = .next t ∧ t.num 0x1300 0x16 = 1015000 ∧ t.mode = 7 ∧ t.power.bringUp = none ∧ t.power.safeRequest = true ∧ t.clkBit 13 = true ∧
        bit (t.num 0x1700 0x10) 0 = true)

/-- The clock monitors (R421, R422): a loss clears its flags with a CLOCK_FAIL record; the loss of XT1, PLL-A, PLL-S or PLL-M takes
the device to SAFE with its cause latched; PLL-L takes the links, PLL-T the sync clock; the loss of XT2 takes the always-on domain
from XT2 to SRC. Before the end of step 4, in HIBERNATE and without supply the monitors are not armed and a loss does nothing but clear the ready
flag of XT2.
Model's choices: assumption log 35, 39. -/
def Obligations.ClockLossesAreHandled : Prop :=
  ∀ s : State,
    let fails := fun (i : Instr) (u : State) (post : State → State) => ∃ w, Records u w 0x34 ∧ exec i s = .next (post w).settle
    let off := fun (u : State) => ({ u with pins := { u.pins with ppsOut := false }, power := { u.power with xt1Held := false } } : State)
    (s.monitors = true →
      fails .xt1Stop (off (s.clearLocks.clk 13 true).dropLinks) (fun w => (w.unitSwitch 0 false).enterSafe [0]) ∧
      fails .pllaLoss (off (((s.clk 5 false).clk 9 false).clk 12 true)) (fun w => w.enterSafe [1]) ∧
      fails .pllsLoss { s.clk 6 false with power := { s.power with pllsSince := none } } (fun w => (w.unitSwitch 0 false).enterSafe [2]) ∧
      fails .pllmLoss { s.clk 7 false with power := { s.power with pllmSince := none } } (fun w => w.enterSafe [3]) ∧
      fails .plllLoss (s.clk 8 false) State.dropLinks ∧
      fails .plltLoss (s.clk 9 false) (fun w => { w with sync := { w.sync with sending := false } })) ∧
    (s.monitors = true → s.clkBit 11 = true → fails .xt2Loss ((((s.clk 4 false).clk 10 false).clk 11 false).put 0x1500 0x01 0) id) ∧
    (s.monitors = false ∨ s.clkBit 11 = false → exec .xt2Loss s = .next ((s.clk 4 false).clk 10 false).settle) ∧
    (s.monitors = false → ∀ i ∈ [Instr.xt1Stop, .pllaLoss, .pllsLoss, .pllmLoss, .plllLoss, .plltLoss], exec i s = .next s.settle)

/-- Entry into SAFE (R422, R462): the causes are latched, the safe request is asserted with every safe output safe, launches and a transition
end, and the mode is SAFE.
Model's choices: assumption log 36. -/
def Obligations.SafeEntryEndsLaunches : Prop :=
  ∀ (s : State) (bits : List Nat), 2 ≤ s.mode →
    let t := s.enterSafe bits
    t.mode = 7 ∧ t.power.safeRequest = true ∧ SafeOutputs t.pins ∧ t.power.transition = none ∧
      t.routeA.optics.launching = false ∧ t.routeB.optics.launching = false ∧ t.control = s.control ∧
      ∀ b ∈ bits, bit (t.num 0x1700 0x10) b = true

/-- Clocks regained and clock switches (R418, R423 to R428): locks come back, PLL-S and PLL-M with the 100 ms that
a fault clear asks for before them, XT1 re-locks every PLL without leaving SAFE; a source
that is ready is taken, one that is not is refused; a switch without an edge of the old clock is forced through local reset, and one without an edge
of the new goes back, or waits in local reset with neither.
Model's choices: assumption log 9, 35, 39. -/
def Obligations.ClockSwitchesComplete : Prop :=
  ∀ (s : State) (v : Via) (level : Nat) (d : Fin 4) (src : Byte) (pll m : Bool),
    let x := s.dom d
    let u := Opened v s
    let on := fun (p : Bool) => (s.modDom d (fun y => { y with onPll := p, target := none, localReset := false })).put 0x1510 (0x11 + d.val) (b2n p)
    (s.clkBit 3 = true → exec (.pllRelockAttempt false true) s = .next (s.clk 8 true).settle) ∧
    (s.clkBit 5 = true → exec (.pllRelockAttempt true true) s = .next ((s.clk 9 true).putBit 0x1438 0x10 10 false).settle) ∧
    (s.monitors = true → s.power.xt1Held = false → ∃ t, exec .xt1Return s = .next t ∧ (∀ b ∈ [3, 5, 6, 7, 8, 9], t.clkBit b = true) ∧ t.clkBit 10 = false ∧
      t.power.xt1Held = true ∧ t.power.pllsSince = some s.cyc ∧ t.power.pllmSince = some s.cyc ∧ t.mode = s.mode ∧ t.num 0x1700 0x10 = s.num 0x1700 0x10) ∧
    (s.monitors = false ∨ s.power.xt1Held = true → exec .xt1Return s = .next s.settle) ∧
    exec .xt2Ready s = .next (s.clk 4 true).settle ∧
    (s.mode ≠ 0 → s.clkBit 3 = false → s.clkBit 4 = true → exec .canTrim s = .next (s.clk 10 true).settle) ∧
    (s.clkBit (if m then 7 else 6) = false → ∃ t, exec (.pllLockRegained m) s = .next t ∧ t.clkBit (if m then 7 else 6) = true ∧
      (if m then t.power.pllmSince else t.power.pllsSince) = some s.cyc ∧ t.causeEnded (if m then 3 else 2) = false ∧
      ∀ n, ({ t with time := { t.time with cycles := n } } : State).causeEnded (if m then 3 else 2) = true ↔ s.cyc + 100000000 ≤ n) ∧
    (s.clkBit (if m then 7 else 6) = true → exec (.pllLockRegained m) s = .next s.settle) ∧
    (Reaches s v level 0x1500 0x01 [src] → 2 ≤ level → s.mode ≠ 7 → src.toNat ≤ 1 → (src.toNat = 1 → s.clkBit 4 = true) →
      Does (.alwaysOnSource v src) s ((u.put 0x1500 0x01 src.toNat).clk 11 (src.toNat == 1)) id) ∧
    (Reaches s v level 0x1510 (0x11 + d.val) [src] → 2 ≤ level → s.mode = 6 → src.toNat ≤ 1 → x.target = none →
      (s.readyCheck d = true → s.sourceReady (src.toNat == 1) = true) → x.onPll ≠ (src.toNat == 1) →
      Does (.domainSource v d src) s ((u.put 0x1510 (0x11 + d.val) src.toNat).beginSwitch d (src.toNat == 1)) id) ∧
    (x.target = some pll →
      (on pll).dom d = { x with onPll := pll, target := none, localReset := false } ∧ (on pll).num 0x1510 (0x11 + d.val) = b2n pll ∧
      exec (.clockSwitchComplete d) s = .next (if x.localReset then (on pll).domainForced d else on pll).settle ∧
      (∃ w t, Records ((on pll).bump 0x1500 0x11 1) w 0x32 ∧ exec (.clockSwitchTimeout d true) s = .next t ∧ t = (w.domainForced d).settle) ∧
      (s.sourceReady x.onPll = true → exec (.clockSwitchTimeout d false) s =
        .next (if x.localReset then ((on x.onPll).bump 0x1500 0x13 1).domainForced d else (on x.onPll).bump 0x1500 0x13 1).settle) ∧
      (s.sourceReady x.onPll = false →
        exec (.clockSwitchTimeout d false) s = .next (s.modDom d (fun y => { y with localReset := true })).settle)) ∧
    (x.refused = some pll → x.target = none →
      (s.readyCheck d = false ∨ s.sourceReady pll = true → exec (.clockSwitchRetry d) s = .next (s.beginSwitch d pll).settle) ∧
      (s.readyCheck d = true → s.sourceReady pll = false → x.repeats < 99 →
        exec (.clockSwitchRetry d) s = .next ((s.bump 0x1500 0x12 1).modDom d (fun y => { y with repeats := y.repeats + 1 })).settle) ∧
      (s.readyCheck d = true → s.sourceReady pll = false → 99 ≤ x.repeats →
        ∃ w, Records ((s.bump 0x1500 0x12 1).modDom d (fun y => { y with refused := none, repeats := 0 })) w 0x33 ∧
          exec (.clockSwitchRetry d) s = .next w.settle))

/-- Gates, core supply and the real-time counter (R429 to R434, R443, R474): a gate request that names no block in use gates what
reports idle, and a block that is to be gated by the hardware and reports no idle stays open and is counted; the AVS loop raises the target by 10 mV below 4 taps of slack and lowers it by 5 mV after 16 above 12, and below 2 at 0.85 V
it is a supply failure with LOW_SLACK; a write goes out up to three times until it has an answer, and without one the target holds with AVS_NOREPLY
and a record; a supply failure asserts the safe request, in HIBERNATE it is ignored, and its recovery is latched; the counter follows device time, or counts.
Model's choices: assumption log 1, 35. -/
def Obligations.GatesAndSupplyFollowTheirRules : Prop :=
  ∀ (s : State) (v : Via) (level : Nat) (mask : BitVec 16) (b : AutoGate) (slack : List Nat) (misses : Fin 4),
    let mv := s.num 0x1300 0x14
    let m := leastSlack slack
    let loop := bit (s.num 0x1300 0x15) 0 = true ∧ slack ≠ []
    (Reaches s v level 0x1520 0x01 (beBytes 2 mask.toNat) → 2 ≤ level → s.mode ≠ 7 → mask.toNat &&& 0xFF1F = mask.toNat →
      s.gateInUse mask.toNat = false →
      ∃ busy w, busy &&& mask.toNat = busy ∧ exec (.gateRequest v mask) s = .next w.settle ∧
        Answered (((({ Opened v s with free := s.free + 1 } : State).put 0x1520 0x01 mask.toNat).put 0x1520 0x02 (mask.toNat - busy)).openGates
          (s.num 0x1520 0x02)) w) ∧
    (s.unused b = true → s.power.gatesOpen.contains b = false →
      exec (.gateHandshakeTimeout b) s = .next (({ s with power := { s.power with gatesOpen := s.power.gatesOpen ++ [b] } } : State).bump 0x1520 0x10 1).settle) ∧
    (s.unused b = false ∨ s.power.gatesOpen.contains b = true → exec (.gateHandshakeTimeout b) s = .next s.settle) ∧
    (loop → 2 ≤ m → m < 4 → mv < 850 → misses.val < 3 → ∃ t, exec (.avsLoop slack misses) s = .next t ∧ t.num 0x1300 0x14 = min 850 (mv + 10) ∧
      bit (t.num 0x1300 0x15) 1 = false ∧ t.out = s.out ++ List.replicate (misses.val + 1) (.avs (min 850 (mv + 10)))) ∧
    (loop → 12 < m → s.power.avsHigh = 15 → 650 < mv → misses.val < 3 → ∃ t, exec (.avsLoop slack misses) s = .next t ∧
      t.num 0x1300 0x14 = max 650 (mv - 5) ∧ t.power.avsHigh = 0 ∧ t.out = s.out ++ List.replicate (misses.val + 1) (.avs (max 650 (mv - 5)))) ∧
    (loop → 4 ≤ m → m ≤ 12 → ∃ t, exec (.avsLoop slack misses) s = .next t ∧ t.num 0x1300 0x14 = mv ∧ t.power.avsHigh = 0 ∧ t.out = s.out) ∧
    (loop → 2 ≤ m → m < 4 → mv < 850 → ∃ t, exec (.avsLoop slack 3) s = .next t ∧ t.num 0x1300 0x14 = mv ∧
      bit (t.num 0x1300 0x15) 1 = true ∧ NewestRecord s t 0x36 ∧ t.out = s.out ++ List.replicate 3 (.avs (min 850 (mv + 10)))) ∧
    (loop → m < 2 → mv = 850 → s.power.vaon = true → s.mode ≠ 0 → ∃ t, exec (.avsLoop slack misses) s = .next t ∧ t.power.supplyOk = false ∧
      bit (t.num 0x1300 0x15) 2 = true) ∧
    (s.mode = 0 → exec .supplyFailure s = .next s.settle) ∧
    (s.power.vaon = true → s.mode ≠ 0 → ∃ t, exec .supplyFailure s = .next t ∧ t.power.supplyOk = false ∧ t.power.safeRequest = true ∧ SafeOutputs t.pins ∧
      t.num 0x1300 0x11 = 5 ∧ ∃ e, t.streams.held = s.streams.held ++ [e] ∧ e.type = 0x35) ∧
    (s.power.supplyOk = false → ∃ t, exec .supplyRecovery s = .next t ∧ t.power.supplyOk = true ∧ t.power.toSafe = true ∧
      bit (t.num 0x1700 0x10) 4 = true) ∧
    (s.power.vaon = true → exec .rtcSecond s = .next ({ s with power := { s.power with rtcSub := 0, rtcSec :=
      (if s.mode ≠ 0 ∧ s.clkBit 5 = true then s.time.ns / 1000000000 else s.power.rtcSec + 1) % 2 ^ 48 } } : State).settle)

/-! ### Integrity (R444 to R464) -/

/-- Keepers (R459, R460): a heartbeat counts in its window; a window without one is missed and counted; the third missed in a row, and a lockstep
mismatch, stop the Keeper and begin its test, and when it held authority a Keeper in STANDBY takes it with the epoch one higher and running
admissions abandoned; with none the safe outputs are held (R33). A Keeper that does not run does none of this.
Model's choices: assumption log 37. -/
def Obligations.KeepersAreWatched : Prop :=
  ∀ (s : State) (k : Keeper),
    let a := s.arbiter
    let o := otherKeeper k
    let stopped := fun (t : State) =>
      t.arbiter.stateOf k = .stopped ∧ t.testing (.keeper k) = true ∧
      (a.holder = some k → a.stateOf o = .standby → t.arbiter.holder = some o ∧ t.arbiter.stateOf o = .active ∧
        t.arbiter.epoch = (a.epoch + 1) % 2 ^ 32 ∧ t.control.admission = s.control.admission.filter Admission.isBoot) ∧
      (a.holder = some k → a.stateOf o ≠ .standby → t.arbiter.holder = none ∧ t.power.dead = true ∧ SafeOutputs t.pins) ∧
      (a.holder ≠ some k → t.arbiter.holder = a.holder ∧ t.arbiter.epoch = a.epoch)
    (s.keeperUp k = true →
      exec (.keeperHeartbeat k) s = .next ({ s with arbiter := match k with
        | .a => { a with beatA := true }
        | .b => { a with beatB := true } } : State).settle) ∧
    (s.keeperUp .a = true → s.keeperUp .b = true → a.beatA = true → a.beatB = true →
      exec .heartbeatWindow s = .next ({ s with arbiter := { a with beatA := false, beatB := false, missA := 0, missB := 0 } } : State).settle) ∧
    (s.keeperUp k = true → a.beatOf k = false → a.missOf k < 2 → s.keeperUp o = true → a.beatOf o = true →
      ∃ t, exec .heartbeatWindow s = .next t ∧
        t.arbiter = (({ a with beatA := false, beatB := false } : Arbiter).setMiss k (a.missOf k + 1)).setMiss o 0 ∧
        t.num 0x1700 0x64 = incWrap (s.num 0x1700 0x64) 1 32) ∧
    (s.keeperUp k = true → a.beatOf k = false → a.missOf k = 2 → (s.keeperUp o = true → a.beatOf o = true) →
      ∃ t, exec .heartbeatWindow s = .next t ∧ stopped t) ∧
    (s.keeperUp k = true → ∃ t, exec (.lockstepMismatch k) s = .next t ∧ stopped t ∧ t.num 0x1700 0x63 = incWrap (s.num 0x1700 0x63) 1 32) ∧
    (s.keeperUp k = false → exec (.keeperHeartbeat k) s = .next s.settle ∧ exec (.lockstepMismatch k) s = .next s.settle) ∧
    (s.keepersRun = false → exec .heartbeatWindow s = .next s.settle)

/-- Self-tests (R450 to R455): a first failed run is repeated, a pass ends the test as transient and returns the unit, a second failure makes the
fault lasting and retires or replaces the unit as Table 17.2 says; a test that does not run has no outcome; the full BIST runs its units in order
and each result object holds count, signature and state.
Model's choices: assumption log 37. -/
def Obligations.SelfTestsJudgeTheirUnits : Prop :=
  ∀ (s : State) (v : Via) (level : Nat) (u : TestUnit) (t0 : Test) (p q : Bool) (mask : BitVec 16) (b : Fin 15) (rest : List Nat)
    (count : BitVec 24) (sig : W32) (failing : BitVec 17),
    let passes := if u = .hka then (p && q) = true else p = true
    let result := sig.toNat * 2 ^ 32 + count.toNat * 256
    (s.integrity.tests.find? (fun t => t.unit == u) = some t0 → s.testRuns u = true →
      (¬ passes → t0.failedOnce = false → ∃ t, exec (.targetedTestComplete u p q) s = .next t ∧ t.testing u = true ∧ t.cores = s.cores ∧
        ∀ x ∈ t.integrity.tests, x.unit = u → x.failedOnce = true) ∧
      (¬ passes → t0.failedOnce = true →
        exec (.targetedTestComplete u p q) s = .next (((s.endTest u).bump 0x1700 0x14 1).unitFails u (!p, !q)).settle) ∧
      (passes → (∀ f, u ≠ .slice f) → ((s.endTest u).transientOutcome u).1 = false →
        exec (.targetedTestComplete u p q) s = .next (((s.endTest u).transientOutcome u).2.unitPasses u).settle) ∧
      (∀ f, passes → u = .slice f → exec (.targetedTestComplete u p q) s = .next (s.passSlice f).settle)) ∧
    (∀ c, ((s.unitFails (.core c) (!p, !q)).cores.get c).retired = true ∧ ((s.unitPasses (.core c)).cores.get c).retired = (s.cores.get c).retired) ∧
    (∀ k, (s.unitFails (.keeper k) (!p, !q)).arbiter.stateOf k = .retired ∧ bit ((s.unitFails (.keeper k) (!p, !q)).num 0x1700 0x10) 15 = true ∧
      (s.unitPasses (.keeper k)).arbiter.stateOf k = .standby) ∧
    (∀ r, ((s.unitFails (.drx r) (!p, !q)).route r).thermal.retired = true ∧ bit ((s.unitFails (.drx r) (!p, !q)).num 0x1700 0x10) 13 = true) ∧
    (p = false → (s.unitFails .hka (!p, !q)).hka.hka0.retired = true) ∧ (q = false → (s.unitFails .hka (!p, !q)).hka.hka1.retired = true) ∧
    (∀ st bk row, (s.unitFails (.row st bk row) (!p, !q)).rows.lasting.contains (storeNum st, bk.val, row.val) = true ∧
      (s.unitPasses (.row st bk row)).rows.suspects.contains (storeNum st, bk.val, row.val) = false) ∧
    (s.integrity.tests.find? (fun t => t.unit == u) = none → exec (.targetedTestComplete u p q) s = .next s.settle) ∧
    (Reaches s v level 0x1700 0x20 (beBytes 2 mask.toNat) → 2 ≤ level → s.mode = 6 → mask.toNat &&& 0x7FFF = mask.toNat → mask ≠ 0 →
      s.num 0x1700 0x21 ≠ 1 →
      ∃ x, Does (.bistRequest v mask) s x id ∧ x.integrity.bistLeft = (List.range 15).filter (fun b => mask.toNat.testBit b) ∧
        x.num 0x1700 0x21 = 1) ∧
    (s.num 0x1700 0x21 = 1 → s.integrity.bistLeft = b.val :: rest → s.integrity.bistStep6 = true → rest ≠ [] →
      ∃ t, exec (.bistComplete b count sig failing) s = .next t ∧ t.integrity.bistLeft = rest ∧
        (count.toNat ≠ Config.bistCount b.val → t.num 0x1700 (0x30 + b.val) = result + 3) ∧
        (count.toNat = Config.bistCount b.val → sig.toNat = Config.bistSignature b.val → t.num 0x1700 (0x30 + b.val) = result + 1 ∧
          t.integrity.bistFailing = s.integrity.bistFailing) ∧
        (count.toNat = Config.bistCount b.val → sig.toNat ≠ Config.bistSignature b.val → t.num 0x1700 (0x30 + b.val) = result + 2 ∧
          t.integrity.bistFailing = s.integrity.bistFailing ||| 2 ^ b.val)) ∧
    (s.num 0x1700 0x21 = 1 → s.integrity.bistLeft = [b.val] → s.integrity.bistStep6 = false → count.toNat = Config.bistCount b.val →
      sig.toNat = Config.bistSignature b.val →
      exec (.bistComplete b count sig failing) s = .next (((({ s.put 0x1700 (0x30 + b.val) (result + 1) with integrity := { s.integrity with
        bistLeft := [], bistPassed := setBit s.integrity.bistPassed b.val true } } : State).bistReturn b.val 0).bistLoss b.val).bistEnd).settle) ∧
    ((∀ rest, s.integrity.bistLeft ≠ b.val :: rest) → exec (.bistComplete b count sig failing) s = .next s.settle)

/-- Fault clear, scan and the log (R447, R458, R463): in SAFE the latched bits whose cause has ended clear and the others stand, and with
those of the supply, the clocks and the slices clear the datapath BIST decides bit 5; scan zeroises the keys and ends every session behind the
safe outputs; CLEAR_LOG empties the ring.
Model's choices: assumption log 37, 39. -/
def Obligations.FaultsClearAndScanLocks : Prop :=
  ∀ (s : State) (v : Via) (level : Nat) (pass : Bool),
    let u := (Opened v s).clearLatched
    (Reaches s v level 0x1700 0x02 [1] → 1 ≤ level → s.mode = 7 → field (u.num 0x1700 0x10) 4 0 = 0 → field (u.num 0x1700 0x10) 8 6 = 0 →
      Does (.faultClear v pass) s (u.datapathBist pass) id) ∧
    bit ((s.datapathBist pass).num 0x1700 0x10) 5 = (!pass) ∧
    (∀ b < 8, pass = true → (s.datapathBist pass).num 0x1700 (0x30 + b) = bistResult b (Config.bistSignature b) 1) ∧
    (Reaches s v level 0x1700 0x02 [1] → 1 ≤ level → u.mode ≠ 7 → field (u.num 0x1700 0x10) 8 0 = 0 → Does (.faultClear v pass) s u id) ∧
    (s.mode = 7 → ∀ b ∈ [0, 1, 2, 3, 4, 6, 7, 9, 10, 11, 12, 13, 14, 15],
      bit (s.clearLatched.num 0x1700 0x10) b = (bit (s.num 0x1700 0x10) b && !s.causeEnded b)) ∧
    (Reaches s v level 0x1700 0x50 [1] → 3 ≤ level → s.mode = 6 → Does (.scanEnable v) s (Opened v s) State.enterScan) ∧
    (let t := s.enterScan
     t.integrity.scan = true ∧ t.integrity.otpLocked = true ∧ t.control.keysZeroised = true ∧ t.control.sessions = [] ∧ t.control.subs = [] ∧
       SafeOutputs t.pins ∧ t.pins.faultN = false ∧ t.keeperServes = false) ∧
    (Reaches s v level 0x5000 0x11 [1] → 2 ≤ level → s.mode ≠ 7 →
      ∃ u, Does (.clearLog v) s u id ∧ u.streams.log = [] ∧ u.num 0x5000 0x01 = 0 ∧ u.num 0x5000 0x02 = 0)

/-- The test port (R436, R458): a rising edge of TCK moves the controller by TMS and shifts TDI in, a falling edge drives TDO in a shift
state; five rising edges with TMS high reach Test-Logic-Reset from every state; in HIBERNATE and BRING-UP the port is held there.
Model's choices: assumption log 38. -/
def Obligations.TestPortFollowsItsController : Prop :=
  ∀ (s s1 s2 s3 s4 s5 : State) (tms tdi d0 d1 d2 d3 d4 : Bool),
    let j := s.jtag
    (2 ≤ s.mode → ∃ t, exec (.tckEdge true tms tdi) s = .next t ∧ t.jtag.tap = tapNext j.tap tms ∧
      (j.tap = 4 → t.jtag.dr = j.dr.tail ++ [tdi]) ∧ (j.tap = 11 → t.jtag.irShift = j.irShift.tail ++ [tdi]) ∧ t.od = s.od ∧ t.out = s.out) ∧
    (2 ≤ s.mode → j.tap = 4 → ∃ t, exec (.tckEdge false tms tdi) s = .next t ∧ t.out = s.out ++ [.tdo (j.dr.headD false)]) ∧
    (2 ≤ s.mode → j.tap = 15 → ∃ t, exec (.tckEdge false tms tdi) s = .next t ∧ t.jtag.ir = some (ofBits j.irShift) ∧ t.out = s.out) ∧
    (2 ≤ s.mode → exec (.tckEdge true true d0) s = .next s1 → exec (.tckEdge true true d1) s1 = .next s2 →
      exec (.tckEdge true true d2) s2 = .next s3 → exec (.tckEdge true true d3) s3 = .next s4 → exec (.tckEdge true true d4) s4 = .next s5 →
      s5.jtag.tap = 0 ∧ s5.jtag.ir = none) ∧
    (s.mode ≤ 1 → exec (.tckEdge true tms tdi) s = .next ({ s with jtag := { j with tap := 0, ir := none, driven := false } } : State).settle)

/-! ### Routes, probes and their supervision (R50 to R105) -/

/-- The route start and the return from power reduction (Table 3.5, R87, R89, R91, R98, R100, R128): the laser settles, the dwell and the range
sweep end, the EDFA goes high and the pump ramps from 0, launches begin; a ramp of STARTING that ends at the normal code is NORMAL; after a movement
the route starts again; the restoration probe holds the lane at the APR code until it has been judged.
Model's choices: assumption log 9, 19. -/
def Obligations.RouteStartsRunTheirSteps : Prop :=
  ∀ (s : State) (v : Via) (r : Route) (level target : Nat) (sets : List CorrSet),
    let o := (s.route r).optics
    let opt := fun (u : State) => (u.route r).optics
    (s.routeA.optics.start = some .settle → s.routeA.optics.dwellDone = false → s.routeB.optics.start ≠ some .settle →
      exec .laserSettleExpiry s = .next (s.modOptics .a (fun o => { o with start := some .dwell })).settle) ∧
    (o.start = some .dwell → o.sweepDone = false →
      exec (.switchDwellExpiry r) s = .next (s.modOptics r (fun o => { o with dwellDone := true, start := some .dwell })).settle) ∧
    (o.start = some .dwell → o.sweepDone = true → s.edfa r = false →
      ∃ t, exec (.switchDwellExpiry r) s = .next t.settle ∧ t.edfa r = true ∧ t.pump r = 0 ∧ (opt t).start = some .ramp ∧
        (opt t).ramp = some (if s.aprOn r then s.aprCode r else s.normalCode r)) ∧
    (o.start = some .dwell → o.warm = false → o.sweepDone = false → o.dwellDone = false →
      ∃ t, exec (.rangeSweepComplete r sets) s = .next t ∧ (opt t).sweepDone = true ∧ (opt t).start = some .dwell ∧
        bit (t.num (at100 0x2190 r) 0x13) 0 = true ∧ (t.route r).crx.sets = (eightSets sets).map limitSet) ∧
    (o.ramp = some target → o.start = some .ramp →
      ∃ t, exec (.pumpRampComplete r) s = .next t ∧ (opt t).launching = true ∧ (opt t).start = some .done ∧ (opt t).shot = 0 ∧
        (opt t).launchSeq = 0 ∧ (opt t).inFlight = []) ∧
    (o.ramp = some target → o.start ≠ some .ramp → s.aprState r = 1 → target = s.normalCode r →
      exec (.pumpRampComplete r) s = .next ((((s.setPump r target).setApr r 0).modOptics r (fun o =>
        { o with ramp := none, badRun := 0, goodRun := 0 }))).settle) ∧
    (o.moving = true → o.inFlight = [] → (s.route r).ray.handoff = none → s.sensing = true → s.enabled r = true → s.launchFail r = false →
      exec (.switchOswChange r) s = .next ((s.modOptics r (fun o =>
        { o with moving := false, configChange := true })).startRoute r true).settle) ∧
    (s.aprState r = 3 → s.sensing = true → s.enabled r = true → s.power.dead = false → o.start = none →
      ∃ t l codes, exec (.restorationProbe r) s = .next t.settle ∧ t.out = s.out ++ [.probe r 0 s.cyc codes] ∧
        (opt t).inFlight = o.inFlight ++ [l] ∧ l.apr = true ∧ l.group = 0 ∧ (opt t).probe = true ∧ t.pump r = s.aprCode r) ∧
    (Reaches s v level (at100 0x2160 r) 0x07 [1] → 1 ≤ level → s.mode ≠ 7 →
      Does (.restoreRequest v r) s (((Opened v s).modOptics r (fun o => { o with restoreHeld := true })).tryReturn r) id)

/-- Probes and their supervision (R52, R53, R56, R92 to R98): the group in turn is launched at its instant; the first edge in the window gives δ,
every other is spurious; a launch without an edge in NORMAL is missing, and at the limit the route fails; the window power is reported and
a second deficient launch in a row in NORMAL trips power reduction, each launch judged by the tables it was launched on (R62); a deficient restoration probe leaves the lane at zero. A boundary turns
the frame once its shots are launched, does nothing before that, and advances a silent route; the loop has one boundary, commanded as route A's.
Model's choices: assumption log 17, 18, 19, 39. -/
def Obligations.ProbesAreLaunchedAndJudged : Prop :=
  ∀ (s : State) (r : Route) (group : Fin 4) (edge : TapEdge) (raw : List RawSample) (l : Launch),
    let o := (s.route r).optics
    let opt := fun (u : State) => (u.route r).optics
    let c := s.sched r
    let i := at100 0x2150 r
    let t0 := if group = 0 then o.frameNs + (o.shot % max c.f 1) * c.t else o.shotNs
    let x := s.tapOffset r l edge
    let delta := x.1 - 128 * (s.r100 r 0x2150 0x01 : Nat)
    let inside := delta.natAbs ≤ 128 * s.r100 r 0x2150 0x02
    let old := s.readAt r l.seq
    let g := registrationIn (s.cfgAt r l.seq) r (s.osw r)
    let power := windowPower (mkSched old s.kind r) s.kind l.group (s.front r l raw) g.firstBin g.lastBin
    let deficient := power < theta (if l.apr then g.pa else g.pn) (old (at100 0x2160 r) 0x03)
    (o.launching = true → o.moving = false → group.val = o.launchSeq % max c.g 1 →
      (group = 0 → o.shot = 0 ∨ o.shotNs + c.t ≠ o.frameNs + c.frame) →
      ∃ t p codes, exec (.probeLaunch r group) s = .next t ∧ (opt t).launchSeq = o.launchSeq + 1 ∧
        (∃ before, (opt t).inFlight = before ++ [p] ∧ before.map Launch.seq = o.inFlight.map Launch.seq ∧
          ((s.route r).crx.pendingStep = none → before = o.inFlight)) ∧
        p.seq = o.launchSeq ∧ p.group = group.val ∧ p.ns = t0 + launchOffset c (s.loopGuard && r == .b) group.val ∧
        (opt t).shot = (if group = 0 then o.shot + 1 else o.shot) ∧ t.out = s.out ++ [.probe r group.val p.ns codes]) ∧
    (o.launching = true → group.val ≠ o.launchSeq % max c.g 1 → exec (.probeLaunch r group) s = .next s.settle) ∧
    (openWindow o.inFlight = some l →
      (l.edge = false → inside →
        ∃ t, exec (.tapEdge r edge) s = .next t ∧ t.num i 0x10 = ofSigned delta 32 ∧
          t.num i 0x11 = ofSigned (originCorrection o.edgeSeen (s.int i 0x11 16) delta) 16 ∧ (opt t).missRun = 0 ∧ (opt t).edgeSeen = true) ∧
      (l.edge = true ∨ ¬ inside → exec (.tapEdge r edge) s = .next (x.2.bump i 0x13 1).settle) ∧
      (l.edge = true ∨ s.aprState r ≠ 0 →
        ∃ t, exec (.tapWindowClose r) s = .next t ∧ t.od = s.od ∧ (opt t).missRun = o.missRun ∧ (opt t).launching = o.launching) ∧
      (l.edge = false → s.aprState r = 0 → o.missRun + 1 < s.r100 r 0x2150 0x04 →
        ∃ t, exec (.tapWindowClose r) s = .next t ∧ t.num i 0x12 = incWrap (s.num i 0x12) 1 32 ∧ (opt t).missRun = o.missRun + 1) ∧
      (l.edge = false → s.aprState r = 0 → s.launchFail r = false → s.r100 r 0x2150 0x04 ≤ o.missRun + 1 →
        ∃ u : State, exec (.tapWindowClose r) s = .next (u.failLaunch r).settle ∧ u.num i 0x12 = incWrap (s.num i 0x12) 1 32 ∧ u.mode = s.mode)) ∧
    (openWindow o.inFlight = none → exec (.tapEdge r edge) s = .next ((s.tapTime (routeNum r) edge.tap).2.bump i 0x13 1).settle) ∧
    (bit (s.num 0x1500 0x03) 9 = false → s.tapTime (routeNum r) edge.tap = (0, s.putBit 0x1438 0x10 10 true)) ∧
    (∀ f, bit (s.num 0x1500 0x03) 9 = true → (if (s.tdcChannel (routeNum r)).line1 then (s.tdcChannel (routeNum r)).table1
      else (s.tdcChannel (routeNum r)).table0)[edge.tap.val]? = some f → s.tapTime (routeNum r) edge.tap = (f, s)) ∧
    (o.inFlight.find? (fun x => !x.judged) = some l → s.aprOn r = true → old (at100 0x2160 r) 0x01 = 1 → s.power.transition = none →
      (s.aprState r = 0 → ¬ deficient →
        ∃ t, exec (.aprDecision r raw) s = .next t ∧ t.num (at100 0x2160 r) 0x11 = power ∧ t.aprState r = 0 ∧ (opt t).badRun = 0) ∧
      (s.aprState r = 0 → deficient → o.badRun = 0 → ∃ t, exec (.aprDecision r raw) s = .next t ∧ t.aprState r = 0 ∧ (opt t).badRun = 1) ∧
      (s.aprState r = 0 → deficient → 1 ≤ o.badRun → s.r100 r 0x2160 0x04 ≠ 1 →
        ∃ t, exec (.aprDecision r raw) s = .next t ∧ t.aprState r = 2 ∧ (opt t).badRun = 0 ∧ (opt t).eligible = false) ∧
      (s.aprState r = 3 → o.probe = true → deficient →
        ∃ t, exec (.aprDecision r raw) s = .next t.settle ∧ t.aprState r = 3 ∧ t.pump r = 0 ∧ (opt t).probe = false ∧ (opt t).eligible = false)) ∧
    (s.loopGuard = true → exec (.frameBoundary .a) s = .next s.loopBoundary.settle ∧ exec (.frameBoundary .b) s = .next s.settle) ∧
    (s.loopGuard = false → s.frameDone r = false → (s.silentNow r = false ∨ o.launching = true) →
      exec (.frameBoundary r) s = .next s.settle) ∧
    (s.loopGuard = false → s.silentNow r = true → o.launching = false →
      exec (.frameBoundary r) s = .next ((((s.silentFrame r).boundaryTables r).sharedBoundary r s.cyc).beginAwaited r).settle) ∧
    (s.loopGuard = false → s.frameDone r = true →
      exec (.frameBoundary r) s = .next ((((s.frameTurn r (o.frameNs + c.frame)).beginAwaited r).frameChanges r).sharedBoundary r (o.frameNs + c.frame)).settle ∧
      opt (s.openFrame r (o.frameNs + c.frame)) = { o with
        frameNs := o.frameNs + c.frame, frames := o.frames + 1, frameFlags := 0, frameFirst := none })

/-- The coherent receiver (R112 to R132): the automatic gain steps down on clipping and up after a run of low peaks, two shots later; BLANK of at least
the minimum width is recognised and marks its interval, and a shorter one is counted; a foreground run starts on a request, on temperature and on its interval, ends once its windows are
gathered, and its sets await the frame boundary; a blind period of low power or with a range step is discarded, and the sets that another one estimates from its
sums await the boundary where they leave the dead band and no foreground set is due.
Model's choices: assumption log 20, 39. -/
def Obligations.ReceiverGainAndCalibration : Prop :=
  ∀ (s : State) (v : Via) (r : Route) (level : Nat) (lx ly : List LaneSample) (b : Bool) (temp : Int) (mx my : ToneFigures),
    let raw := joinLanes lx ly
    let o := at100 0x2180 r
    let q := at100 0x2190 r
    let opt := (s.route r).optics
    let crx := fun (u : State) => (u.route r).crx
    let g := s.range r
    let t0 := opt.shotNs + launchOffset (s.sched r) (s.loopGuard && r == .b) 0
    let stat := agcStatistics (sampled t0 raw) (fun t => excluded (intervalLaunches (s.sched r) t0) (s.r100 r 0x2180 0x08) t || s.leftOut r t)
    let peak := stat.1
    let judged := s.crxPowered r = true ∧ opt.launching = true ∧ opt.shot ≠ 0 ∧ (crx s).pendingStep = none ∧ (crx s).stepShot ≤ opt.shot - 1 ∧ s.cfg r o 0x01 = 1
    let level' := b != s.on 0x2032 0x01
    let width := s.cyc - s.pins.blankSince
    let low := lowPower ((crx s).blindOf 0) ((crx s).blindOf 1) (s.r100 r 0x2190 0x08)
    let cur := eightSets (crx s).sets
    let est := fun (pol : Nat) => estimateSet ((crx s).blindOf pol) (setAt cur g pol)
    (s.crxPowered r = true → opt.shot ≠ 0 →
      ∃ t, exec (.agcIntervalEnd r lx ly) s = .next t ∧ t.num o 0x13 = incWrap (s.num o 0x13) ((raw.flatMap rawCodes).filter isClip).length 32) ∧
    (s.crxPowered r = false ∨ opt.shot = 0 → exec (.agcIntervalEnd r lx ly) s = .next s.settle) ∧
    (judged → s.cfg r o 0x05 ≤ stat.2 → s.cfg r o 0x03 < g →
      ∃ t, exec (.agcIntervalEnd r lx ly) s = .next t ∧ (crx t).pendingStep = some (g - 1, opt.shot + 1) ∧ (crx t).lowRun = 0) ∧
    (judged → stat.2 < s.cfg r o 0x05 → peak ≤ s.cfg r o 0x06 → s.cfg r o 0x07 ≤ (crx s).lowRun + 1 → g < s.cfg r o 0x04 →
      ∃ t, exec (.agcIntervalEnd r lx ly) s = .next t ∧ (crx t).pendingStep = some (g + 1, opt.shot + 1) ∧ t.num o 0x14 = peak) ∧
    (judged → stat.2 < s.cfg r o 0x05 → s.cfg r o 0x06 < peak →
      ∃ t, exec (.agcIntervalEnd r lx ly) s = .next t ∧ (crx t).pendingStep = none ∧ (crx t).lowRun = 0) ∧
    (level' = true → s.pins.blank = false →
      exec (.blankEdge b) s = .next ({ s with pins := { s.pins with
        blankLevel := b, blank := true, blankSeen := false, blankSince := s.cyc } } : State).settle) ∧
    (s.pins.blank = true → s.pins.blankSeen = false → s.num 0x2032 0x05 ≤ width →
      s.watchBlank = ({ s.bump 0x2032 0x10 1 with pins := { s.pins with blankSeen := true } } : State)) ∧
    (level' = false → s.pins.blank = true →
      (s.pins.blankSeen = true ∨ s.num 0x2032 0x05 ≤ width → ∃ t, exec (.blankEdge b) s = .next t ∧ t.pins.blank = false ∧
        t.num 0x2032 0x10 = (if s.pins.blankSeen then s.num 0x2032 0x10 else incWrap (s.num 0x2032 0x10) 1 32) ∧
        t.pins.blanked.getLast? = some (s.pins.blankSince - s.num 0x2032 0x02, s.cyc + s.num 0x2032 0x03)) ∧
      (s.pins.blankSeen = false → width < s.num 0x2032 0x05 → ∃ t, exec (.blankEdge b) s = .next t ∧ t.pins.blank = false ∧
        t.pins.blanked = s.pins.blanked ∧ t.num 0x2032 0x11 = incWrap (s.num 0x2032 0x11) 1 32)) ∧
    (level' = s.pins.blank → exec (.blankEdge b) s = .next ({ s with pins := { s.pins with blankLevel := b } } : State).settle) ∧
    (s.runsOn r = true → (crx s).run = false →
      exec (.foregroundIntervalExpiry r) s = .next (s.startRun r).settle ∧
      (bit (s.num q 0x13) 0 = true → s.r100 r 0x2190 0x02 ≤ (temp - s.int q 0x11 16).natAbs →
        ∃ t, exec (.crxTemperatureRead r temp) s = .next t ∧ (crx t).run = true ∧ t.num q 0x10 = ofSigned temp 16 ∧ bit (t.num q 0x13) 7 = true) ∧
      (Reaches s v level q 0x05 [1] → 2 ≤ level → s.mode ≠ 7 → Does (.calibrationRequest v r) s ((Opened v s).startRun r) id)) ∧
    ((crx s).run = true → s.windowsOn r = true → s.r100 r 0x2190 0x04 ≤ (crx s).gathered → bit (s.num q 0x13) 1 = false → g < 4 →
      ∃ t l, exec (.foregroundRunComplete r mx my) s = .next t ∧ (crx t).run = false ∧ (crx t).pendingSet = some (l, true) ∧
        setAt l g 0 = limitSet (runSet mx) ∧ setAt l g 1 = limitSet (runSet my) ∧ (crx t).sets = (crx s).sets) ∧
    ((crx s).run = true → (crx s).gathered < s.r100 r 0x2190 0x04 → exec (.foregroundRunComplete r mx my) s = .next s.settle) ∧
    (s.r100 r 0x2190 0x06 = 1 → opt.launching = true → s.r100 r 0x2190 0x07 ≤ (crx s).blindFrames →
      (low = true ∨ (crx s).blindStep = true →
        ∃ t, exec (.blindPeriodEnd r () () ()) s = .next t ∧ (crx t).blindFrames = 0 ∧ (crx t).blindStep = false ∧ (crx t).blind = [] ∧
          bit (t.num q 0x13) 6 = true ∧ (crx t).pendingSet = (crx s).pendingSet) ∧
      (low = false → (crx s).blindStep = false →
        ∃ t, exec (.blindPeriodEnd r () () ()) s = .next t ∧ (crx t).blindFrames = 0 ∧ (crx t).blind = [] ∧ bit (t.num q 0x13) 6 = false ∧
          ((∀ l, (crx s).pendingSet ≠ some (l, true)) → g < 4 → beyondBand (limitSet (est 0)) (setAt cur g 0) = true ∨
              beyondBand (limitSet (est 1)) (setAt cur g 1) = true →
            ∃ l, (crx t).pendingSet = some (l, false) ∧ setAt l g 0 = limitSet (est 0) ∧ setAt l g 1 = limitSet (est 1)) ∧
          ((∃ l, (crx s).pendingSet = some (l, true)) ∨ g < 4 ∧ beyondBand (limitSet (est 0)) (setAt cur g 0) = false ∧
              beyondBand (limitSet (est 1)) (setAt cur g 1) = false →
            (crx t).pendingSet = (crx s).pendingSet))) ∧
    (s.r100 r 0x2190 0x06 ≠ 1 ∨ opt.launching = false ∨ (crx s).blindFrames < s.r100 r 0x2190 0x07 →
      exec (.blindPeriodEnd r () () ()) s = .next s.settle)

/-- The Raman receiver (R102, R188 to R200): a pulse that is due fires in NORMAL alone and is scheduled in either case; its window ends with the
pulse accumulated; a block closes at its boundary once its launches and windows are over and the next begins; an attenuation calibration runs over its frames and proposes its result.
Model's choices: assumption log 24. -/
def Obligations.RamanPulsesAreAccumulated : Prop :=
  ∀ (s : State) (v : Via) (r : Route) (level : Nat) (st an : DrxSamples) (td t0 : Nat),
    let o := (s.route r).optics
    let th := fun (u : State) => (u.route r).thermal
    let get := s.read r
    let q := at10 0x2510 r
    let first := o.shotNs + launchOffset (s.sched r) (s.loopGuard && r == .b) 0
    let blk := fun (u : State) (ns : Nat) => if ns < s.blockStop r then (th u).block else (th u).next
    let mid := fun (y : Nat × Nat) => ((2 * y.1 + y.2 : Nat) : Int) - 1
    let d : Int := match calPoint get r with
      | some j => mid (pointSpan get r j) - mid (coilSpan get r)
      | none => 0
    (s.ramanDue r = true → s.aprState r = 0 → o.launching = true → o.moving = false → s.power.safeRequest = false →
      ∃ t, exec (.ramanPulse r) s = .next t ∧ (th t).pulse = some (first + s.g100 r 0x2170 0x03, first) ∧
        (blk t first).scheduled = (blk s first).scheduled + 1 ∧ bit (t.num (at100 0x21A0 r) 0x15) 0 = true) ∧
    (s.ramanDue r = true → s.aprState r ≠ 0 →
      ∃ t, exec (.ramanPulse r) s = .next t ∧ (th t).pulse = (th s).pulse ∧
        (blk t first).scheduled = (blk s first).scheduled + 1 ∧ bit (blk t first).flags 13 = true ∧ t.od = s.od) ∧
    (exec (.dtspPulseEnd r) s = .next (s.setDtsp r false).settle ∧ (match r with | .a => (s.setDtsp r false).pins.dtspA | .b => (s.setDtsp r false).pins.dtspB) = false) ∧
    (s.ramanDue r = false → exec (.ramanPulse r) s = .next s.settle) ∧
    ((th s).pulse = some (td, t0) → st.baseline.any drxClip = false → an.baseline.any drxClip = false →
      (∀ i : Nat, i < 64 → s.blankedAt r ((td : Int) - 272 + 4 * (i : Int)) = false) →
      ∃ t, exec (.drxWindowEnd r st an) s = .next t ∧ (th t).pulse = none ∧ (blk t t0).pulses = (blk s t0).pulses + 1) ∧
    ((th s).pulse = some (td, t0) → st.baseline.any drxClip = true →
      ∃ t, exec (.drxWindowEnd r st an) s = .next t ∧ (th t).pulse = none ∧ (blk t t0).pulses = (blk s t0).pulses ∧
        (blk t t0).stokes = (blk s t0).stokes ∧ (blk t t0).anti = (blk s t0).anti) ∧
    ((th s).pulse = none → exec (.drxWindowEnd r st an) s = .next s.settle) ∧
    (s.gov r = r → s.blockStop r ≤ s.reached r → s.launchesDone r (s.blockStop r) = true → s.windowsDone r (s.blockStop r) = true →
      exec (.ramanBlockClose r) s = .next (s.endBlock r).settle ∧ (th (s.endBlock r)).block = (th s).next ∧
        (th (s.endBlock r)).blockNs = s.blockStop r ∧ (th (s.endBlock r)).cut = none) ∧
    (s.gov r ≠ r ∨ s.reached r < s.blockStop r ∨ s.launchesDone r (s.blockStop r) = false ∨ s.windowsDone r (s.blockStop r) = false →
      exec (.ramanBlockClose r) s = .next s.settle) ∧
    (Reaches s v level q 0x0A [1] → 2 ≤ level → s.mode ≠ 7 → (th s).calFrames = none → get q 0x07 ≤ get q 0x08 →
      (mkSched get .sense r).first ≤ get q 0x07 → get q 0x08 < (mkSched get .sense r).first + (mkSched get .sense r).count →
      (calPoint get r).isSome = true →
      Does (.attenuationCalibrationRequest v r) s (((Opened v s).modThermal r (fun t =>
        { t with calFrames := some (get q 0x0B), calSum := 0, calN := 0 })).putBit q 0x14 2 true) id) ∧
    ((th s).calFrames = some 0 →
      ∃ t v, exec (.attenuationCalibrationComplete r) s = .next t ∧
        t.num q 0x13 = ofSigned (s32 (quotOr (2 ^ 17 * (th s).calSum) (((th s).calN : Int) * d) v)) 32 ∧ (th t).calFrames = none ∧
        bit (t.num q 0x14) 2 = false)

/-! ### Rayleigh processing and the filter chain (R133 to R241) -/

/-- From launch to frame (R135, R148, R150, R160 to R163, R179, R182, R203, R219, R225, R230): a launch whose tap window is closed is compressed into
the hand-off; each position's product enters the gauge ring once; the loop merges what both ends have passed; the input of a route leaves the hand-off free and that of the loop goes on to the next instant;
each tracked position is taken once; a waiting
frame is handed over once; the spare's test passes, which the rotation waits for, or begins a targeted test; a bank is selected at its boundary.
Model's choices: assumption log 21, 22, 25, 26. -/
def Obligations.LaunchesAreProcessedIntoFrames : Prop :=
  ∀ (s : State) (v : Via) (r : Route) (level pos place ns : Nat) (raw : List RawSample) (l : Launch) (h : Handoff) (f : ReadyFrame)
    (stream : Fin 16) (bank : Byte),
    let c := sliceCfg (s.readAt r h.launch.seq) s.kind r
    let f0 := s.physical (logicalSlice r place)
    let ray := fun (u : State) => (u.route r).ray
    let th := fun (u : State) => (u.route r).thermal
    ((s.route r).optics.inFlight.find? (fun x => !x.compressed) = some l → l.closed = true → (ray s).handoff = none →
      s.engineRetired r = false → (s.route r).optics.engineOut = false → s.crxPowered r = true → s.mode ≠ 5 → s.power.transition = none →
      ∃ t x, exec (.launchCompressed r raw false) s = .next t ∧ (ray t).handoff = some x ∧ x.launch.seq = l.seq) ∧
    ((s.route r).optics.inFlight.find? (fun x => !x.compressed) = some l → l.closed = false → s.power.transition = none →
      exec (.launchCompressed r raw false) s = .next s.settle) ∧
    ((ray s).handoff = some h → c.positions.findIdx? (fun p => p == pos) = some place → mapGet (ray s).ring pos = none →
      s.sliceRetired f0 = false → s.slices.inPlace.contains f0.val = false →
      ∃ t, exec (.sliceUpdate r pos false none) s = .next t ∧ mapGet (ray t).ring pos =
        some (sliceProduct c h.launch.group h.launch.seq (h.bin c pos) 0 false ((mapGet (ray s).recs pos).getD freshRec)).2) ∧
    ((ray s).handoff = some h → (mapGet (ray s).ring pos).isSome = true → exec (.sliceUpdate r pos false none) s = .next s.settle) ∧
    (s.sliceRetired s.spare = false → s.testing (.slice s.spare) = false →
      exec (.spareTestCycle true) s = .next ({ s with slices := { s.slices with passed := true } } : State).settle ∧
      (∃ t, exec (.spareTestCycle false) s = .next t ∧ t.testing (.slice s.spare) = true ∧
        NewestRecord s t 0x20)) ∧
    (s.handoff r = some h → s.trackedLaunch r h = true →
      ((th s).trackSeq ≠ some h.launch.seq →
        ∃ t, exec (.trackedUpdate r none none) s = .next t ∧ (th t).trackSeq = some h.launch.seq ∧ (th t).trackDone = []) ∧
      ((th s).trackSeq = some h.launch.seq → (th s).trackDone.contains pos = true → exec (.trackedUpdate r (some pos) none) s = .next s.settle) ∧
      ((th s).trackSeq = some h.launch.seq → (th s).trackDone.contains pos = false →
        (endPositions (s.readAt r h.launch.seq) .sense r).contains pos = true →
        ∃ t, exec (.trackedUpdate r (some pos) none) s = .next t ∧ (th t).trackDone = (th s).trackDone ++ [pos])) ∧
    (s.loopNs = some ns → (mergedPositions (s.handRead .a) s.kind).findIdx? (fun p => p == pos) = some place → s.handGuard .a = true →
      s.instantReady ns = true → mapGet s.loop.emitted pos = none → s.endPassed .a ns pos = true → s.endPassed .b ns pos = true →
      ∃ t, exec (.loopMerge pos) s = .next t ∧ (mapGet t.loop.emitted pos).isSome = true ∧ (mapGet t.loop.recs pos).isSome = true ∧ t.od = s.od) ∧
    (s.handGuard r = false → s.handoff r = some h → s.power.transition = none →
      (∀ p ∈ c.positions.take (c.positions.length - c.gauge), (mapGet (ray s).updates p).isSome = true) →
      ∃ t, exec (.fdcInput r) s = .next t ∧ (ray t).handoff = none ∧ (ray t).ring = [] ∧ (ray t).updates = []) ∧
    (s.handGuard .a = true → s.loopNs = some ns → s.instantReady ns = true → s.power.transition = none →
      (∀ p ∈ mergedPositions (s.handRead .a) s.kind, (mapGet s.loop.emitted p).isSome = true) →
      ∃ t, exec (.fdcInput .a) s = .next t ∧ t.loop.instant = s.loop.instant + 1 ∧ t.loop.emitted = []) ∧
    ((s.route r).ready.find? (fun x => x.stream == stream.val) = some f → s.power.transition = none →
      ∃ t, exec (.frameHandover stream r) s = .next t ∧ (t.route r).ready = (s.route r).ready.erase f) ∧
    ((s.route r).ready.find? (fun x => x.stream == stream.val) = none → exec (.frameHandover stream r) s = .next s.settle) ∧
    (Reaches s v level (at10 0x2610 r) 0x0A [bank] → 2 ≤ level → s.mode ≠ 7 → bank.toNat ≤ 3 →
      (Opened v s).badBank (objKey (at10 0x2610 r) 0x0A) (.num bank.toNat) = false →
      Does (.bankSelect v r bank) s ((Opened v s).liveWrite (objKey (at10 0x2610 r) 0x0A) (.num bank.toNat)) id) ∧
    (s.loop.cutFrames = none → exec .loopCutLocated s = .next s.settle) ∧
    (∀ t1 e, s.loop.cutFrames = some t1 → t1 + 16 * (s.sched .a).frame ≤ s.routeA.optics.frameNs → s.routeA.optics.inFlight = [] →
      s.routeB.optics.inFlight = [] → s.handoff .a = none → s.handoff .b = none → s.routeA.cutCount.find? (fun x => decide (x.2.1 < x.2.2)) = some e →
      ∃ t, exec .loopCutLocated s = .next t ∧ t.num 0x2A30 0x12 = (s.sched .a).first + 64 * e.1 * (s.sched .a).step ∧ t.routeA.cutCount = [] ∧
        NewestRecord s t 6)

/-- The survey (R169, R170, R173, R174): a run is asked for in SURVEY alone, while none is active, and starts with its sums at zero once the route
starts are done; the normal phase of the ends that have their launches ends with their windows and P_n, and with FAILED where a loop has no match,
cause 5, or a window cannot be proposed, cause 4, or 5 under Loop Guard; the run is COMPLETE once every APR phase is, with the proposals of its ends;
Register copies the proposals that are not zero into the draft, which the client takes, unless a run is active or none has completed.
Model's choices: assumption log 23. -/
def Obligations.SurveyRunsAndRegisters : Prop :=
  ∀ (s x : State) (v : Via) (r : Route) (level : Nat),
    let asked := Reaches s v level 0x2A00 0x09 [1] ∧ 2 ≤ level ∧ s.mode ≠ 7
    let u := ((Opened v s).flushDues .a).flushDues .b
    let ready := s.endsReady
    let formed := ready.foldl State.formEvents s
    let m := if s.loopGuard then loopMatch (loopSums formed.survey.endA.events formed.survey.endB.events) else none
    let matched : State := { formed with survey := { formed.survey with lambda := (m.map (·.1)).getD 0, supporters := (m.map (·.2)).getD 0 } }
    let w := ready.foldl (fun (y : State) q => y.formWindow q y.survey.lambda) matched
    let fits := ∀ q ∈ ready, (w.surveyEnd q).window ≠ none
    let some' := s.loopGuard = true → m ≠ none
    let fails := fun (cause : Nat) => ∃ t, exec .surveyNormalPhaseEnd s = .next t ∧ t.survey.phase = 0 ∧ t.num 0x2A00 0x10 = 3 ∧ t.num 0x2A00 0x11 = cause
    let registers := Reaches s v level 0x2A00 0x08 [1] ∧ 2 ≤ level ∧ s.mode ≠ 7
    let prop : State → Proposals := fun y => match r with
      | .a => y.survey.propA
      | .b => y.survey.propB
    let copied := (Opened v s).surveyRoutes.foldl State.registerEnd ((Opened v s).takeDraft (viaClient v))
    let e := s.surveyEnd r
    let o := at100 0x2160 r
    (asked → s.mode = 5 → s.surveyRuns = false →
      Does (.surveyRunRequest v) s ({ u with survey := { u.survey with phase := 3 } } : State).surveyIfReady id) ∧
    (asked → s.mode ≠ 5 ∨ s.surveyRuns = true → Does (.surveyRunRequest v) s (Opened v s) id) ∧
    (x.mode = 5 → x.survey.phase = 3 →
      (∀ q, x.enabled q = true → (x.route q).optics.start = some .done ∧ x.launchFail q = false ∧ x.aprState q < 2) →
      x.surveyIfReady.survey.phase = 1 ∧ x.surveyIfReady.survey.runs = x.survey.runs + 1 ∧ x.surveyIfReady.num 0x2A00 0x10 = 1 ∧
        (x.surveyIfReady.surveyEnd r).s = [] ∧ (x.surveyIfReady.surveyEnd r).w = [] ∧ (x.surveyIfReady.surveyEnd r).launches = 0) ∧
    (s.survey.phase ≠ 1 ∨ ready = [] ∧ s.surveyRoutes ≠ [] → exec .surveyNormalPhaseEnd s = .next s.settle) ∧
    (s.survey.phase = 1 → ready ≠ [] ∨ s.surveyRoutes = [] →
      (s.loopGuard = true → m = none → fails 5) ∧
      (some' → ¬ fits → fails (if s.loopGuard then 5 else 4)) ∧
      (some' → fits →
        ∃ t, exec .surveyNormalPhaseEnd s = .next t ∧ t.survey.lambda = matched.survey.lambda ∧
          (∀ q ∈ ready, (t.surveyEnd q).ended = true ∧ (t.surveyEnd q).window = (w.surveyEnd q).window ∧ (t.surveyEnd q).pn = (w.surveyEnd q).pn ∧
            (t.surveyEnd q).aprPhase = (decide (1 ≤ s.aprCode q) && decide (s.aprCode q < s.normalCode q))) ∧
          t.survey.phase = if s.surveyRoutes.all (fun q => (t.surveyEnd q).ended) then 2 else 1)) ∧
    (s.survey.phase = 2 → (∀ q ∈ s.surveyRoutes, s.aprDone q = true) →
      ∃ t, exec .surveyRunComplete s = .next t ∧ t.survey.phase = 0 ∧ t.survey.done = true ∧ t.num 0x2A00 0x10 = 2 ∧
        t.survey.propLambda = s.survey.lambda ∧
        (r ∈ s.surveyRoutes → (prop t).window = e.window ∧ (prop t).pn = e.pn ∧ (prop t).codes = e.codes ∧
          (prop t).pa = (if e.aprPhase then e.aprSum / max e.aprLaunches 1 else 0))) ∧
    (s.survey.phase = 2 → (∃ q ∈ s.surveyRoutes, s.aprDone q = false) → exec .surveyRunComplete s = .next s.settle) ∧
    (s.survey.phase ≠ 2 → exec .surveyRunComplete s = .next s.settle) ∧
    (registers → s.surveyRuns = false → s.survey.done = true → (∀ h, s.control.holder = some h → h = viaClient v) →
      Does (.register v) s (if s.loopGuard && s.survey.propLambda != 0
        then (copied.draftNum 0x2A30 0x01 (rhu s.survey.propLambda 2).toNat).draftNum 0x2A30 0x02 1 else copied).reportDraft id) ∧
    (registers → s.surveyRuns = true ∨ s.survey.done = false → Does (.register v) s (Opened v s) id) ∧
    (∀ a b, x.g100 r 0x2140 0x01 ≠ 1 → (prop x).window = some (a, b) →
      let d := (x.registerEnd r).control.draft
      let was := x.control.draft
      let gets := fun (sub n : Nat) => dictNum d o sub = if n = 0 then dictNum was o sub else n
      gets 0x08 a ∧ gets 0x09 b ∧ gets 0x0A (prop x).pn ∧ gets 0x0B (prop x).pa ∧ dictNum d o 0x0C = (prop x).codes.1 ∧
        dictNum d o 0x0D = (prop x).codes.2 ∧
        dictNum d (at100 0x2110 r) 0x07 = if (prop x).index = 0 then dictNum was (at100 0x2110 r) 0x07 else (prop x).index)

/-! ### Capture, streams and links (R270 to R309) -/

/-- The capture engine (R274, R276, R277, R280, R282, R285): a line that is known is written and takes the next number, a discarded one takes
its number alone; an ARMED slot accepts a trigger, a CAPTURING one merges a trigger of its line and counts any other, unless the
trigger comes before the accepted one in its recognition cycle; an edge of TRIG_IN is
stamped and offered to the slots, one within 12 ns is counted; the last line read completes the capture, with what bursts in error cost it (R386); Re-arm discards what is held; an output pulse ends.
Model's choices: assumption log 28. -/
def Obligations.CapturesFollowTheirTriggers : Prop :=
  ∀ (s : State) (v : Via) (r : Route) (level : Nat) (k : Fin 8) (n : Fin 2) (src : Nat) (at' : Int) (rising : Bool) (tap : Fin 128) (l : LineSource)
    (c : Capture) (errors : List BurstError),
    let i := capIdx k
    let kind := s.read r (at10 0x2810 r) 0x01
    let stamp := s.tdcStamp (4 + n.val) s.cyc tap 0
    let edge := s.sampleClock = true ∧ edgeTaken (s.num 0x2800 (0x01 + n.val)) rising = true
    let placed := s.localTime (4 + n.val) tap
    let counted := stamp.2.countEdge (11 + n.val) stamp.1
    (s.combOpen r kind = some l →
      (kind ≠ 1 → (∀ p ∈ combPositions (s.read r) r, (s.updateEntry r p).isSome = true) →
        ∃ t, exec (.combLineWrite r) s = .next t ∧ (t.route r).comb.next = (s.route r).comb.next + 1 ∧ (t.route r).comb.lastSeq = some l.seq ∧
          t.num (at10 0x2810 r) 0x13 = (s.route r).comb.next + 1) ∧
      (∀ h, kind = 1 → s.handoff r = some h →
        (let g := sliceCfg (s.readAt r h.launch.seq) s.kind r
         ∀ p ∈ combPositions (s.read r) r, p ∈ g.positions.take (g.positions.length - g.gauge) → (mapGet (s.route r).ray.updates p).isSome = true) →
        ∃ t, exec (.combLineWrite r) s = .next t ∧ (t.route r).comb.next = (s.route r).comb.next + 1 ∧ (t.route r).comb.lastSeq = some l.seq) ∧
      ∃ t, exec (.combLineDiscard r) s = .next t ∧ (t.route r).comb.next = (s.route r).comb.next + 1 ∧
        t.num (at10 0x2810 r) 0x14 = incWrap (s.num (at10 0x2810 r) 0x14) 1 32 ∧
        ∀ x, mapGet (t.route r).comb.lines (s.route r).comb.next = some x → x.written = false) ∧
    (s.combOpen r kind = none → exec (.combLineWrite r) s = .next s.settle ∧ exec (.combLineDiscard r) s = .next s.settle) ∧
    (bit (s.num i 0x03) src = true → s.mode = 4 →
      (s.num i 0x20 = 1 → ∃ x, ((s.triggerSlot k src at').capture.get k).copying = some x ∧ x.ttime = at' ∧ x.sources = 2 ^ src ∧
        (s.triggerSlot k src at').num i 0x20 = 2) ∧
      (s.num i 0x20 = 2 → (s.capture.get k).copying = some c → s.outranks c src at' = true →
        ∃ x, ((s.triggerSlot k src at').capture.get k).copying = some x ∧ x.ttime = at') ∧
      (s.num i 0x20 = 2 → (s.capture.get k).copying = some c → s.outranks c src at' = false → c.placed = false →
        s.triggerSlot k src at' = s.setSlot k { s.capture.get k with copying := some { c with early := c.early ++ [(src, at')] } }) ∧
      (s.num i 0x20 = 2 → (s.capture.get k).copying = some c → s.outranks c src at' = false → c.placed = true →
        (s.lineOf (s.route c.route).comb c.tL at').1 = c.tline →
        s.triggerSlot k src at' = s.setSlot k { s.capture.get k with copying := some { c with
          sources := c.sources ||| 2 ^ src, cflags := c.cflags ||| 4 } }) ∧
      (s.num i 0x20 = 2 → (s.capture.get k).copying = some c → s.outranks c src at' = false → c.placed = true → src < 8 →
        (s.lineOf (s.route c.route).comb c.tL at').1 ≠ c.tline → s.triggerSlot k src at' = s.bump i 0x21 1) ∧
      (s.num i 0x20 = 3 → s.triggerSlot k src at' = s.bump i 0x21 1)) ∧
    (bit (s.num i 0x03) src = false → s.triggerSlot k src at' = s) ∧
    (Reaches s v level i 0x19 [1] → 1 ≤ level → s.mode ≠ 7 →
      Does (.hostTrigger v k) s ((Opened v s).triggerSlot k 0 (Opened v s).now16) id) ∧
    (Reaches s v level i 0x18 [1] → 1 ≤ level → s.mode ≠ 7 →
      (s.num i 0x20 = 1 → Does (.reArm v k) s (Opened v s) id) ∧
      (s.num i 0x20 = 3 → Does (.reArm v k) s (((Opened v s).setSlot k { s.capture.get k with held := none }).slotState k 1) id)) ∧
    (edge → inDeadTime (s.trigIn.get n).last placed = false →
      exec (.trigInEdge n rising tap) s = .next (({ counted with
        trigIn := counted.trigIn.set n { counted.trigIn.get n with last := some placed } } : State).triggerSlots (1 + n.val) stamp.1
          (fun _ => true)).settle) ∧
    (edge → ∀ t0, (s.trigIn.get n).last = some t0 → placed < t0 + 12 * 65536 →
      exec (.trigInEdge n rising tap) s = .next (s.bump 0x1430 (0x10 + n.val) 1).settle) ∧
    (¬ edge → exec (.trigInEdge n rising tap) s = .next s.settle) ∧
    (((s.catchUp k).capture.get k).copying = some c → c.placed = true → c.tline + c.post < c.next →
      exec (.captureComplete k errors) s = .next (((s.catchUp k).copyErrors k errors).endCapture k false).settle ∧
      ∃ t, exec (.captureComplete k []) s = .next t ∧ (t.capture.get k).copying = none ∧ (t.capture.get k).held.isSome = true ∧
        (t.capture.get k).seq = ((s.capture.get k).seq + 1) % 2 ^ 32 ∧ t.num i 0x22 = incWrap (s.num i 0x22) 1 32 ∧
        t.num i 0x20 = if s.num i 0x0C = 1 ∧ s.num i 0x13 ≠ 1 then 1 else 3) ∧
    ((s.capture.get k).copying = none → exec (.captureComplete k errors) s = .next s.settle) ∧
    (exec (.evtOutPulseEnd 0) s = .next ({ s with pins := { s.pins with evtOut0 := false } } : State).settle ∧
      exec (.evtOutPulseEnd 1) s = .next ({ s with pins := { s.pins with evtOut1 := false } } : State).settle)

/-- Streams and links (R291 to R293, R296, R298, R301, R305, R306, R316): the frame that goes first sends its next packet on a link that is UP, and one
found uncorrectable is lost (R386); a lost
link retrains, counts and is recorded; training falls back to 10G, fails, is tried again and comes up; addresses are asked for, answered and kept;
the gathered frame closes; telemetry makes one frame; a NET port comes up and goes down.
Model's choices: assumption log 29. -/
def Obligations.LinksCarryTheirPackets : Prop :=
  ∀ (s : State) (l : Fin 2) (place : Nat) (f : Frame) (e : ArpEntry) (ip sender : W32) (mac : BitVec 48) (data : Bytes) (n : NetPort)
    (errors : List BurstError),
    let i := 0x1120 + l.val
    let first := (f.next.get l).getD 0
    let tried := fun (b : Bool) (t : State) => ({ t with streams := { t.streams with trying10 := s.streams.trying10.set l b } } : State)
    let others := s.streams.arp.filter (fun x => !(x.link == l && x.ip == ip))
    let port := match n with
      | .net0 => 0x1110
      | .net1 => 0x1111
    (s.linkState l = 1 → s.power.dead = false → 2 ≤ s.mode →
      exec (.packetTransmit ⟨l, errors⟩) s = .next ((s.readLoss errors).transmit l (s.streams.backlog.length + 1)).settle ∧
      (s.nextFrame l = some place → s.streams.backlog[place]? = some f → s.arpKnown l (s.streamDest f.stream l) = true → s.tooLate l f first = false →
        ∃ t, exec (.packetTransmit ⟨l, []⟩) s = .next t ∧ t.out = s.out ++ [.dx l (s.streamDest f.stream l) 20842 (s.num (streamIdx f.stream) 0x04)
          (s.num (streamIdx f.stream) 0x07) true 0 (packetBytes f l s.packetSize first)] ∧
          (f.bytes.length ≤ (first + 1) * s.packetSize →
            t.num (streamIdx f.stream) 0x10 = incWrap (s.num (streamIdx f.stream) 0x10) 1 32)) ∧
      (s.nextFrame l = none → exec (.packetTransmit ⟨l, []⟩) s = .next s.settle)) ∧
    (s.linkState l ≠ 1 → exec (.packetTransmit ⟨l, errors⟩) s = .next s.settle ∧ exec (.linkLoss l) s = .next s.settle) ∧
    (s.linkState l = 1 →
      ∃ t, exec (.linkLoss l) s = .next t ∧ t.linkState l = 2 ∧ t.num i 0x14 = incWrap (s.num i 0x14) 1 32 ∧
        NewestRecord s t 7) ∧
    (s.linkState l = 2 →
      (s.streams.trying10.get l = false → s.num i 0x02 = 0 → s.on i 0x08 = true →
        exec (.retrainAttemptExpiry l) s = .next (tried true ((s.bump i 0x15 1).put i 0x11 1)).settle) ∧
      (s.streams.trying10.get l = true ∨ s.num i 0x02 ≠ 0 ∨ s.on i 0x08 = false →
        exec (.retrainAttemptExpiry l) s = .next (tried false (s.put i 0x10 3)).settle)) ∧
    (s.linkState l = 3 → exec (.linkRetry l) s = .next (tried false ((s.put i 0x10 2).put i 0x11 (s.num i 0x02))).settle) ∧
    (s.linksRun = true → s.on i 0x01 = true → s.linkState l ≠ 1 → s.linkState l ≠ 3 → (l = 1 → s.gated 0 = false) →
      ∃ t, exec (.linkUp l) s = .next t ∧ t.linkState l = 1 ∧ t.num i 0x11 = if s.streams.trying10.get l = true then 1 else s.num i 0x02) ∧
    (s.gated 0 = true → exec (.linkUp 1) s = .next s.settle) ∧
    (s.power.dead = true → exec (.arpRefresh l ip) s = .next s.settle) ∧
    (s.power.dead = false → s.streams.arp.find? (fun e => e.link == l && e.ip == ip) = some e →
      (3 ≤ e.misses → exec (.arpRefresh l ip) s = .next ({ s with streams := { s.streams with arp := others } } : State).settle) ∧
      (e.misses < 3 → exec (.arpRefresh l ip) s = .next (({ s with streams := { s.streams with
        arp := others ++ [{ e with misses := e.misses + 1 }] } } : State).emit (.arpRequest l ip)).settle)) ∧
    (s.linkState l = 1 → allStreams.any (fun st => s.streamDest st l == ip) = true → ip ≠ 0 →
      exec (.arpReply l ip mac) s = .next ({ s with streams := { s.streams with
        arp := others ++ [{ link := l, ip := ip, mac := mac, misses := 0 }] } } : State).settle) ∧
    (s.ownAddress l ip = true → exec (.arpRequest l ip sender mac) s = .next (s.emit (.arpReply l ip sender mac)).settle ∧
      exec (.icmpEcho l ip sender data) s = .next (s.emit (.icmpReply l sender data)).settle) ∧
    (s.linkState l = 1 → exec (.pauseReceived l) s = .next (s.bump i 0x16 1).settle ∧
      (s.num i 0x04 = 1 → exec (.dhcpReply (.dx l) ip) s = .next (s.put i 0x13 ip.toNat).settle)) ∧
    (s.streams.gathered ≠ [] → ∃ t, exec .gatheredFrameClose s = .next t ∧ t.streams.gathered = s.streams.queue.take 32 ∧
      t.streams.queue = s.streams.queue.drop 32 ∧ t.streams.evCount.get 7 = s.streams.evCount.get 7 + 1) ∧
    (s.streams.gathered = [] → exec .gatheredFrameClose s = .next s.settle) ∧
    (2 ≤ s.mode → ∃ d : FrameDesc, exec .telemetrySample s = .next ((s.deviceCount 11).2.handOver d).2.settle ∧ d.stream = 11 ∧
      d.fcount = s.streams.evCount.get 11 ∧ d.tstart = s.now16 ∧ d.period = s.num 0x2900 0x04 * 1000000) ∧
    (s.mode ≤ 1 → exec .telemetrySample s = .next s.settle) ∧
    (exec (.netLinkDown n) s = .next (s.put port 0x10 0).settle) ∧
    (s.clkBit 8 = true → 2 ≤ s.mode → s.power.dead = false → s.power.resetLow = false → s.power.bringUp = none → (n = .net1 → s.gated 1 = false) →
      s.on port 0x01 = true → exec (.netLinkUp n) s = .next (s.put port 0x10 1).settle)

/-! ### Time, stamps, PTP and the SYNC bus (R343 to R366) -/

/-- Device time and its references (R343 to R352): the host sets the time in FREE and ACQUIRING; a measurement steps the clock where it is far off,
else moves the integral, and locks and unlocks by its run; edges and gates decide presence; WARMUP, HOLDOVER and its limit end; PPS_OUT pulses.
Model's choices: assumption log 9, 30. -/
def Obligations.DeviceTimeFollowsItsReference : Prop :=
  ∀ (s : State) (v : Via) (level : Nat) (ns : BitVec 64) (frac : BitVec 16) (th last : Int) (rising warm : Bool) (tap : Fin 128) (count : Nat),
    let x := s.time
    let stamp := (s.tdcStamp 6 s.cyc tap 0).1
    let present := fun (t : State) (b : Nat) => bit (t.num 0x1400 0x26) b
    let size : Int := (th.natAbs : Nat)
    (Reaches s v level 0x1400 0x12 (beBytes 8 ns.toNat ++ beBytes 2 frac.toNat) → 2 ≤ level → s.mode ≠ 7 → s.timeState = 0 ∨ s.timeState = 2 →
      Does (.timeSet v ns frac) s ((Opened v s).stepTime ((ns.toNat * 65536 + frac.toNat : Nat) * 2 ^ 32)) id) ∧
    (s.theta = none → exec .discipline s = .next (s.modTime (fun t => { t with ppsTheta := none, ptpThetas := [], syncTheta := none })).settle) ∧
    (s.theta = some th → s.timeState ≠ 1 →
      ∃ t, exec .discipline s = .next t ∧ t.num 0x1400 0x23 = ofSigned th 64 ∧ t.time.ppsTheta = none ∧ t.time.syncTheta = none ∧
        t.time.ptpThetas = [] ∧
        (x.fresh = false → s.timeState = 2 ∨ s.timeState = 0 → ((s.num 0x1400 0x07 * 65536 : Nat) : Int) ≤ size →
          t.time.ns = (x.set48 (x.t48 - th * 2 ^ 32)).ns ∧ t.time.frac = (x.set48 (x.t48 - th * 2 ^ 32)).frac ∧ t.time.integ = x.integ ∧
          t.num 0x1400 0x28 = incWrap (s.num 0x1400 0x28) 1 32) ∧
        (size < ((s.num 0x1400 0x07 * 65536 : Nat) : Int) → t.time.ns = x.ns ∧ t.time.frac = x.frac ∧
          t.time.integ = x.integ + rhu th (s.num 0x1400 0x05)) ∧
        (x.fresh = false → s.timeState = 2 → x.lockRun = 15 → size ≤ s.lockLimit → t.timeState = 3) ∧
        (x.fresh = false → s.timeState = 3 → x.farRun = 3 → 4 * s.lockLimit < size → t.timeState = 2)) ∧
    (s.sampleClock = true → edgeTaken (s.num 0x1400 0x0E) rising = true → x.lastPps = some last → (stamp - last - sec16).natAbs ≤ 6553600000 →
      x.ppsGood = 2 → ∃ t, exec (.ppsInEdge rising tap none) s = .next t ∧ present t 0 = true ∧ t.time.lastPps = some stamp ∧ t.time.ppsMiss = 0) ∧
    (x.ppsMiss = 0 → exec .ppsInTimeout s = .next (s.modTime (fun u => { u with ppsMiss := 1, ppsGood := 0 })).settle) ∧
    (1 ≤ x.ppsMiss → ∃ t, exec .ppsInTimeout s = .next t ∧ present t 0 = false) ∧
    (9999000000 ≤ count → count ≤ 10001000000 → 1 ≤ x.refinGood → ∃ t, exec (.refinGate count) s = .next t ∧ present t 1 = true) ∧
    (count < 9999000000 → 1 ≤ x.refinBad → ∃ t, exec (.refinGate count) s = .next t ∧ present t 1 = false) ∧
    (s.present (s.num 0x1400 0x02) = true → ∃ t, exec .referenceRevert s = .next t ∧ t.refInUse = s.num 0x1400 0x02) ∧
    (s.timeState = 4 → ∃ t, exec .holdoverLimitExpiry s = .next t ∧ t.timeState = 5) ∧
    (s.timeState ≠ 4 → exec .holdoverLimitExpiry s = .next s.settle) ∧
    (s.timeState = 1 → warm = (s.num 0x1400 0x0C == 0) →
      ∃ t, exec (.ocxoWarmChange warm) s = .next t ∧ t.time.warm = warm ∧ (t.timeState = 0 ∨ t.timeState = 2)) ∧
    (s.timeState = 1 → warm ≠ (s.num 0x1400 0x0C == 0) →
      exec (.ocxoWarmChange warm) s = .next (s.modTime (fun t => { t with warm := warm })).settle) ∧
    (s.sampleClock = true → exec .ppsOutPulse s = .next ({ s with pins := { s.pins with ppsOut := true } } : State).settle) ∧
    exec .ppsOutWidthEnd s = .next ({ s with pins := { s.pins with ppsOut := false } } : State).settle

/-- Stamps, PTP and the SYNC bus (R354 to R356, R358 to R365): an edge whose level holds for two samples is recognised once and counted, and one of the
precision class within 12 ns of a stamped one is dropped; windows and frames close; the gate's result is the rate of the edges counted in it;
a calibration exchanges the lines of a channel; a Sync of the master in SLAVE gives the offset; the leader of the SYNC bus sends its message each cycle, a
valid leader message makes a unit follow, a delay request is stamped by the leader, and a message with a bad CRC is counted; a trigger of another unit takes
the second nearest device time. What the PTP port does with a message is PRESUMED from IEEE 1588 (assumption log 13).
Model's choices: assumption log 31. -/
def Obligations.StampsAndBusMessages : Prop :=
  ∀ (s : State) (input : Fin 8) (rising running : Bool) (held n unit ago : Nat) (tap : Fin 128) (tf tl at' : Int) (hits : List (List Nat))
    (m : PtpSync) (x : Master) (bits : List Bool) (slot : Fin 16) (rest : List (Nat × Int)) (e : Nat × Int) (src : BitVec 64) (q : BitVec 16),
    let o := 0x1420 + input.val
    let u := s.modInput input (fun y => y.seen rising held)
    let edge := s.sampleClock = true ∧ s.num o 0x01 = 1 ∧ (s.inputs.get input).recognises rising held = true ∧ edgeTaken (s.num o 0x02) rising = true
    let stamp := u.tdcStamp (input.val - 4) s.cyc tap (s.int o 0x05 32)
    let here := s.localTime (input.val - 4) tap
    let gate := s.gateCount (n, tf, tl)
    let ing := ps16 (s.int 0x1150 0x0D 32)
    let egr := ps16 (s.int 0x1150 0x0E 32)
    let bus := s.syncClock = true
    let clk := s.tdcStamp 8 (s.cyc - ago) tap 0
    let sec := nearestSecond s.now16 (bitField bits 13 8)
    ((s.inputs.get input).recognises rising held = true ↔ 2 ≤ held ∧ (s.inputs.get input).level ≠ some rising) ∧
    (edge → (u.inputs.get input).level = some rising) ∧
    (edge → input.val < 6 → exec (.tsEdge input rising held tap) s = .next (u.recordEdge input rising (s.now16 - ps16 (s.int o 0x05 32))).settle) ∧
    (edge → 6 ≤ input.val →
      (inDeadTime (s.inputs.get input).last here = true → exec (.tsEdge input rising held tap) s = .next (u.bump o 0x12 1).settle) ∧
      (inDeadTime (s.inputs.get input).last here = false → exec (.tsEdge input rising held tap) s =
        .next ((stamp.2.modInput input (fun y => { y with last := some here })).recordEdge input rising stamp.1).settle)) ∧
    (s.recordEdge input rising at').num o 0x10 = incWrap (s.num o 0x10) 1 32 ∧
    (s.sampleClock = true → held < 2 → exec (.tsEdge input rising held tap) s = .next u.settle) ∧
    (∃ t, exec .rateCeilingWindow s = .next t ∧ ∀ i, (t.inputs.get i).inMs = 0) ∧
    (s.sampleClock = true → ∃ t, exec .timestampFrameClose s = .next t ∧ t.time.stamps = []) ∧
    (s.sampleClock = false → exec .timestampFrameClose s = .next s.settle) ∧
    (s.num 0x1440 0x01 ≠ 0 → s.sampleClock = true →
      ∃ t, exec (.frequencyGateEnd n tf tl) s = .next t ∧ t.num 0x1440 0x11 = incWrap (s.num 0x1440 0x11) 1 32 ∧ t.time.gateEdges = none ∧
        (gate.1 < 2 → t.num 0x1440 0x10 = 0) ∧
        (2 ≤ gate.1 → gate.2.1 < gate.2.2 →
          t.num 0x1440 0x10 = min (rhuDiv (((gate.1 - 1) * 65536 * 10 ^ 15 : Nat) : Int) (gate.2.2 - gate.2.1)).toNat (2 ^ 64 - 1))) ∧
    exec .tdcCalibrationStart s = .next (s.modTime (fun t => { t with calibrating := true })).settle ∧
    (s.time.calibrating = true → s.power.bringUp = none → s.time.channels.length = 10 → (∀ i < 10, tdcGood (hits.getD i []) = true) →
      ∃ t, exec (.tdcCalibrationComplete hits) s = .next t ∧ t.time.calibrating = false ∧
        t.num 0x1438 0x11 = incWrap (s.num 0x1438 0x11) 1 32 ∧
        ∀ i < 10, (t.tdcChannel i).line1 = !(s.tdcChannel i).line1 ∧
          (if (t.tdcChannel i).line1 then (t.tdcChannel i).table1 else (t.tdcChannel i).table0) = tdcTable (hits.getD i [])) ∧
    (s.ptpOn = true → m.domain.toNat = s.num 0x1150 0x06 →
      (s.ptpState = 9 → s.ptp.master = some x → x.source = m.source → m.followUp = false → m.twoStep = false →
        ∃ t, exec (.ptpSyncReceive m) s = .next t ∧
          t.num 0x1150 0x11 = ofSigned (sat ((m.stamp - ing) - (m.origin + m.correction) - s.pathDelay) 64) 64 ∧ bit (t.num 0x1400 0x26) 2 = true) ∧
      (s.ptpState = 9 → s.ptp.master = some x → x.source = m.source → m.followUp = false → m.twoStep = true →
        exec (.ptpSyncReceive m) s = .next (s.modPtp (fun p => { p with sync := some (m.seqId.toNat, m.stamp - ing, m.correction) })).settle) ∧
      (s.ptpState = 6 → s.p2p = false → s.ptpLink = true → s.keeperServes = true →
        exec (.ptpMessageReceive ⟨m.domain, .delayReq src q at'⟩) s = .next (s.emit (s.ptpMsg 9 q.toNat [src.toNat, at' - ing])).settle) ∧
      (s.ptpState = 6 → s.ptpLink = true → s.keeperServes = true →
        exec (.ptpInterval .sync) s = .next (((s.emit (s.ptpMsg 0 s.ptp.syncSeq [])).emit (s.ptpMsg 8 s.ptp.syncSeq [s.now16 + egr])).modPtp
          (fun p => { p with syncSeq := (s.ptp.syncSeq + 1) % 65536 })).settle) ∧
      (∃ t, exec .ptpSyncTimeout s = .next t ∧ bit (t.num 0x1400 0x26) 2 = false) ∧
      (∃ t, exec .announceReceiptTimeout s = .next t ∧ t.ptpState = (if s.num 0x1150 0x03 = 1 then 4 else 6) ∧ t.ptp.master = none)) ∧
    (m.domain.toNat ≠ s.num 0x1150 0x06 → exec (.ptpSyncReceive m) s = .next s.settle ∧
      ∀ body, exec (.ptpMessageReceive ⟨m.domain, body⟩) s = .next s.settle) ∧
    (s.syncState = 3 → s.syncDrives = true → ∃ t, exec .syncCycle s = .next t ∧ t.out = s.out ++ [.sync s.leaderMessage] ∧ t.sync.reply = none) ∧
    (s.syncDrives = false → ∃ t, exec .syncCycle s = .next t ∧ t.out = s.out) ∧
    (s.syncState = 2 ∨ s.syncState = 3 → s.syncDrives = true → s.sync.sending = false → s.sync.queue = e :: rest →
      exec .syncTriggerSend s = .next ((s.emit (.sync (unitMessage s.syncUnit (some e)))).modSync (fun x => { x with queue := rest, sending := true })).settle) ∧
    (s.syncState = 1 ∨ s.syncState = 2 → bus → syncValid 157 bits = true → bitField bits 1 15 = 0x2B3C → bitField bits 16 4 = 1 →
      ∃ t, exec (.syncLeaderMessage bits ⟨ago, tap⟩) s = .next t ∧ t.syncState = 2 ∧ t.num 0x1450 0x11 = bitField bits 20 4 ∧ t.sync.sawLeader = true) ∧
    (s.syncState ≠ 0 → bus → syncValid 157 bits = false →
      exec (.syncLeaderMessage bits ⟨ago, tap⟩) s = .next ((clk.2.countEdge 13 clk.1).bump 0x1450 0x18 1).settle) ∧
    (s.syncState ≠ 0 → bus → syncValid 157 bits = true → s.syncState = 3 ∨ bitField bits 1 15 ≠ 0x2B3C →
      exec (.syncLeaderMessage bits ⟨ago, tap⟩) s = .next (clk.2.countEdge 13 clk.1).settle) ∧
    (s.sync.sending = true → exec .syncTriggerSend s = .next s.settle) ∧
    (s.syncState = 3 → bus → syncValid 83 bits = true → bitField bits 1 4 = 2 → bitField bits 5 4 = unit →
      ∃ t, exec (.syncDelayReq ⟨slot, bits⟩ ⟨ago, tap⟩) s = .next t ∧ t.sync.reply = some (unit, (s.tdcStamp 9 (s.cyc - ago) tap 0).1)) ∧
    (s.syncState ≠ 0 → bus → syncValid 83 bits = false →
      ∃ t, exec (.syncDelayReq ⟨slot, bits⟩ ⟨ago, tap⟩) s = .next t ∧ t.num 0x1450 0x18 = incWrap (s.num 0x1450 0x18) 1 32 ∧
        (s.sync.sending = true → slot.val = s.syncUnit → NewestRecord s t 0x39)) ∧
    (s.syncState ≠ 0 → bus → syncValid 83 bits = true → bitField bits 1 4 = 3 →
      (bitField bits 5 4 = s.syncUnit → exec (.syncTrigger ⟨slot, bits⟩) s = .next s.settle) ∧
      (bitField bits 5 4 ≠ s.syncUnit → (sec - bitField bits 13 8) % 256 = 0 ∧ ((sec * sec16 - s.now16).natAbs ≤ (128 * sec16).natAbs ∨ sec < 256) ∧
        exec (.syncTrigger ⟨slot, bits⟩) s = .next ((s.modSync (fun x => { x with heard := x.heard ++ [bitField bits 5 4] })).triggerSync (bitField bits 9 4)
          ((sec * 1000000000 + bitField bits 21 30) * 65536 + bitField bits 51 16)).settle)) ∧
    (s.syncState = 1 → s.num 0x1450 0x01 = 2 → bus → exec (.syncListenExpiry running) s =
      .next (if running then s.put 0x1450 0x10 2 else (s.put 0x1450 0x10 3).put 0x1450 0x11 s.syncUnit).settle)

/-! ### Memory and housekeeping (R370 to R416) -/

/-- DRAM and the on-chip stores (R371 to R390): the grains of the interleaved part share no place, and no two bursts of different rows one row; refreshes are
postponed while requests of class 1 or 2 wait for the rank, issued otherwise, and owed ones are repaid by a rank without a request; MR4 decides the hot state;
the neighbours of the oldest queued row are activated; a late request goes with its work; a channel due by its interval or its PHY temperature retrains, and
training reports its narrowest eye and keeps its settings; a retirement waits for the backlog copy; the Keeper's patrol walks the bursts; a row's first
corrected error is counted, and a row with a lasting fault is spared or, with no spare left, retired.
Model's choices: assumption log 32, 33. -/
def Obligations.MemoryIsRefreshedAndScrubbed : Prop :=
  ∀ (s : State) (v : Via) (level : Nat) (ch rank : Fin 2) (b : Fin 8) (c0 c1 : Fin 8) (rk bank row since : Nat) (rest : List ((Nat × Nat × Nat) × Nat))
    (setting : Training) (eyes : List Byte) (temp : Int) (res : BurstRead) (grain addr addr' : Nat) (st : Store) (bk : Fin 16) (rw' : Fin 1024) (word : Fin 256)
    (own : Option (Route × Nat)) (stream : Fin 16) (r : Route) (q : DramReq) (bad : BurstError) (place pos : Nat) (h : Handoff),
    let i := chIdx ch
    let d := s.dram.get ch
    let n := d.debt.get rank
    let waits := d.waits rank (fun c => c == 1 || c == 2)
    let hotter := if s.ranks ≤ 1 then c0.val else max c0.val c1.val
    let late := fun (q : DramReq) => q.cls == 1 && q.serves stream.val r && (q.deadline.map (fun t => decide (t ≤ s.cyc + 200000))).getD false
    let told := s.putI i 0x1B 16 temp
    let key := (storeNum st, bk.val, rw'.val)
    let used := (s.rows.spared.filter (fun e => e.1 == key.1 && e.2.1 == key.2.1)).length
    (s.interleaved addr = s.interleaved addr' → addr = addr') ∧
    deinterleave grain (interleave grain addr).1 (interleave grain addr).2 = addr ∧
    (s.burstPlace addr = s.burstPlace addr' → addr / 62 = addr' / 62) ∧
    (s.chServing ch = true → rank.val < s.ranks →
      (waits = true → n < debtLimit d.hot →
        ∃ t, exec (.refreshDue ch rank ()) s = .next t ∧ (t.dram.get ch).debt.get rank = n + 1 ∧ t.out = s.out) ∧
      (waits = false ∨ debtLimit d.hot ≤ n →
        ∃ t, exec (.refreshDue ch rank ()) s = .next t ∧ (t.dram.get ch).debt.get rank = n ∧ t.out = s.out ++ [.refresh ch rank.val 1])) ∧
    (s.chServing ch = true → 0 < n → d.waits rank (fun _ => true) = false → d.busy.get rank ≤ s.cyc →
      ((s.repayDebt ch rank).dram.get ch).debt.get rank = n - 1 ∧ (s.repayDebt ch rank).out = s.out ++ [.refresh ch rank.val 1]) ∧
    (s.chServing ch = true →
      (hotter ≤ 5 → ∃ t, exec (.mr4Read ch c0 c1) s = .next t ∧ t.num i 0x12 = hotter ∧
        (t.dram.get ch).hot = if hotter ≤ 3 then d.hot && decide (d.coolReads + 1 < 2) else true) ∧
      (s.trainDue ch temp = true →
        exec (.retrainTrigger ⟨ch, temp⟩) s = .next (told.modDram ch (fun d => { d with retrainDue := true })).idleRetrain.settle) ∧
      (s.trainDue ch temp = false → exec (.retrainTrigger ⟨ch, temp⟩) s = .next told.settle)) ∧
    (s.chServing ch = true → d.neighbours = ((rk, bank, row), since) :: rest →
      ∃ t, exec (.neighbourRefresh ch) s = .next t ∧ rest <+: (t.dram.get ch).neighbours ∧ t.num i 0x15 = incWrap (s.num i 0x15) 1 32 ∧
        t.out = s.out ++ (if row = 0 then [] else [.activate ch rk bank (row - 1)]) ++ (if row + 1 < s.rpr then [.activate ch rk bank (row + 1)] else [])) ∧
    (s.chServing ch = false ∨ d.neighbours = [] → exec (.neighbourRefresh ch) s = .next s.settle) ∧
    exec (.rowIdleClose ch rank b) s = .next (s.modDram ch (fun d => { d with openRows := d.openRows.filter (fun e => !(e.1 == rank.val && e.2.1 == b.val)) })).settle ∧
    (d.queue.find? late = none → exec (.lateRequestDiscard ch stream r) s = .next s.settle) ∧
    (d.queue.find? late = some q → exec (.lateRequestDiscard ch stream r) s = .next (((s.bump i 0x1A 1).modDram ch (fun d =>
      { d with queue := d.queue.filter (fun x => !(x.cls == 1 && x.work == q.work)) })).dropWork q.work).settle) ∧
    (s.handoff r = some h → (s.route r).thermal.trackSeq = some h.launch.seq → (s.route r).thermal.trackDone.contains pos = false →
      ((s.dropWork (.tracker r pos)).route r).thermal.trackDone = (s.route r).thermal.trackDone ++ [pos]) ∧
    (Reaches s v level 0x1600 0x0D [1] → 2 ≤ level → s.mode ≠ 7 → s.clkBit 7 = true → s.chState 0 = 2 → s.chState 1 = 2 →
      Does (.retrainRequest v) s (((Opened v s).modDram 0 (fun d => { d with retrainDue := true })).modDram 1 (fun d =>
        { d with retrainDue := true })).idleRetrain id) ∧
    (s.chState ch = 3 → s.clkBit 7 = true → s.noLaunch = false → s.power.bringUp = none → s.num 0x1600 0x0A ≤ eyeWidth eyes →
      (∀ e ∈ eyes, eyeWidth eyes ≤ e.toNat) ∧
      ∃ t, exec (.dramTrainingComplete ch ⟨some setting, eyes⟩ temp) s = .next t ∧ t.chState ch = 2 ∧ t.num i 0x11 = eyeWidth eyes ∧
        t.num i 0x19 = incWrap (s.num i 0x19) 1 32 ∧ (t.dram.get ch).training = some setting ∧ (t.dram.get ch).lastTemp = temp ∧
        (t.dram.get ch).lastTrainNs = s.cyc) ∧
    (d.retiring = true → s.noLaunch = false →
      (∃ t, exec (.backlogCopyComplete []) s = .next t ∧ (t.dram.get ch).copied = true ∧ t.od = s.od) ∧
      (bad.bad = true → s.chServing bad.ch = true → ∃ t, exec (.backlogCopyComplete [(place, bad)]) s = .next t ∧
        (t.dram.get ch).copied = true ∧ t.num (chIdx bad.ch) 0x18 = incWrap (s.num (chIdx bad.ch) 0x18) 1 32)) ∧
    ((s.dram.get 0).retiring = false → (s.dram.get 1).retiring = false → exec (.backlogCopyComplete []) s = .next s.settle) ∧
    (s.chState ch = 2 → s.clkBit 7 = true → s.keeperServes = true → ∃ t, exec (.patrolScrub ch res ()) s = .next t ∧
      (res ≠ .uncorrectable → (t.dram.get ch).scrub = (d.scrub + 1) % max s.chBursts 1) ∧
      (res = .corrected → t.num i 0x17 = incWrap (s.num i 0x17) 1 32)) ∧
    (s.chState ch ≠ 2 ∨ s.clkBit 7 = false ∨ s.keeperServes = false → exec (.patrolScrub ch res ()) s = .next s.settle) ∧
    exec (.hiveScrub st bk ⟨rw', word⟩ .clean own) s = .next s.settle ∧
    (s.keeperServes = true → (∀ e ∈ s.rows.corrected, (e.1, e.2.1, e.2.2.1) ≠ key) →
      ∃ t, exec (.hiveScrub st bk ⟨rw', word⟩ .corrected own) s = .next t ∧ t.num 0x1620 0x12 = incWrap (s.num 0x1620 0x12) 1 32 ∧
        (key.1, key.2.1, key.2.2, s.cyc) ∈ t.rows.corrected ∧ t.rows.suspects = s.rows.suspects) ∧
    (s.keeperServes = true → s.rows.lasting.contains key = true →
      ∃ t, exec (.hiveRowSpare st bk rw') s = .next t ∧ t.rows.lasting.contains key = false ∧ t.rows.suspects.contains key = false ∧
        NewestRecord s t 0x27 ∧
        (used < 8 → t.rows.spared = s.rows.spared ++ [key] ∧ t.rows.retired = s.rows.retired) ∧
        (8 ≤ used → t.rows.retired = s.rows.retired ++ [key] ∧ t.rows.spared = s.rows.spared)) ∧
    (s.rows.lasting.contains key = false ∨ s.keeperServes = false → exec (.hiveRowSpare st bk rw') s = .next s.settle)

/-- The housekeeping converters (R394 to R409): a trigger starts a pass, is held during a calibration run and overruns during a pass; an injected
trigger queues its entries or overruns; a conversion with the outputs of its profile writes its result with rolling number, marks and state; a calibration run
ends with new corrections that wait for the next pass; excitation is applied once committed.
Model's choices: assumption log 34. -/
def Obligations.ConvertersRunTheirSequences : Prop :=
  ∀ (s : State) (v : Via) (level : Nat) (c : Fin 2) (outputs : List Int) (e : Nat) (x : Nat × Nat),
    let h := s.conv c
    let p := h.profile c
    let u := s.takeIdle
    let w := (Opened v s).takeIdle
    let held : State := { u with hka := { u.hka with trigHeld := true } }
    (u.hkaNum 0x01 = 1 → u.hkaNum 0x06 ≠ 7 ∨ s.anyLaunching = true → s.hkaRuns = true →
      (s.hka.passing = true → exec .sequencePassStart s = .next (u.bump 0x1800 0x11 1).settle) ∧
      (s.hka.passing = false → s.hka.calRunning = true → exec .sequencePassStart s = .next held.settle) ∧
      (s.hka.passing = false → s.hka.calRunning = false → exec .sequencePassStart s = .next u.startPass.settle)) ∧
    (u.hkaNum 0x01 = 2 → s.anyLaunching = true → exec .sequencePassStart s = .next u.settle) ∧
    (u.hkaNum 0x01 = 3 → u.hkaNum 0x06 = 7 → s.anyLaunching = false → exec .sequencePassStart s = .next u.injectTrigger.settle) ∧
    (s.hka.hka0.retired = false → s.startPass.hka.passing = true ∧ s.startPass.hka.trigHeld = false) ∧
    (Reaches s v level 0x1800 0x03 [1] → 2 ≤ level → s.mode ≠ 7 →
      (w.hkaNum 0x01 = 3 → Does (.sequenceRequest v) s w.hkaTrigger id) ∧
      (w.hkaNum 0x01 ≠ 3 → Does (.sequenceRequest v) s (Opened v s) id)) ∧
    (Reaches s v level 0x1800 0x08 [1] → 2 ≤ level → s.mode ≠ 7 →
      (w.hkaNum 0x06 = 0 → Does (.injectedTrigger (some v)) s w.injectTrigger id) ∧
      (w.hkaNum 0x06 ≠ 0 → Does (.injectedTrigger (some v)) s (Opened v s) id)) ∧
    (s.hkaRuns = true → s.hka.hka0.injectedBusy = true ∨ s.hka.hka1.injectedBusy = true →
      exec (.injectedTrigger none) s = .next (s.bump 0x1800 0x12 1).settle) ∧
    (s.hkaRuns = true → s.convGated c = false → h.job = .entry e → e < 64 → outputs.length = p.a →
      ∃ t, exec (.conversionComplete c outputs) s = .next t ∧ t.num (0x1820 + c.val) (e + 1) =
        hkaResult (s.num (0x1820 + c.val) (e + 1)) (h.correct (h.gain c) (rhuDiv (sumI outputs) p.a)) (s.unsettled c p) (fullScale outputs) (s.calHas c)) ∧
    (h.job = .idle ∨ s.convGated c = true ∨ outputs.length ≠ p.a → exec (.conversionComplete c outputs) s = .next s.settle) ∧
    (Reaches s v level 0x1850 0x03 [1] → 2 ≤ level → s.mode ≠ 7 → Does (.hkaCalibrationStart (some v)) s (Opened v s).requestCal id) ∧
    (s.hkaRuns = true → s.hka.calRunning = true →
      ∃ t, exec (.hkaCalibrationStart none) s = .next t ∧ t.hka.calHeld = true ∧ t.hka.calRunning = true) ∧
    (s.hkaRuns = true → s.hka.calRunning = false → exec (.hkaCalibrationStart none) s = .next s.startCal.settle) ∧
    (s.hka.calRunning = true → s.hka.hka0.calOver = true → s.hka.hka1.calOver = true →
      ∃ t, exec .hkaCalibrationComplete s = .next t ∧ t.num 0x1850 0x11 = incWrap (s.num 0x1850 0x11) 1 32 ∧
        (s.hka.calHeld = false → t.hka.calRunning = false) ∧
        (s.hka.trigHeld = false → s.hka.calHeld = false → h.retired = false →
          (t.conv c).corrNew = some (h.calNew, (h.corrNew.map (·.2)).getD [] ++ h.calGains) ∧ (t.conv c).corr = h.corr)) ∧
    (s.hka.calRunning = false → exec .hkaCalibrationComplete s = .next s.settle) ∧
    (s.hka.excitationDue = some x → s.hkaRuns = true → s.mode ≠ 7 →
      exec .excitationChange s = .next ({ s with hka := { s.hka with
        iexc := x, excitationDue := none, hka0 := s.hka.hka0.resetFilter s.cyc, hka1 := s.hka.hka1.resetFilter s.cyc } } : State).settle) ∧
    (s.hka.excitationDue = none ∨ s.mode = 7 → exec .excitationChange s = .next s.settle)
end

