-- ==== Sys2Proof/Laws/Map.lean ====
section
/-! SUPPORT. The laws of sparse maps and of the dictionary: what a read gives after a write or a removal, and that every
operation keeps the numbers strictly rising. -/

namespace Sys2Proof.Machine

open Sys2Proof

section
variable {α : Type}

@[simp] theorem mapGet_nil (k : Nat) : mapGet ([] : Map α) k = none := rfl

@[simp] theorem mapGet_cons (j : Nat) (v : α) (t : Map α) (k : Nat) :
    mapGet ((j, v) :: t) k = if j = k then some v else mapGet t k := rfl

theorem mapGet_mapSet (m : Map α) (k : Nat) (v : α) (j : Nat) :
    mapGet (mapSet m k v) j = if k = j then some v else mapGet m j := by
  induction m with
  | nil => simp [mapSet]
  | cons e t ih =>
    obtain ⟨i, w⟩ := e
    simp only [mapSet]
    split
    · simp
    · split
      · subst_vars; by_cases h : i = j <;> simp [h]
      · simp only [mapGet_cons, ih]
        by_cases h : i = j
        · subst h; simp [show k ≠ i by omega]
        · simp [h]

theorem mapGet_mapDel (m : Map α) (k j : Nat) : mapGet (mapDel m k) j = if k = j then none else mapGet m j := by
  induction m with
  | nil => simp [mapDel]
  | cons e t ih =>
    obtain ⟨i, w⟩ := e
    simp only [mapDel] at ih ⊢
    by_cases h : i = k
    · subst h
      simp only [List.filter_cons, bne_self_eq_false, Bool.false_eq_true, if_false, ih, mapGet_cons]
      split <;> rfl
    · rw [List.filter_cons_of_pos (by simpa using h)]
      simp only [mapGet_cons, ih]
      by_cases hj : i = j
      · subst hj; simp [Ne.symm h]
      · simp [hj]

/-- Every number of a rising map lies above a bound below its first. -/
theorem mapRising_cons (j : Nat) (v : α) (t : Map α) :
    mapRising ((j, v) :: t) = true ↔ (∀ e ∈ t, j < e.1) ∧ mapRising t = true := by
  induction t generalizing j v with
  | nil => simp [mapRising]
  | cons e t ih =>
    obtain ⟨k, w⟩ := e
    simp only [mapRising, Bool.and_eq_true, decide_eq_true_eq, List.mem_cons, forall_eq_or_imp]
    constructor
    · rintro ⟨h, hr⟩
      refine ⟨⟨h, fun e he => ?_⟩, hr⟩
      exact Nat.lt_trans h (((ih k w).1 hr).1 e he)
    · rintro ⟨⟨h, -⟩, hr⟩; exact ⟨h, hr⟩

theorem mem_mapSet (m : Map α) (k : Nat) (v : α) (e : Nat × α) (h : e ∈ mapSet m k v) : e.1 = k ∨ e ∈ m := by
  induction m with
  | nil => simp [mapSet] at h; simp [h]
  | cons d t ih =>
    obtain ⟨i, w⟩ := d
    simp only [mapSet] at h
    split at h
    · rcases List.mem_cons.1 h with h | h
      · simp [h]
      · exact .inr h
    · split at h
      · rcases List.mem_cons.1 h with h | h
        · simp [h]
        · exact .inr (List.mem_cons_of_mem _ h)
      · rcases List.mem_cons.1 h with h | h
        · exact .inr (by simp [h])
        · rcases ih h with h | h
          · exact .inl h
          · exact .inr (List.mem_cons_of_mem _ h)

theorem mapRising_mapSet (m : Map α) (k : Nat) (v : α) (h : mapRising m = true) : mapRising (mapSet m k v) = true := by
  induction m with
  | nil => rfl
  | cons d t ih =>
    obtain ⟨i, w⟩ := d
    obtain ⟨h1, h2⟩ := (mapRising_cons i w t).1 h
    simp only [mapSet]
    split
    · next hk =>
      refine (mapRising_cons _ _ _).2 ⟨?_, h⟩
      rintro e he
      rcases List.mem_cons.1 he with rfl | he
      · exact hk
      · exact Nat.lt_trans hk (h1 e he)
    · split
      · next hk => subst hk; exact (mapRising_cons _ _ _).2 ⟨h1, h2⟩
      · refine (mapRising_cons _ _ _).2 ⟨?_, ih h2⟩
        rintro e he
        rcases mem_mapSet t k v e he with h | h
        · omega
        · exact h1 e h

theorem mapRising_mapDel (m : Map α) (k : Nat) (h : mapRising m = true) : mapRising (mapDel m k) = true := by
  induction m with
  | nil => rfl
  | cons d t ih =>
    obtain ⟨i, w⟩ := d
    obtain ⟨h1, h2⟩ := (mapRising_cons i w t).1 h
    simp only [mapDel, List.filter_cons] at ih ⊢
    split
    · refine (mapRising_cons _ _ _).2 ⟨?_, ih h2⟩
      intro e he
      exact h1 e (List.mem_of_mem_filter he)
    · exact ih h2

end

/-! ### The dictionary -/

@[simp] theorem dictGet_dictSet (d : Dict) (k : Nat) (v : Val) (j : Nat) :
    dictGet (dictSet d k v) j = if k = j then v else dictGet d j := by
  unfold dictGet dictSet
  split
  · next h =>
    rw [mapGet_mapDel]
    by_cases hj : k = j
    · subst hj; simp [h]
    · simp [hj]
  · rw [mapGet_mapSet]
    by_cases hj : k = j <;> simp [hj]

theorem mapRising_dictSet (d : Dict) (k : Nat) (v : Val) (h : mapRising d = true) : mapRising (dictSet d k v) = true := by
  unfold dictSet
  split
  · exact mapRising_mapDel d k h
  · exact mapRising_mapSet d k v h

theorem dictNum_dictSet (d : Dict) (k n idx sub : Nat) :
    dictNum (dictSet d k (.num n)) idx sub = if k = objKey idx sub then n else dictNum d idx sub := by
  unfold dictNum
  rw [dictGet_dictSet]
  split <;> rfl

@[simp] theorem State.val_setVal (s : State) (k : Nat) (v : Val) (j : Nat) :
    (s.setVal k v).val j = if k = j then v else s.val j := dictGet_dictSet s.od k v j

@[simp] theorem State.num_put (s : State) (i j n idx sub : Nat) :
    (s.put i j n).num idx sub = if objKey i j = objKey idx sub then n else s.num idx sub := dictNum_dictSet s.od _ n idx sub

/-- Reading a vector after setting one place. -/
theorem vget_set {α : Type} {n : Nat} (v : Vector α n) (i : Nat) (hi : i < n) (j : Fin n) (x : α) :
    (v.set i x hi).get j = if i = j.val then x else v.get j := by
  show (v.set i x hi)[j.val] = _
  rw [Vector.getElem_set]; rfl

end Sys2Proof.Machine
end

