-- ==== Sys2Proof/Laws/State.lean ====
section
/-! SUPPORT. The laws of the state's updates: one per field and update, so that no later proof unfolds a record update, and
what a route and a number of the dictionary read after them. -/

namespace Sys2Proof.Machine

open Sys2Proof


/-! A value of the dictionary set -/

@[simp] theorem State.setVal_pending (s : State) (k : Nat) (v : Val) : (s.setVal k v).pending = s.pending := rfl
@[simp] theorem State.setVal_free (s : State) (k : Nat) (v : Val) : (s.setVal k v).free = s.free := rfl
@[simp] theorem State.setVal_out (s : State) (k : Nat) (v : Val) : (s.setVal k v).out = s.out := rfl
@[simp] theorem State.setVal_control (s : State) (k : Nat) (v : Val) : (s.setVal k v).control = s.control := rfl
@[simp] theorem State.setVal_power (s : State) (k : Nat) (v : Val) : (s.setVal k v).power = s.power := rfl
@[simp] theorem State.setVal_pins (s : State) (k : Nat) (v : Val) : (s.setVal k v).pins = s.pins := rfl
@[simp] theorem State.setVal_arbiter (s : State) (k : Nat) (v : Val) : (s.setVal k v).arbiter = s.arbiter := rfl
@[simp] theorem State.setVal_integrity (s : State) (k : Nat) (v : Val) : (s.setVal k v).integrity = s.integrity := rfl
@[simp] theorem State.setVal_jtag (s : State) (k : Nat) (v : Val) : (s.setVal k v).jtag = s.jtag := rfl
@[simp] theorem State.setVal_routeA (s : State) (k : Nat) (v : Val) : (s.setVal k v).routeA = s.routeA := rfl
@[simp] theorem State.setVal_routeB (s : State) (k : Nat) (v : Val) : (s.setVal k v).routeB = s.routeB := rfl
@[simp] theorem State.setVal_slices (s : State) (k : Nat) (v : Val) : (s.setVal k v).slices = s.slices := rfl
@[simp] theorem State.setVal_loop (s : State) (k : Nat) (v : Val) : (s.setVal k v).loop = s.loop := rfl
@[simp] theorem State.setVal_survey (s : State) (k : Nat) (v : Val) : (s.setVal k v).survey = s.survey := rfl
@[simp] theorem State.setVal_cores (s : State) (k : Nat) (v : Val) : (s.setVal k v).cores = s.cores := rfl
@[simp] theorem State.setVal_capture (s : State) (k : Nat) (v : Val) : (s.setVal k v).capture = s.capture := rfl
@[simp] theorem State.setVal_streams (s : State) (k : Nat) (v : Val) : (s.setVal k v).streams = s.streams := rfl
@[simp] theorem State.setVal_time (s : State) (k : Nat) (v : Val) : (s.setVal k v).time = s.time := rfl
@[simp] theorem State.setVal_ptp (s : State) (k : Nat) (v : Val) : (s.setVal k v).ptp = s.ptp := rfl
@[simp] theorem State.setVal_sync (s : State) (k : Nat) (v : Val) : (s.setVal k v).sync = s.sync := rfl
@[simp] theorem State.setVal_inputs (s : State) (k : Nat) (v : Val) : (s.setVal k v).inputs = s.inputs := rfl
@[simp] theorem State.setVal_trigIn (s : State) (k : Nat) (v : Val) : (s.setVal k v).trigIn = s.trigIn := rfl
@[simp] theorem State.setVal_dram (s : State) (k : Nat) (v : Val) : (s.setVal k v).dram = s.dram := rfl
@[simp] theorem State.setVal_rows (s : State) (k : Nat) (v : Val) : (s.setVal k v).rows = s.rows := rfl
@[simp] theorem State.setVal_hka (s : State) (k : Nat) (v : Val) : (s.setVal k v).hka = s.hka := rfl

/-! A number set -/

@[simp] theorem State.put_pending (s : State) (i j n : Nat) : (s.put i j n).pending = s.pending := rfl
@[simp] theorem State.put_free (s : State) (i j n : Nat) : (s.put i j n).free = s.free := rfl
@[simp] theorem State.put_out (s : State) (i j n : Nat) : (s.put i j n).out = s.out := rfl
@[simp] theorem State.put_control (s : State) (i j n : Nat) : (s.put i j n).control = s.control := rfl
@[simp] theorem State.put_power (s : State) (i j n : Nat) : (s.put i j n).power = s.power := rfl
@[simp] theorem State.put_pins (s : State) (i j n : Nat) : (s.put i j n).pins = s.pins := rfl
@[simp] theorem State.put_arbiter (s : State) (i j n : Nat) : (s.put i j n).arbiter = s.arbiter := rfl
@[simp] theorem State.put_integrity (s : State) (i j n : Nat) : (s.put i j n).integrity = s.integrity := rfl
@[simp] theorem State.put_jtag (s : State) (i j n : Nat) : (s.put i j n).jtag = s.jtag := rfl
@[simp] theorem State.put_routeA (s : State) (i j n : Nat) : (s.put i j n).routeA = s.routeA := rfl
@[simp] theorem State.put_routeB (s : State) (i j n : Nat) : (s.put i j n).routeB = s.routeB := rfl
@[simp] theorem State.put_slices (s : State) (i j n : Nat) : (s.put i j n).slices = s.slices := rfl
@[simp] theorem State.put_loop (s : State) (i j n : Nat) : (s.put i j n).loop = s.loop := rfl
@[simp] theorem State.put_survey (s : State) (i j n : Nat) : (s.put i j n).survey = s.survey := rfl
@[simp] theorem State.put_cores (s : State) (i j n : Nat) : (s.put i j n).cores = s.cores := rfl
@[simp] theorem State.put_capture (s : State) (i j n : Nat) : (s.put i j n).capture = s.capture := rfl
@[simp] theorem State.put_streams (s : State) (i j n : Nat) : (s.put i j n).streams = s.streams := rfl
@[simp] theorem State.put_time (s : State) (i j n : Nat) : (s.put i j n).time = s.time := rfl
@[simp] theorem State.put_ptp (s : State) (i j n : Nat) : (s.put i j n).ptp = s.ptp := rfl
@[simp] theorem State.put_sync (s : State) (i j n : Nat) : (s.put i j n).sync = s.sync := rfl
@[simp] theorem State.put_inputs (s : State) (i j n : Nat) : (s.put i j n).inputs = s.inputs := rfl
@[simp] theorem State.put_trigIn (s : State) (i j n : Nat) : (s.put i j n).trigIn = s.trigIn := rfl
@[simp] theorem State.put_dram (s : State) (i j n : Nat) : (s.put i j n).dram = s.dram := rfl
@[simp] theorem State.put_rows (s : State) (i j n : Nat) : (s.put i j n).rows = s.rows := rfl
@[simp] theorem State.put_hka (s : State) (i j n : Nat) : (s.put i j n).hka = s.hka := rfl

/-! A signed number set -/

@[simp] theorem State.putI_pending (s : State) (i j w : Nat) (x : Int) : (s.putI i j w x).pending = s.pending := rfl
@[simp] theorem State.putI_free (s : State) (i j w : Nat) (x : Int) : (s.putI i j w x).free = s.free := rfl
@[simp] theorem State.putI_out (s : State) (i j w : Nat) (x : Int) : (s.putI i j w x).out = s.out := rfl
@[simp] theorem State.putI_control (s : State) (i j w : Nat) (x : Int) : (s.putI i j w x).control = s.control := rfl
@[simp] theorem State.putI_power (s : State) (i j w : Nat) (x : Int) : (s.putI i j w x).power = s.power := rfl
@[simp] theorem State.putI_pins (s : State) (i j w : Nat) (x : Int) : (s.putI i j w x).pins = s.pins := rfl
@[simp] theorem State.putI_arbiter (s : State) (i j w : Nat) (x : Int) : (s.putI i j w x).arbiter = s.arbiter := rfl
@[simp] theorem State.putI_integrity (s : State) (i j w : Nat) (x : Int) : (s.putI i j w x).integrity = s.integrity := rfl
@[simp] theorem State.putI_jtag (s : State) (i j w : Nat) (x : Int) : (s.putI i j w x).jtag = s.jtag := rfl
@[simp] theorem State.putI_routeA (s : State) (i j w : Nat) (x : Int) : (s.putI i j w x).routeA = s.routeA := rfl
@[simp] theorem State.putI_routeB (s : State) (i j w : Nat) (x : Int) : (s.putI i j w x).routeB = s.routeB := rfl
@[simp] theorem State.putI_slices (s : State) (i j w : Nat) (x : Int) : (s.putI i j w x).slices = s.slices := rfl
@[simp] theorem State.putI_loop (s : State) (i j w : Nat) (x : Int) : (s.putI i j w x).loop = s.loop := rfl
@[simp] theorem State.putI_survey (s : State) (i j w : Nat) (x : Int) : (s.putI i j w x).survey = s.survey := rfl
@[simp] theorem State.putI_cores (s : State) (i j w : Nat) (x : Int) : (s.putI i j w x).cores = s.cores := rfl
@[simp] theorem State.putI_capture (s : State) (i j w : Nat) (x : Int) : (s.putI i j w x).capture = s.capture := rfl
@[simp] theorem State.putI_streams (s : State) (i j w : Nat) (x : Int) : (s.putI i j w x).streams = s.streams := rfl
@[simp] theorem State.putI_time (s : State) (i j w : Nat) (x : Int) : (s.putI i j w x).time = s.time := rfl
@[simp] theorem State.putI_ptp (s : State) (i j w : Nat) (x : Int) : (s.putI i j w x).ptp = s.ptp := rfl
@[simp] theorem State.putI_sync (s : State) (i j w : Nat) (x : Int) : (s.putI i j w x).sync = s.sync := rfl
@[simp] theorem State.putI_inputs (s : State) (i j w : Nat) (x : Int) : (s.putI i j w x).inputs = s.inputs := rfl
@[simp] theorem State.putI_trigIn (s : State) (i j w : Nat) (x : Int) : (s.putI i j w x).trigIn = s.trigIn := rfl
@[simp] theorem State.putI_dram (s : State) (i j w : Nat) (x : Int) : (s.putI i j w x).dram = s.dram := rfl
@[simp] theorem State.putI_rows (s : State) (i j w : Nat) (x : Int) : (s.putI i j w x).rows = s.rows := rfl
@[simp] theorem State.putI_hka (s : State) (i j w : Nat) (x : Int) : (s.putI i j w x).hka = s.hka := rfl

/-! A block set -/

@[simp] theorem State.putB_pending (s : State) (i j : Nat) (b : Bytes) : (s.putB i j b).pending = s.pending := rfl
@[simp] theorem State.putB_free (s : State) (i j : Nat) (b : Bytes) : (s.putB i j b).free = s.free := rfl
@[simp] theorem State.putB_out (s : State) (i j : Nat) (b : Bytes) : (s.putB i j b).out = s.out := rfl
@[simp] theorem State.putB_control (s : State) (i j : Nat) (b : Bytes) : (s.putB i j b).control = s.control := rfl
@[simp] theorem State.putB_power (s : State) (i j : Nat) (b : Bytes) : (s.putB i j b).power = s.power := rfl
@[simp] theorem State.putB_pins (s : State) (i j : Nat) (b : Bytes) : (s.putB i j b).pins = s.pins := rfl
@[simp] theorem State.putB_arbiter (s : State) (i j : Nat) (b : Bytes) : (s.putB i j b).arbiter = s.arbiter := rfl
@[simp] theorem State.putB_integrity (s : State) (i j : Nat) (b : Bytes) : (s.putB i j b).integrity = s.integrity := rfl
@[simp] theorem State.putB_jtag (s : State) (i j : Nat) (b : Bytes) : (s.putB i j b).jtag = s.jtag := rfl
@[simp] theorem State.putB_routeA (s : State) (i j : Nat) (b : Bytes) : (s.putB i j b).routeA = s.routeA := rfl
@[simp] theorem State.putB_routeB (s : State) (i j : Nat) (b : Bytes) : (s.putB i j b).routeB = s.routeB := rfl
@[simp] theorem State.putB_slices (s : State) (i j : Nat) (b : Bytes) : (s.putB i j b).slices = s.slices := rfl
@[simp] theorem State.putB_loop (s : State) (i j : Nat) (b : Bytes) : (s.putB i j b).loop = s.loop := rfl
@[simp] theorem State.putB_survey (s : State) (i j : Nat) (b : Bytes) : (s.putB i j b).survey = s.survey := rfl
@[simp] theorem State.putB_cores (s : State) (i j : Nat) (b : Bytes) : (s.putB i j b).cores = s.cores := rfl
@[simp] theorem State.putB_capture (s : State) (i j : Nat) (b : Bytes) : (s.putB i j b).capture = s.capture := rfl
@[simp] theorem State.putB_streams (s : State) (i j : Nat) (b : Bytes) : (s.putB i j b).streams = s.streams := rfl
@[simp] theorem State.putB_time (s : State) (i j : Nat) (b : Bytes) : (s.putB i j b).time = s.time := rfl
@[simp] theorem State.putB_ptp (s : State) (i j : Nat) (b : Bytes) : (s.putB i j b).ptp = s.ptp := rfl
@[simp] theorem State.putB_sync (s : State) (i j : Nat) (b : Bytes) : (s.putB i j b).sync = s.sync := rfl
@[simp] theorem State.putB_inputs (s : State) (i j : Nat) (b : Bytes) : (s.putB i j b).inputs = s.inputs := rfl
@[simp] theorem State.putB_trigIn (s : State) (i j : Nat) (b : Bytes) : (s.putB i j b).trigIn = s.trigIn := rfl
@[simp] theorem State.putB_dram (s : State) (i j : Nat) (b : Bytes) : (s.putB i j b).dram = s.dram := rfl
@[simp] theorem State.putB_rows (s : State) (i j : Nat) (b : Bytes) : (s.putB i j b).rows = s.rows := rfl
@[simp] theorem State.putB_hka (s : State) (i j : Nat) (b : Bytes) : (s.putB i j b).hka = s.hka := rfl

/-! A count advanced -/

@[simp] theorem State.bump_pending (s : State) (i j k : Nat) : (s.bump i j k).pending = s.pending := rfl
@[simp] theorem State.bump_free (s : State) (i j k : Nat) : (s.bump i j k).free = s.free := rfl
@[simp] theorem State.bump_out (s : State) (i j k : Nat) : (s.bump i j k).out = s.out := rfl
@[simp] theorem State.bump_control (s : State) (i j k : Nat) : (s.bump i j k).control = s.control := rfl
@[simp] theorem State.bump_power (s : State) (i j k : Nat) : (s.bump i j k).power = s.power := rfl
@[simp] theorem State.bump_pins (s : State) (i j k : Nat) : (s.bump i j k).pins = s.pins := rfl
@[simp] theorem State.bump_arbiter (s : State) (i j k : Nat) : (s.bump i j k).arbiter = s.arbiter := rfl
@[simp] theorem State.bump_integrity (s : State) (i j k : Nat) : (s.bump i j k).integrity = s.integrity := rfl
@[simp] theorem State.bump_jtag (s : State) (i j k : Nat) : (s.bump i j k).jtag = s.jtag := rfl
@[simp] theorem State.bump_routeA (s : State) (i j k : Nat) : (s.bump i j k).routeA = s.routeA := rfl
@[simp] theorem State.bump_routeB (s : State) (i j k : Nat) : (s.bump i j k).routeB = s.routeB := rfl
@[simp] theorem State.bump_slices (s : State) (i j k : Nat) : (s.bump i j k).slices = s.slices := rfl
@[simp] theorem State.bump_loop (s : State) (i j k : Nat) : (s.bump i j k).loop = s.loop := rfl
@[simp] theorem State.bump_survey (s : State) (i j k : Nat) : (s.bump i j k).survey = s.survey := rfl
@[simp] theorem State.bump_cores (s : State) (i j k : Nat) : (s.bump i j k).cores = s.cores := rfl
@[simp] theorem State.bump_capture (s : State) (i j k : Nat) : (s.bump i j k).capture = s.capture := rfl
@[simp] theorem State.bump_streams (s : State) (i j k : Nat) : (s.bump i j k).streams = s.streams := rfl
@[simp] theorem State.bump_time (s : State) (i j k : Nat) : (s.bump i j k).time = s.time := rfl
@[simp] theorem State.bump_ptp (s : State) (i j k : Nat) : (s.bump i j k).ptp = s.ptp := rfl
@[simp] theorem State.bump_sync (s : State) (i j k : Nat) : (s.bump i j k).sync = s.sync := rfl
@[simp] theorem State.bump_inputs (s : State) (i j k : Nat) : (s.bump i j k).inputs = s.inputs := rfl
@[simp] theorem State.bump_trigIn (s : State) (i j k : Nat) : (s.bump i j k).trigIn = s.trigIn := rfl
@[simp] theorem State.bump_dram (s : State) (i j k : Nat) : (s.bump i j k).dram = s.dram := rfl
@[simp] theorem State.bump_rows (s : State) (i j k : Nat) : (s.bump i j k).rows = s.rows := rfl
@[simp] theorem State.bump_hka (s : State) (i j k : Nat) : (s.bump i j k).hka = s.hka := rfl

/-! A bit set or cleared -/

@[simp] theorem State.putBit_pending (s : State) (i j k : Nat) (b : Bool) : (s.putBit i j k b).pending = s.pending := rfl
@[simp] theorem State.putBit_free (s : State) (i j k : Nat) (b : Bool) : (s.putBit i j k b).free = s.free := rfl
@[simp] theorem State.putBit_out (s : State) (i j k : Nat) (b : Bool) : (s.putBit i j k b).out = s.out := rfl
@[simp] theorem State.putBit_control (s : State) (i j k : Nat) (b : Bool) : (s.putBit i j k b).control = s.control := rfl
@[simp] theorem State.putBit_power (s : State) (i j k : Nat) (b : Bool) : (s.putBit i j k b).power = s.power := rfl
@[simp] theorem State.putBit_pins (s : State) (i j k : Nat) (b : Bool) : (s.putBit i j k b).pins = s.pins := rfl
@[simp] theorem State.putBit_arbiter (s : State) (i j k : Nat) (b : Bool) : (s.putBit i j k b).arbiter = s.arbiter := rfl
@[simp] theorem State.putBit_integrity (s : State) (i j k : Nat) (b : Bool) : (s.putBit i j k b).integrity = s.integrity := rfl
@[simp] theorem State.putBit_jtag (s : State) (i j k : Nat) (b : Bool) : (s.putBit i j k b).jtag = s.jtag := rfl
@[simp] theorem State.putBit_routeA (s : State) (i j k : Nat) (b : Bool) : (s.putBit i j k b).routeA = s.routeA := rfl
@[simp] theorem State.putBit_routeB (s : State) (i j k : Nat) (b : Bool) : (s.putBit i j k b).routeB = s.routeB := rfl
@[simp] theorem State.putBit_slices (s : State) (i j k : Nat) (b : Bool) : (s.putBit i j k b).slices = s.slices := rfl
@[simp] theorem State.putBit_loop (s : State) (i j k : Nat) (b : Bool) : (s.putBit i j k b).loop = s.loop := rfl
@[simp] theorem State.putBit_survey (s : State) (i j k : Nat) (b : Bool) : (s.putBit i j k b).survey = s.survey := rfl
@[simp] theorem State.putBit_cores (s : State) (i j k : Nat) (b : Bool) : (s.putBit i j k b).cores = s.cores := rfl
@[simp] theorem State.putBit_capture (s : State) (i j k : Nat) (b : Bool) : (s.putBit i j k b).capture = s.capture := rfl
@[simp] theorem State.putBit_streams (s : State) (i j k : Nat) (b : Bool) : (s.putBit i j k b).streams = s.streams := rfl
@[simp] theorem State.putBit_time (s : State) (i j k : Nat) (b : Bool) : (s.putBit i j k b).time = s.time := rfl
@[simp] theorem State.putBit_ptp (s : State) (i j k : Nat) (b : Bool) : (s.putBit i j k b).ptp = s.ptp := rfl
@[simp] theorem State.putBit_sync (s : State) (i j k : Nat) (b : Bool) : (s.putBit i j k b).sync = s.sync := rfl
@[simp] theorem State.putBit_inputs (s : State) (i j k : Nat) (b : Bool) : (s.putBit i j k b).inputs = s.inputs := rfl
@[simp] theorem State.putBit_trigIn (s : State) (i j k : Nat) (b : Bool) : (s.putBit i j k b).trigIn = s.trigIn := rfl
@[simp] theorem State.putBit_dram (s : State) (i j k : Nat) (b : Bool) : (s.putBit i j k b).dram = s.dram := rfl
@[simp] theorem State.putBit_rows (s : State) (i j k : Nat) (b : Bool) : (s.putBit i j k b).rows = s.rows := rfl
@[simp] theorem State.putBit_hka (s : State) (i j k : Nat) (b : Bool) : (s.putBit i j k b).hka = s.hka := rfl

/-! A message sent -/

@[simp] theorem State.emit_pending (s : State) (m : OutMsg) : (s.emit m).pending = s.pending := rfl
@[simp] theorem State.emit_free (s : State) (m : OutMsg) : (s.emit m).free = s.free := rfl
@[simp] theorem State.emit_od (s : State) (m : OutMsg) : (s.emit m).od = s.od := rfl
@[simp] theorem State.emit_control (s : State) (m : OutMsg) : (s.emit m).control = s.control := rfl
@[simp] theorem State.emit_power (s : State) (m : OutMsg) : (s.emit m).power = s.power := rfl
@[simp] theorem State.emit_pins (s : State) (m : OutMsg) : (s.emit m).pins = s.pins := rfl
@[simp] theorem State.emit_arbiter (s : State) (m : OutMsg) : (s.emit m).arbiter = s.arbiter := rfl
@[simp] theorem State.emit_integrity (s : State) (m : OutMsg) : (s.emit m).integrity = s.integrity := rfl
@[simp] theorem State.emit_jtag (s : State) (m : OutMsg) : (s.emit m).jtag = s.jtag := rfl
@[simp] theorem State.emit_routeA (s : State) (m : OutMsg) : (s.emit m).routeA = s.routeA := rfl
@[simp] theorem State.emit_routeB (s : State) (m : OutMsg) : (s.emit m).routeB = s.routeB := rfl
@[simp] theorem State.emit_slices (s : State) (m : OutMsg) : (s.emit m).slices = s.slices := rfl
@[simp] theorem State.emit_loop (s : State) (m : OutMsg) : (s.emit m).loop = s.loop := rfl
@[simp] theorem State.emit_survey (s : State) (m : OutMsg) : (s.emit m).survey = s.survey := rfl
@[simp] theorem State.emit_cores (s : State) (m : OutMsg) : (s.emit m).cores = s.cores := rfl
@[simp] theorem State.emit_capture (s : State) (m : OutMsg) : (s.emit m).capture = s.capture := rfl
@[simp] theorem State.emit_streams (s : State) (m : OutMsg) : (s.emit m).streams = s.streams := rfl
@[simp] theorem State.emit_time (s : State) (m : OutMsg) : (s.emit m).time = s.time := rfl
@[simp] theorem State.emit_ptp (s : State) (m : OutMsg) : (s.emit m).ptp = s.ptp := rfl
@[simp] theorem State.emit_sync (s : State) (m : OutMsg) : (s.emit m).sync = s.sync := rfl
@[simp] theorem State.emit_inputs (s : State) (m : OutMsg) : (s.emit m).inputs = s.inputs := rfl
@[simp] theorem State.emit_trigIn (s : State) (m : OutMsg) : (s.emit m).trigIn = s.trigIn := rfl
@[simp] theorem State.emit_dram (s : State) (m : OutMsg) : (s.emit m).dram = s.dram := rfl
@[simp] theorem State.emit_rows (s : State) (m : OutMsg) : (s.emit m).rows = s.rows := rfl
@[simp] theorem State.emit_hka (s : State) (m : OutMsg) : (s.emit m).hka = s.hka := rfl

/-! The outputs settled -/

@[simp] theorem State.settle_pending (s : State) : (s.settle).pending = s.pending := rfl
@[simp] theorem State.settle_free (s : State) : (s.settle).free = s.free := rfl
@[simp] theorem State.settle_out (s : State) : (s.settle).out = s.out := rfl
@[simp] theorem State.settle_od (s : State) : (s.settle).od = s.od := rfl
@[simp] theorem State.settle_control (s : State) : (s.settle).control = s.control := rfl
@[simp] theorem State.settle_power (s : State) : (s.settle).power = s.power := rfl
@[simp] theorem State.settle_arbiter (s : State) : (s.settle).arbiter = s.arbiter := rfl
@[simp] theorem State.settle_integrity (s : State) : (s.settle).integrity = s.integrity := rfl
@[simp] theorem State.settle_jtag (s : State) : (s.settle).jtag = s.jtag := rfl
@[simp] theorem State.settle_routeA (s : State) : (s.settle).routeA = s.routeA := rfl
@[simp] theorem State.settle_routeB (s : State) : (s.settle).routeB = s.routeB := rfl
@[simp] theorem State.settle_slices (s : State) : (s.settle).slices = s.slices := rfl
@[simp] theorem State.settle_loop (s : State) : (s.settle).loop = s.loop := rfl
@[simp] theorem State.settle_survey (s : State) : (s.settle).survey = s.survey := rfl
@[simp] theorem State.settle_cores (s : State) : (s.settle).cores = s.cores := rfl
@[simp] theorem State.settle_capture (s : State) : (s.settle).capture = s.capture := rfl
@[simp] theorem State.settle_streams (s : State) : (s.settle).streams = s.streams := rfl
@[simp] theorem State.settle_time (s : State) : (s.settle).time = s.time := rfl
@[simp] theorem State.settle_ptp (s : State) : (s.settle).ptp = s.ptp := rfl
@[simp] theorem State.settle_sync (s : State) : (s.settle).sync = s.sync := rfl
@[simp] theorem State.settle_inputs (s : State) : (s.settle).inputs = s.inputs := rfl
@[simp] theorem State.settle_trigIn (s : State) : (s.settle).trigIn = s.trigIn := rfl
@[simp] theorem State.settle_dram (s : State) : (s.settle).dram = s.dram := rfl
@[simp] theorem State.settle_rows (s : State) : (s.settle).rows = s.rows := rfl
@[simp] theorem State.settle_hka (s : State) : (s.settle).hka = s.hka := rfl

/-! A Forager core replaced -/

@[simp] theorem State.setCore_pending (s : State) (c : Fin 8) (x : Core) : (s.setCore c x).pending = s.pending := rfl
@[simp] theorem State.setCore_free (s : State) (c : Fin 8) (x : Core) : (s.setCore c x).free = s.free := rfl
@[simp] theorem State.setCore_out (s : State) (c : Fin 8) (x : Core) : (s.setCore c x).out = s.out := rfl
@[simp] theorem State.setCore_od (s : State) (c : Fin 8) (x : Core) : (s.setCore c x).od = s.od := rfl
@[simp] theorem State.setCore_control (s : State) (c : Fin 8) (x : Core) : (s.setCore c x).control = s.control := rfl
@[simp] theorem State.setCore_power (s : State) (c : Fin 8) (x : Core) : (s.setCore c x).power = s.power := rfl
@[simp] theorem State.setCore_pins (s : State) (c : Fin 8) (x : Core) : (s.setCore c x).pins = s.pins := rfl
@[simp] theorem State.setCore_arbiter (s : State) (c : Fin 8) (x : Core) : (s.setCore c x).arbiter = s.arbiter := rfl
@[simp] theorem State.setCore_integrity (s : State) (c : Fin 8) (x : Core) : (s.setCore c x).integrity = s.integrity := rfl
@[simp] theorem State.setCore_jtag (s : State) (c : Fin 8) (x : Core) : (s.setCore c x).jtag = s.jtag := rfl
@[simp] theorem State.setCore_routeA (s : State) (c : Fin 8) (x : Core) : (s.setCore c x).routeA = s.routeA := rfl
@[simp] theorem State.setCore_routeB (s : State) (c : Fin 8) (x : Core) : (s.setCore c x).routeB = s.routeB := rfl
@[simp] theorem State.setCore_slices (s : State) (c : Fin 8) (x : Core) : (s.setCore c x).slices = s.slices := rfl
@[simp] theorem State.setCore_loop (s : State) (c : Fin 8) (x : Core) : (s.setCore c x).loop = s.loop := rfl
@[simp] theorem State.setCore_survey (s : State) (c : Fin 8) (x : Core) : (s.setCore c x).survey = s.survey := rfl
@[simp] theorem State.setCore_capture (s : State) (c : Fin 8) (x : Core) : (s.setCore c x).capture = s.capture := rfl
@[simp] theorem State.setCore_streams (s : State) (c : Fin 8) (x : Core) : (s.setCore c x).streams = s.streams := rfl
@[simp] theorem State.setCore_time (s : State) (c : Fin 8) (x : Core) : (s.setCore c x).time = s.time := rfl
@[simp] theorem State.setCore_ptp (s : State) (c : Fin 8) (x : Core) : (s.setCore c x).ptp = s.ptp := rfl
@[simp] theorem State.setCore_sync (s : State) (c : Fin 8) (x : Core) : (s.setCore c x).sync = s.sync := rfl
@[simp] theorem State.setCore_inputs (s : State) (c : Fin 8) (x : Core) : (s.setCore c x).inputs = s.inputs := rfl
@[simp] theorem State.setCore_trigIn (s : State) (c : Fin 8) (x : Core) : (s.setCore c x).trigIn = s.trigIn := rfl
@[simp] theorem State.setCore_dram (s : State) (c : Fin 8) (x : Core) : (s.setCore c x).dram = s.dram := rfl
@[simp] theorem State.setCore_rows (s : State) (c : Fin 8) (x : Core) : (s.setCore c x).rows = s.rows := rfl
@[simp] theorem State.setCore_hka (s : State) (c : Fin 8) (x : Core) : (s.setCore c x).hka = s.hka := rfl

/-! A capture slot replaced -/

@[simp] theorem State.setSlot_pending (s : State) (k : Fin 8) (x : CapSlot) : (s.setSlot k x).pending = s.pending := rfl
@[simp] theorem State.setSlot_free (s : State) (k : Fin 8) (x : CapSlot) : (s.setSlot k x).free = s.free := rfl
@[simp] theorem State.setSlot_out (s : State) (k : Fin 8) (x : CapSlot) : (s.setSlot k x).out = s.out := rfl
@[simp] theorem State.setSlot_od (s : State) (k : Fin 8) (x : CapSlot) : (s.setSlot k x).od = s.od := rfl
@[simp] theorem State.setSlot_control (s : State) (k : Fin 8) (x : CapSlot) : (s.setSlot k x).control = s.control := rfl
@[simp] theorem State.setSlot_power (s : State) (k : Fin 8) (x : CapSlot) : (s.setSlot k x).power = s.power := rfl
@[simp] theorem State.setSlot_pins (s : State) (k : Fin 8) (x : CapSlot) : (s.setSlot k x).pins = s.pins := rfl
@[simp] theorem State.setSlot_arbiter (s : State) (k : Fin 8) (x : CapSlot) : (s.setSlot k x).arbiter = s.arbiter := rfl
@[simp] theorem State.setSlot_integrity (s : State) (k : Fin 8) (x : CapSlot) : (s.setSlot k x).integrity = s.integrity := rfl
@[simp] theorem State.setSlot_jtag (s : State) (k : Fin 8) (x : CapSlot) : (s.setSlot k x).jtag = s.jtag := rfl
@[simp] theorem State.setSlot_routeA (s : State) (k : Fin 8) (x : CapSlot) : (s.setSlot k x).routeA = s.routeA := rfl
@[simp] theorem State.setSlot_routeB (s : State) (k : Fin 8) (x : CapSlot) : (s.setSlot k x).routeB = s.routeB := rfl
@[simp] theorem State.setSlot_slices (s : State) (k : Fin 8) (x : CapSlot) : (s.setSlot k x).slices = s.slices := rfl
@[simp] theorem State.setSlot_loop (s : State) (k : Fin 8) (x : CapSlot) : (s.setSlot k x).loop = s.loop := rfl
@[simp] theorem State.setSlot_survey (s : State) (k : Fin 8) (x : CapSlot) : (s.setSlot k x).survey = s.survey := rfl
@[simp] theorem State.setSlot_cores (s : State) (k : Fin 8) (x : CapSlot) : (s.setSlot k x).cores = s.cores := rfl
@[simp] theorem State.setSlot_streams (s : State) (k : Fin 8) (x : CapSlot) : (s.setSlot k x).streams = s.streams := rfl
@[simp] theorem State.setSlot_time (s : State) (k : Fin 8) (x : CapSlot) : (s.setSlot k x).time = s.time := rfl
@[simp] theorem State.setSlot_ptp (s : State) (k : Fin 8) (x : CapSlot) : (s.setSlot k x).ptp = s.ptp := rfl
@[simp] theorem State.setSlot_sync (s : State) (k : Fin 8) (x : CapSlot) : (s.setSlot k x).sync = s.sync := rfl
@[simp] theorem State.setSlot_inputs (s : State) (k : Fin 8) (x : CapSlot) : (s.setSlot k x).inputs = s.inputs := rfl
@[simp] theorem State.setSlot_trigIn (s : State) (k : Fin 8) (x : CapSlot) : (s.setSlot k x).trigIn = s.trigIn := rfl
@[simp] theorem State.setSlot_dram (s : State) (k : Fin 8) (x : CapSlot) : (s.setSlot k x).dram = s.dram := rfl
@[simp] theorem State.setSlot_rows (s : State) (k : Fin 8) (x : CapSlot) : (s.setSlot k x).rows = s.rows := rfl
@[simp] theorem State.setSlot_hka (s : State) (k : Fin 8) (x : CapSlot) : (s.setSlot k x).hka = s.hka := rfl

/-! A control lane set -/

@[simp] theorem State.setLane_pending (s : State) (l : Fin 8) (c : Nat) : (s.setLane l c).pending = s.pending := rfl
@[simp] theorem State.setLane_free (s : State) (l : Fin 8) (c : Nat) : (s.setLane l c).free = s.free := rfl
@[simp] theorem State.setLane_out (s : State) (l : Fin 8) (c : Nat) : (s.setLane l c).out = s.out := rfl
@[simp] theorem State.setLane_od (s : State) (l : Fin 8) (c : Nat) : (s.setLane l c).od = s.od := rfl
@[simp] theorem State.setLane_control (s : State) (l : Fin 8) (c : Nat) : (s.setLane l c).control = s.control := rfl
@[simp] theorem State.setLane_power (s : State) (l : Fin 8) (c : Nat) : (s.setLane l c).power = s.power := rfl
@[simp] theorem State.setLane_arbiter (s : State) (l : Fin 8) (c : Nat) : (s.setLane l c).arbiter = s.arbiter := rfl
@[simp] theorem State.setLane_integrity (s : State) (l : Fin 8) (c : Nat) : (s.setLane l c).integrity = s.integrity := rfl
@[simp] theorem State.setLane_jtag (s : State) (l : Fin 8) (c : Nat) : (s.setLane l c).jtag = s.jtag := rfl
@[simp] theorem State.setLane_routeA (s : State) (l : Fin 8) (c : Nat) : (s.setLane l c).routeA = s.routeA := rfl
@[simp] theorem State.setLane_routeB (s : State) (l : Fin 8) (c : Nat) : (s.setLane l c).routeB = s.routeB := rfl
@[simp] theorem State.setLane_slices (s : State) (l : Fin 8) (c : Nat) : (s.setLane l c).slices = s.slices := rfl
@[simp] theorem State.setLane_loop (s : State) (l : Fin 8) (c : Nat) : (s.setLane l c).loop = s.loop := rfl
@[simp] theorem State.setLane_survey (s : State) (l : Fin 8) (c : Nat) : (s.setLane l c).survey = s.survey := rfl
@[simp] theorem State.setLane_cores (s : State) (l : Fin 8) (c : Nat) : (s.setLane l c).cores = s.cores := rfl
@[simp] theorem State.setLane_capture (s : State) (l : Fin 8) (c : Nat) : (s.setLane l c).capture = s.capture := rfl
@[simp] theorem State.setLane_streams (s : State) (l : Fin 8) (c : Nat) : (s.setLane l c).streams = s.streams := rfl
@[simp] theorem State.setLane_time (s : State) (l : Fin 8) (c : Nat) : (s.setLane l c).time = s.time := rfl
@[simp] theorem State.setLane_ptp (s : State) (l : Fin 8) (c : Nat) : (s.setLane l c).ptp = s.ptp := rfl
@[simp] theorem State.setLane_sync (s : State) (l : Fin 8) (c : Nat) : (s.setLane l c).sync = s.sync := rfl
@[simp] theorem State.setLane_inputs (s : State) (l : Fin 8) (c : Nat) : (s.setLane l c).inputs = s.inputs := rfl
@[simp] theorem State.setLane_trigIn (s : State) (l : Fin 8) (c : Nat) : (s.setLane l c).trigIn = s.trigIn := rfl
@[simp] theorem State.setLane_dram (s : State) (l : Fin 8) (c : Nat) : (s.setLane l c).dram = s.dram := rfl
@[simp] theorem State.setLane_rows (s : State) (l : Fin 8) (c : Nat) : (s.setLane l c).rows = s.rows := rfl
@[simp] theorem State.setLane_hka (s : State) (l : Fin 8) (c : Nat) : (s.setLane l c).hka = s.hka := rfl

/-! The time unit updated -/

@[simp] theorem State.modTime_pending (s : State) (f : TimeUnit → TimeUnit) : (s.modTime f).pending = s.pending := rfl
@[simp] theorem State.modTime_free (s : State) (f : TimeUnit → TimeUnit) : (s.modTime f).free = s.free := rfl
@[simp] theorem State.modTime_out (s : State) (f : TimeUnit → TimeUnit) : (s.modTime f).out = s.out := rfl
@[simp] theorem State.modTime_od (s : State) (f : TimeUnit → TimeUnit) : (s.modTime f).od = s.od := rfl
@[simp] theorem State.modTime_control (s : State) (f : TimeUnit → TimeUnit) : (s.modTime f).control = s.control := rfl
@[simp] theorem State.modTime_power (s : State) (f : TimeUnit → TimeUnit) : (s.modTime f).power = s.power := rfl
@[simp] theorem State.modTime_pins (s : State) (f : TimeUnit → TimeUnit) : (s.modTime f).pins = s.pins := rfl
@[simp] theorem State.modTime_arbiter (s : State) (f : TimeUnit → TimeUnit) : (s.modTime f).arbiter = s.arbiter := rfl
@[simp] theorem State.modTime_integrity (s : State) (f : TimeUnit → TimeUnit) : (s.modTime f).integrity = s.integrity := rfl
@[simp] theorem State.modTime_jtag (s : State) (f : TimeUnit → TimeUnit) : (s.modTime f).jtag = s.jtag := rfl
@[simp] theorem State.modTime_routeA (s : State) (f : TimeUnit → TimeUnit) : (s.modTime f).routeA = s.routeA := rfl
@[simp] theorem State.modTime_routeB (s : State) (f : TimeUnit → TimeUnit) : (s.modTime f).routeB = s.routeB := rfl
@[simp] theorem State.modTime_slices (s : State) (f : TimeUnit → TimeUnit) : (s.modTime f).slices = s.slices := rfl
@[simp] theorem State.modTime_loop (s : State) (f : TimeUnit → TimeUnit) : (s.modTime f).loop = s.loop := rfl
@[simp] theorem State.modTime_survey (s : State) (f : TimeUnit → TimeUnit) : (s.modTime f).survey = s.survey := rfl
@[simp] theorem State.modTime_cores (s : State) (f : TimeUnit → TimeUnit) : (s.modTime f).cores = s.cores := rfl
@[simp] theorem State.modTime_capture (s : State) (f : TimeUnit → TimeUnit) : (s.modTime f).capture = s.capture := rfl
@[simp] theorem State.modTime_streams (s : State) (f : TimeUnit → TimeUnit) : (s.modTime f).streams = s.streams := rfl
@[simp] theorem State.modTime_ptp (s : State) (f : TimeUnit → TimeUnit) : (s.modTime f).ptp = s.ptp := rfl
@[simp] theorem State.modTime_sync (s : State) (f : TimeUnit → TimeUnit) : (s.modTime f).sync = s.sync := rfl
@[simp] theorem State.modTime_inputs (s : State) (f : TimeUnit → TimeUnit) : (s.modTime f).inputs = s.inputs := rfl
@[simp] theorem State.modTime_trigIn (s : State) (f : TimeUnit → TimeUnit) : (s.modTime f).trigIn = s.trigIn := rfl
@[simp] theorem State.modTime_dram (s : State) (f : TimeUnit → TimeUnit) : (s.modTime f).dram = s.dram := rfl
@[simp] theorem State.modTime_rows (s : State) (f : TimeUnit → TimeUnit) : (s.modTime f).rows = s.rows := rfl
@[simp] theorem State.modTime_hka (s : State) (f : TimeUnit → TimeUnit) : (s.modTime f).hka = s.hka := rfl

/-! The PTP port updated -/

@[simp] theorem State.modPtp_pending (s : State) (f : Ptp → Ptp) : (s.modPtp f).pending = s.pending := rfl
@[simp] theorem State.modPtp_free (s : State) (f : Ptp → Ptp) : (s.modPtp f).free = s.free := rfl
@[simp] theorem State.modPtp_out (s : State) (f : Ptp → Ptp) : (s.modPtp f).out = s.out := rfl
@[simp] theorem State.modPtp_od (s : State) (f : Ptp → Ptp) : (s.modPtp f).od = s.od := rfl
@[simp] theorem State.modPtp_control (s : State) (f : Ptp → Ptp) : (s.modPtp f).control = s.control := rfl
@[simp] theorem State.modPtp_power (s : State) (f : Ptp → Ptp) : (s.modPtp f).power = s.power := rfl
@[simp] theorem State.modPtp_pins (s : State) (f : Ptp → Ptp) : (s.modPtp f).pins = s.pins := rfl
@[simp] theorem State.modPtp_arbiter (s : State) (f : Ptp → Ptp) : (s.modPtp f).arbiter = s.arbiter := rfl
@[simp] theorem State.modPtp_integrity (s : State) (f : Ptp → Ptp) : (s.modPtp f).integrity = s.integrity := rfl
@[simp] theorem State.modPtp_jtag (s : State) (f : Ptp → Ptp) : (s.modPtp f).jtag = s.jtag := rfl
@[simp] theorem State.modPtp_routeA (s : State) (f : Ptp → Ptp) : (s.modPtp f).routeA = s.routeA := rfl
@[simp] theorem State.modPtp_routeB (s : State) (f : Ptp → Ptp) : (s.modPtp f).routeB = s.routeB := rfl
@[simp] theorem State.modPtp_slices (s : State) (f : Ptp → Ptp) : (s.modPtp f).slices = s.slices := rfl
@[simp] theorem State.modPtp_loop (s : State) (f : Ptp → Ptp) : (s.modPtp f).loop = s.loop := rfl
@[simp] theorem State.modPtp_survey (s : State) (f : Ptp → Ptp) : (s.modPtp f).survey = s.survey := rfl
@[simp] theorem State.modPtp_cores (s : State) (f : Ptp → Ptp) : (s.modPtp f).cores = s.cores := rfl
@[simp] theorem State.modPtp_capture (s : State) (f : Ptp → Ptp) : (s.modPtp f).capture = s.capture := rfl
@[simp] theorem State.modPtp_streams (s : State) (f : Ptp → Ptp) : (s.modPtp f).streams = s.streams := rfl
@[simp] theorem State.modPtp_time (s : State) (f : Ptp → Ptp) : (s.modPtp f).time = s.time := rfl
@[simp] theorem State.modPtp_sync (s : State) (f : Ptp → Ptp) : (s.modPtp f).sync = s.sync := rfl
@[simp] theorem State.modPtp_inputs (s : State) (f : Ptp → Ptp) : (s.modPtp f).inputs = s.inputs := rfl
@[simp] theorem State.modPtp_trigIn (s : State) (f : Ptp → Ptp) : (s.modPtp f).trigIn = s.trigIn := rfl
@[simp] theorem State.modPtp_dram (s : State) (f : Ptp → Ptp) : (s.modPtp f).dram = s.dram := rfl
@[simp] theorem State.modPtp_rows (s : State) (f : Ptp → Ptp) : (s.modPtp f).rows = s.rows := rfl
@[simp] theorem State.modPtp_hka (s : State) (f : Ptp → Ptp) : (s.modPtp f).hka = s.hka := rfl

/-! The SYNC unit updated -/

@[simp] theorem State.modSync_pending (s : State) (f : SyncBus → SyncBus) : (s.modSync f).pending = s.pending := rfl
@[simp] theorem State.modSync_free (s : State) (f : SyncBus → SyncBus) : (s.modSync f).free = s.free := rfl
@[simp] theorem State.modSync_out (s : State) (f : SyncBus → SyncBus) : (s.modSync f).out = s.out := rfl
@[simp] theorem State.modSync_od (s : State) (f : SyncBus → SyncBus) : (s.modSync f).od = s.od := rfl
@[simp] theorem State.modSync_control (s : State) (f : SyncBus → SyncBus) : (s.modSync f).control = s.control := rfl
@[simp] theorem State.modSync_power (s : State) (f : SyncBus → SyncBus) : (s.modSync f).power = s.power := rfl
@[simp] theorem State.modSync_pins (s : State) (f : SyncBus → SyncBus) : (s.modSync f).pins = s.pins := rfl
@[simp] theorem State.modSync_arbiter (s : State) (f : SyncBus → SyncBus) : (s.modSync f).arbiter = s.arbiter := rfl
@[simp] theorem State.modSync_integrity (s : State) (f : SyncBus → SyncBus) : (s.modSync f).integrity = s.integrity := rfl
@[simp] theorem State.modSync_jtag (s : State) (f : SyncBus → SyncBus) : (s.modSync f).jtag = s.jtag := rfl
@[simp] theorem State.modSync_routeA (s : State) (f : SyncBus → SyncBus) : (s.modSync f).routeA = s.routeA := rfl
@[simp] theorem State.modSync_routeB (s : State) (f : SyncBus → SyncBus) : (s.modSync f).routeB = s.routeB := rfl
@[simp] theorem State.modSync_slices (s : State) (f : SyncBus → SyncBus) : (s.modSync f).slices = s.slices := rfl
@[simp] theorem State.modSync_loop (s : State) (f : SyncBus → SyncBus) : (s.modSync f).loop = s.loop := rfl
@[simp] theorem State.modSync_survey (s : State) (f : SyncBus → SyncBus) : (s.modSync f).survey = s.survey := rfl
@[simp] theorem State.modSync_cores (s : State) (f : SyncBus → SyncBus) : (s.modSync f).cores = s.cores := rfl
@[simp] theorem State.modSync_capture (s : State) (f : SyncBus → SyncBus) : (s.modSync f).capture = s.capture := rfl
@[simp] theorem State.modSync_streams (s : State) (f : SyncBus → SyncBus) : (s.modSync f).streams = s.streams := rfl
@[simp] theorem State.modSync_time (s : State) (f : SyncBus → SyncBus) : (s.modSync f).time = s.time := rfl
@[simp] theorem State.modSync_ptp (s : State) (f : SyncBus → SyncBus) : (s.modSync f).ptp = s.ptp := rfl
@[simp] theorem State.modSync_inputs (s : State) (f : SyncBus → SyncBus) : (s.modSync f).inputs = s.inputs := rfl
@[simp] theorem State.modSync_trigIn (s : State) (f : SyncBus → SyncBus) : (s.modSync f).trigIn = s.trigIn := rfl
@[simp] theorem State.modSync_dram (s : State) (f : SyncBus → SyncBus) : (s.modSync f).dram = s.dram := rfl
@[simp] theorem State.modSync_rows (s : State) (f : SyncBus → SyncBus) : (s.modSync f).rows = s.rows := rfl
@[simp] theorem State.modSync_hka (s : State) (f : SyncBus → SyncBus) : (s.modSync f).hka = s.hka := rfl

/-! A memory channel updated -/

@[simp] theorem State.modDram_pending (s : State) (c : Fin 2) (f : Dram → Dram) : (s.modDram c f).pending = s.pending := rfl
@[simp] theorem State.modDram_free (s : State) (c : Fin 2) (f : Dram → Dram) : (s.modDram c f).free = s.free := rfl
@[simp] theorem State.modDram_out (s : State) (c : Fin 2) (f : Dram → Dram) : (s.modDram c f).out = s.out := rfl
@[simp] theorem State.modDram_od (s : State) (c : Fin 2) (f : Dram → Dram) : (s.modDram c f).od = s.od := rfl
@[simp] theorem State.modDram_control (s : State) (c : Fin 2) (f : Dram → Dram) : (s.modDram c f).control = s.control := rfl
@[simp] theorem State.modDram_power (s : State) (c : Fin 2) (f : Dram → Dram) : (s.modDram c f).power = s.power := rfl
@[simp] theorem State.modDram_pins (s : State) (c : Fin 2) (f : Dram → Dram) : (s.modDram c f).pins = s.pins := rfl
@[simp] theorem State.modDram_arbiter (s : State) (c : Fin 2) (f : Dram → Dram) : (s.modDram c f).arbiter = s.arbiter := rfl
@[simp] theorem State.modDram_integrity (s : State) (c : Fin 2) (f : Dram → Dram) : (s.modDram c f).integrity = s.integrity := rfl
@[simp] theorem State.modDram_jtag (s : State) (c : Fin 2) (f : Dram → Dram) : (s.modDram c f).jtag = s.jtag := rfl
@[simp] theorem State.modDram_routeA (s : State) (c : Fin 2) (f : Dram → Dram) : (s.modDram c f).routeA = s.routeA := rfl
@[simp] theorem State.modDram_routeB (s : State) (c : Fin 2) (f : Dram → Dram) : (s.modDram c f).routeB = s.routeB := rfl
@[simp] theorem State.modDram_slices (s : State) (c : Fin 2) (f : Dram → Dram) : (s.modDram c f).slices = s.slices := rfl
@[simp] theorem State.modDram_loop (s : State) (c : Fin 2) (f : Dram → Dram) : (s.modDram c f).loop = s.loop := rfl
@[simp] theorem State.modDram_survey (s : State) (c : Fin 2) (f : Dram → Dram) : (s.modDram c f).survey = s.survey := rfl
@[simp] theorem State.modDram_cores (s : State) (c : Fin 2) (f : Dram → Dram) : (s.modDram c f).cores = s.cores := rfl
@[simp] theorem State.modDram_capture (s : State) (c : Fin 2) (f : Dram → Dram) : (s.modDram c f).capture = s.capture := rfl
@[simp] theorem State.modDram_streams (s : State) (c : Fin 2) (f : Dram → Dram) : (s.modDram c f).streams = s.streams := rfl
@[simp] theorem State.modDram_time (s : State) (c : Fin 2) (f : Dram → Dram) : (s.modDram c f).time = s.time := rfl
@[simp] theorem State.modDram_ptp (s : State) (c : Fin 2) (f : Dram → Dram) : (s.modDram c f).ptp = s.ptp := rfl
@[simp] theorem State.modDram_sync (s : State) (c : Fin 2) (f : Dram → Dram) : (s.modDram c f).sync = s.sync := rfl
@[simp] theorem State.modDram_inputs (s : State) (c : Fin 2) (f : Dram → Dram) : (s.modDram c f).inputs = s.inputs := rfl
@[simp] theorem State.modDram_trigIn (s : State) (c : Fin 2) (f : Dram → Dram) : (s.modDram c f).trigIn = s.trigIn := rfl
@[simp] theorem State.modDram_rows (s : State) (c : Fin 2) (f : Dram → Dram) : (s.modDram c f).rows = s.rows := rfl
@[simp] theorem State.modDram_hka (s : State) (c : Fin 2) (f : Dram → Dram) : (s.modDram c f).hka = s.hka := rfl

/-! A time-stamp input updated -/

@[simp] theorem State.modInput_pending (s : State) (i : Fin 8) (f : TsInput → TsInput) : (s.modInput i f).pending = s.pending := rfl
@[simp] theorem State.modInput_free (s : State) (i : Fin 8) (f : TsInput → TsInput) : (s.modInput i f).free = s.free := rfl
@[simp] theorem State.modInput_out (s : State) (i : Fin 8) (f : TsInput → TsInput) : (s.modInput i f).out = s.out := rfl
@[simp] theorem State.modInput_od (s : State) (i : Fin 8) (f : TsInput → TsInput) : (s.modInput i f).od = s.od := rfl
@[simp] theorem State.modInput_control (s : State) (i : Fin 8) (f : TsInput → TsInput) : (s.modInput i f).control = s.control := rfl
@[simp] theorem State.modInput_power (s : State) (i : Fin 8) (f : TsInput → TsInput) : (s.modInput i f).power = s.power := rfl
@[simp] theorem State.modInput_pins (s : State) (i : Fin 8) (f : TsInput → TsInput) : (s.modInput i f).pins = s.pins := rfl
@[simp] theorem State.modInput_arbiter (s : State) (i : Fin 8) (f : TsInput → TsInput) : (s.modInput i f).arbiter = s.arbiter := rfl
@[simp] theorem State.modInput_integrity (s : State) (i : Fin 8) (f : TsInput → TsInput) : (s.modInput i f).integrity = s.integrity := rfl
@[simp] theorem State.modInput_jtag (s : State) (i : Fin 8) (f : TsInput → TsInput) : (s.modInput i f).jtag = s.jtag := rfl
@[simp] theorem State.modInput_routeA (s : State) (i : Fin 8) (f : TsInput → TsInput) : (s.modInput i f).routeA = s.routeA := rfl
@[simp] theorem State.modInput_routeB (s : State) (i : Fin 8) (f : TsInput → TsInput) : (s.modInput i f).routeB = s.routeB := rfl
@[simp] theorem State.modInput_slices (s : State) (i : Fin 8) (f : TsInput → TsInput) : (s.modInput i f).slices = s.slices := rfl
@[simp] theorem State.modInput_loop (s : State) (i : Fin 8) (f : TsInput → TsInput) : (s.modInput i f).loop = s.loop := rfl
@[simp] theorem State.modInput_survey (s : State) (i : Fin 8) (f : TsInput → TsInput) : (s.modInput i f).survey = s.survey := rfl
@[simp] theorem State.modInput_cores (s : State) (i : Fin 8) (f : TsInput → TsInput) : (s.modInput i f).cores = s.cores := rfl
@[simp] theorem State.modInput_capture (s : State) (i : Fin 8) (f : TsInput → TsInput) : (s.modInput i f).capture = s.capture := rfl
@[simp] theorem State.modInput_streams (s : State) (i : Fin 8) (f : TsInput → TsInput) : (s.modInput i f).streams = s.streams := rfl
@[simp] theorem State.modInput_time (s : State) (i : Fin 8) (f : TsInput → TsInput) : (s.modInput i f).time = s.time := rfl
@[simp] theorem State.modInput_ptp (s : State) (i : Fin 8) (f : TsInput → TsInput) : (s.modInput i f).ptp = s.ptp := rfl
@[simp] theorem State.modInput_sync (s : State) (i : Fin 8) (f : TsInput → TsInput) : (s.modInput i f).sync = s.sync := rfl
@[simp] theorem State.modInput_trigIn (s : State) (i : Fin 8) (f : TsInput → TsInput) : (s.modInput i f).trigIn = s.trigIn := rfl
@[simp] theorem State.modInput_dram (s : State) (i : Fin 8) (f : TsInput → TsInput) : (s.modInput i f).dram = s.dram := rfl
@[simp] theorem State.modInput_rows (s : State) (i : Fin 8) (f : TsInput → TsInput) : (s.modInput i f).rows = s.rows := rfl
@[simp] theorem State.modInput_hka (s : State) (i : Fin 8) (f : TsInput → TsInput) : (s.modInput i f).hka = s.hka := rfl

/-! A route replaced -/

@[simp] theorem State.setRoute_pending (s : State) (r : Route) (x : RouteState) : (s.setRoute r x).pending = s.pending := by cases r <;> rfl
@[simp] theorem State.setRoute_free (s : State) (r : Route) (x : RouteState) : (s.setRoute r x).free = s.free := by cases r <;> rfl
@[simp] theorem State.setRoute_out (s : State) (r : Route) (x : RouteState) : (s.setRoute r x).out = s.out := by cases r <;> rfl
@[simp] theorem State.setRoute_od (s : State) (r : Route) (x : RouteState) : (s.setRoute r x).od = s.od := by cases r <;> rfl
@[simp] theorem State.setRoute_control (s : State) (r : Route) (x : RouteState) : (s.setRoute r x).control = s.control := by cases r <;> rfl
@[simp] theorem State.setRoute_power (s : State) (r : Route) (x : RouteState) : (s.setRoute r x).power = s.power := by cases r <;> rfl
@[simp] theorem State.setRoute_pins (s : State) (r : Route) (x : RouteState) : (s.setRoute r x).pins = s.pins := by cases r <;> rfl
@[simp] theorem State.setRoute_arbiter (s : State) (r : Route) (x : RouteState) : (s.setRoute r x).arbiter = s.arbiter := by cases r <;> rfl
@[simp] theorem State.setRoute_integrity (s : State) (r : Route) (x : RouteState) : (s.setRoute r x).integrity = s.integrity := by cases r <;> rfl
@[simp] theorem State.setRoute_jtag (s : State) (r : Route) (x : RouteState) : (s.setRoute r x).jtag = s.jtag := by cases r <;> rfl
@[simp] theorem State.setRoute_slices (s : State) (r : Route) (x : RouteState) : (s.setRoute r x).slices = s.slices := by cases r <;> rfl
@[simp] theorem State.setRoute_loop (s : State) (r : Route) (x : RouteState) : (s.setRoute r x).loop = s.loop := by cases r <;> rfl
@[simp] theorem State.setRoute_survey (s : State) (r : Route) (x : RouteState) : (s.setRoute r x).survey = s.survey := by cases r <;> rfl
@[simp] theorem State.setRoute_cores (s : State) (r : Route) (x : RouteState) : (s.setRoute r x).cores = s.cores := by cases r <;> rfl
@[simp] theorem State.setRoute_capture (s : State) (r : Route) (x : RouteState) : (s.setRoute r x).capture = s.capture := by cases r <;> rfl
@[simp] theorem State.setRoute_streams (s : State) (r : Route) (x : RouteState) : (s.setRoute r x).streams = s.streams := by cases r <;> rfl
@[simp] theorem State.setRoute_time (s : State) (r : Route) (x : RouteState) : (s.setRoute r x).time = s.time := by cases r <;> rfl
@[simp] theorem State.setRoute_ptp (s : State) (r : Route) (x : RouteState) : (s.setRoute r x).ptp = s.ptp := by cases r <;> rfl
@[simp] theorem State.setRoute_sync (s : State) (r : Route) (x : RouteState) : (s.setRoute r x).sync = s.sync := by cases r <;> rfl
@[simp] theorem State.setRoute_inputs (s : State) (r : Route) (x : RouteState) : (s.setRoute r x).inputs = s.inputs := by cases r <;> rfl
@[simp] theorem State.setRoute_trigIn (s : State) (r : Route) (x : RouteState) : (s.setRoute r x).trigIn = s.trigIn := by cases r <;> rfl
@[simp] theorem State.setRoute_dram (s : State) (r : Route) (x : RouteState) : (s.setRoute r x).dram = s.dram := by cases r <;> rfl
@[simp] theorem State.setRoute_rows (s : State) (r : Route) (x : RouteState) : (s.setRoute r x).rows = s.rows := by cases r <;> rfl
@[simp] theorem State.setRoute_hka (s : State) (r : Route) (x : RouteState) : (s.setRoute r x).hka = s.hka := by cases r <;> rfl

/-! A route updated: modRoute -/

@[simp] theorem State.modRoute_pending (s : State) (r : Route) (f : RouteState → RouteState) : (s.modRoute r f).pending = s.pending := by cases r <;> rfl
@[simp] theorem State.modRoute_free (s : State) (r : Route) (f : RouteState → RouteState) : (s.modRoute r f).free = s.free := by cases r <;> rfl
@[simp] theorem State.modRoute_out (s : State) (r : Route) (f : RouteState → RouteState) : (s.modRoute r f).out = s.out := by cases r <;> rfl
@[simp] theorem State.modRoute_od (s : State) (r : Route) (f : RouteState → RouteState) : (s.modRoute r f).od = s.od := by cases r <;> rfl
@[simp] theorem State.modRoute_control (s : State) (r : Route) (f : RouteState → RouteState) : (s.modRoute r f).control = s.control := by cases r <;> rfl
@[simp] theorem State.modRoute_power (s : State) (r : Route) (f : RouteState → RouteState) : (s.modRoute r f).power = s.power := by cases r <;> rfl
@[simp] theorem State.modRoute_pins (s : State) (r : Route) (f : RouteState → RouteState) : (s.modRoute r f).pins = s.pins := by cases r <;> rfl
@[simp] theorem State.modRoute_arbiter (s : State) (r : Route) (f : RouteState → RouteState) : (s.modRoute r f).arbiter = s.arbiter := by cases r <;> rfl
@[simp] theorem State.modRoute_integrity (s : State) (r : Route) (f : RouteState → RouteState) : (s.modRoute r f).integrity = s.integrity := by cases r <;> rfl
@[simp] theorem State.modRoute_jtag (s : State) (r : Route) (f : RouteState → RouteState) : (s.modRoute r f).jtag = s.jtag := by cases r <;> rfl
@[simp] theorem State.modRoute_slices (s : State) (r : Route) (f : RouteState → RouteState) : (s.modRoute r f).slices = s.slices := by cases r <;> rfl
@[simp] theorem State.modRoute_loop (s : State) (r : Route) (f : RouteState → RouteState) : (s.modRoute r f).loop = s.loop := by cases r <;> rfl
@[simp] theorem State.modRoute_survey (s : State) (r : Route) (f : RouteState → RouteState) : (s.modRoute r f).survey = s.survey := by cases r <;> rfl
@[simp] theorem State.modRoute_cores (s : State) (r : Route) (f : RouteState → RouteState) : (s.modRoute r f).cores = s.cores := by cases r <;> rfl
@[simp] theorem State.modRoute_capture (s : State) (r : Route) (f : RouteState → RouteState) : (s.modRoute r f).capture = s.capture := by cases r <;> rfl
@[simp] theorem State.modRoute_streams (s : State) (r : Route) (f : RouteState → RouteState) : (s.modRoute r f).streams = s.streams := by cases r <;> rfl
@[simp] theorem State.modRoute_time (s : State) (r : Route) (f : RouteState → RouteState) : (s.modRoute r f).time = s.time := by cases r <;> rfl
@[simp] theorem State.modRoute_ptp (s : State) (r : Route) (f : RouteState → RouteState) : (s.modRoute r f).ptp = s.ptp := by cases r <;> rfl
@[simp] theorem State.modRoute_sync (s : State) (r : Route) (f : RouteState → RouteState) : (s.modRoute r f).sync = s.sync := by cases r <;> rfl
@[simp] theorem State.modRoute_inputs (s : State) (r : Route) (f : RouteState → RouteState) : (s.modRoute r f).inputs = s.inputs := by cases r <;> rfl
@[simp] theorem State.modRoute_trigIn (s : State) (r : Route) (f : RouteState → RouteState) : (s.modRoute r f).trigIn = s.trigIn := by cases r <;> rfl
@[simp] theorem State.modRoute_dram (s : State) (r : Route) (f : RouteState → RouteState) : (s.modRoute r f).dram = s.dram := by cases r <;> rfl
@[simp] theorem State.modRoute_rows (s : State) (r : Route) (f : RouteState → RouteState) : (s.modRoute r f).rows = s.rows := by cases r <;> rfl
@[simp] theorem State.modRoute_hka (s : State) (r : Route) (f : RouteState → RouteState) : (s.modRoute r f).hka = s.hka := by cases r <;> rfl

/-! A route updated: modOptics -/

@[simp] theorem State.modOptics_pending (s : State) (r : Route) (f : Optics → Optics) : (s.modOptics r f).pending = s.pending := by cases r <;> rfl
@[simp] theorem State.modOptics_free (s : State) (r : Route) (f : Optics → Optics) : (s.modOptics r f).free = s.free := by cases r <;> rfl
@[simp] theorem State.modOptics_out (s : State) (r : Route) (f : Optics → Optics) : (s.modOptics r f).out = s.out := by cases r <;> rfl
@[simp] theorem State.modOptics_od (s : State) (r : Route) (f : Optics → Optics) : (s.modOptics r f).od = s.od := by cases r <;> rfl
@[simp] theorem State.modOptics_control (s : State) (r : Route) (f : Optics → Optics) : (s.modOptics r f).control = s.control := by cases r <;> rfl
@[simp] theorem State.modOptics_power (s : State) (r : Route) (f : Optics → Optics) : (s.modOptics r f).power = s.power := by cases r <;> rfl
@[simp] theorem State.modOptics_pins (s : State) (r : Route) (f : Optics → Optics) : (s.modOptics r f).pins = s.pins := by cases r <;> rfl
@[simp] theorem State.modOptics_arbiter (s : State) (r : Route) (f : Optics → Optics) : (s.modOptics r f).arbiter = s.arbiter := by cases r <;> rfl
@[simp] theorem State.modOptics_integrity (s : State) (r : Route) (f : Optics → Optics) : (s.modOptics r f).integrity = s.integrity := by cases r <;> rfl
@[simp] theorem State.modOptics_jtag (s : State) (r : Route) (f : Optics → Optics) : (s.modOptics r f).jtag = s.jtag := by cases r <;> rfl
@[simp] theorem State.modOptics_slices (s : State) (r : Route) (f : Optics → Optics) : (s.modOptics r f).slices = s.slices := by cases r <;> rfl
@[simp] theorem State.modOptics_loop (s : State) (r : Route) (f : Optics → Optics) : (s.modOptics r f).loop = s.loop := by cases r <;> rfl
@[simp] theorem State.modOptics_survey (s : State) (r : Route) (f : Optics → Optics) : (s.modOptics r f).survey = s.survey := by cases r <;> rfl
@[simp] theorem State.modOptics_cores (s : State) (r : Route) (f : Optics → Optics) : (s.modOptics r f).cores = s.cores := by cases r <;> rfl
@[simp] theorem State.modOptics_capture (s : State) (r : Route) (f : Optics → Optics) : (s.modOptics r f).capture = s.capture := by cases r <;> rfl
@[simp] theorem State.modOptics_streams (s : State) (r : Route) (f : Optics → Optics) : (s.modOptics r f).streams = s.streams := by cases r <;> rfl
@[simp] theorem State.modOptics_time (s : State) (r : Route) (f : Optics → Optics) : (s.modOptics r f).time = s.time := by cases r <;> rfl
@[simp] theorem State.modOptics_ptp (s : State) (r : Route) (f : Optics → Optics) : (s.modOptics r f).ptp = s.ptp := by cases r <;> rfl
@[simp] theorem State.modOptics_sync (s : State) (r : Route) (f : Optics → Optics) : (s.modOptics r f).sync = s.sync := by cases r <;> rfl
@[simp] theorem State.modOptics_inputs (s : State) (r : Route) (f : Optics → Optics) : (s.modOptics r f).inputs = s.inputs := by cases r <;> rfl
@[simp] theorem State.modOptics_trigIn (s : State) (r : Route) (f : Optics → Optics) : (s.modOptics r f).trigIn = s.trigIn := by cases r <;> rfl
@[simp] theorem State.modOptics_dram (s : State) (r : Route) (f : Optics → Optics) : (s.modOptics r f).dram = s.dram := by cases r <;> rfl
@[simp] theorem State.modOptics_rows (s : State) (r : Route) (f : Optics → Optics) : (s.modOptics r f).rows = s.rows := by cases r <;> rfl
@[simp] theorem State.modOptics_hka (s : State) (r : Route) (f : Optics → Optics) : (s.modOptics r f).hka = s.hka := by cases r <;> rfl

/-! A route updated: modCrx -/

@[simp] theorem State.modCrx_pending (s : State) (r : Route) (f : Crx → Crx) : (s.modCrx r f).pending = s.pending := by cases r <;> rfl
@[simp] theorem State.modCrx_free (s : State) (r : Route) (f : Crx → Crx) : (s.modCrx r f).free = s.free := by cases r <;> rfl
@[simp] theorem State.modCrx_out (s : State) (r : Route) (f : Crx → Crx) : (s.modCrx r f).out = s.out := by cases r <;> rfl
@[simp] theorem State.modCrx_od (s : State) (r : Route) (f : Crx → Crx) : (s.modCrx r f).od = s.od := by cases r <;> rfl
@[simp] theorem State.modCrx_control (s : State) (r : Route) (f : Crx → Crx) : (s.modCrx r f).control = s.control := by cases r <;> rfl
@[simp] theorem State.modCrx_power (s : State) (r : Route) (f : Crx → Crx) : (s.modCrx r f).power = s.power := by cases r <;> rfl
@[simp] theorem State.modCrx_pins (s : State) (r : Route) (f : Crx → Crx) : (s.modCrx r f).pins = s.pins := by cases r <;> rfl
@[simp] theorem State.modCrx_arbiter (s : State) (r : Route) (f : Crx → Crx) : (s.modCrx r f).arbiter = s.arbiter := by cases r <;> rfl
@[simp] theorem State.modCrx_integrity (s : State) (r : Route) (f : Crx → Crx) : (s.modCrx r f).integrity = s.integrity := by cases r <;> rfl
@[simp] theorem State.modCrx_jtag (s : State) (r : Route) (f : Crx → Crx) : (s.modCrx r f).jtag = s.jtag := by cases r <;> rfl
@[simp] theorem State.modCrx_slices (s : State) (r : Route) (f : Crx → Crx) : (s.modCrx r f).slices = s.slices := by cases r <;> rfl
@[simp] theorem State.modCrx_loop (s : State) (r : Route) (f : Crx → Crx) : (s.modCrx r f).loop = s.loop := by cases r <;> rfl
@[simp] theorem State.modCrx_survey (s : State) (r : Route) (f : Crx → Crx) : (s.modCrx r f).survey = s.survey := by cases r <;> rfl
@[simp] theorem State.modCrx_cores (s : State) (r : Route) (f : Crx → Crx) : (s.modCrx r f).cores = s.cores := by cases r <;> rfl
@[simp] theorem State.modCrx_capture (s : State) (r : Route) (f : Crx → Crx) : (s.modCrx r f).capture = s.capture := by cases r <;> rfl
@[simp] theorem State.modCrx_streams (s : State) (r : Route) (f : Crx → Crx) : (s.modCrx r f).streams = s.streams := by cases r <;> rfl
@[simp] theorem State.modCrx_time (s : State) (r : Route) (f : Crx → Crx) : (s.modCrx r f).time = s.time := by cases r <;> rfl
@[simp] theorem State.modCrx_ptp (s : State) (r : Route) (f : Crx → Crx) : (s.modCrx r f).ptp = s.ptp := by cases r <;> rfl
@[simp] theorem State.modCrx_sync (s : State) (r : Route) (f : Crx → Crx) : (s.modCrx r f).sync = s.sync := by cases r <;> rfl
@[simp] theorem State.modCrx_inputs (s : State) (r : Route) (f : Crx → Crx) : (s.modCrx r f).inputs = s.inputs := by cases r <;> rfl
@[simp] theorem State.modCrx_trigIn (s : State) (r : Route) (f : Crx → Crx) : (s.modCrx r f).trigIn = s.trigIn := by cases r <;> rfl
@[simp] theorem State.modCrx_dram (s : State) (r : Route) (f : Crx → Crx) : (s.modCrx r f).dram = s.dram := by cases r <;> rfl
@[simp] theorem State.modCrx_rows (s : State) (r : Route) (f : Crx → Crx) : (s.modCrx r f).rows = s.rows := by cases r <;> rfl
@[simp] theorem State.modCrx_hka (s : State) (r : Route) (f : Crx → Crx) : (s.modCrx r f).hka = s.hka := by cases r <;> rfl

/-! A route updated: modRay -/

@[simp] theorem State.modRay_pending (s : State) (r : Route) (f : Rayleigh → Rayleigh) : (s.modRay r f).pending = s.pending := by cases r <;> rfl
@[simp] theorem State.modRay_free (s : State) (r : Route) (f : Rayleigh → Rayleigh) : (s.modRay r f).free = s.free := by cases r <;> rfl
@[simp] theorem State.modRay_out (s : State) (r : Route) (f : Rayleigh → Rayleigh) : (s.modRay r f).out = s.out := by cases r <;> rfl
@[simp] theorem State.modRay_od (s : State) (r : Route) (f : Rayleigh → Rayleigh) : (s.modRay r f).od = s.od := by cases r <;> rfl
@[simp] theorem State.modRay_control (s : State) (r : Route) (f : Rayleigh → Rayleigh) : (s.modRay r f).control = s.control := by cases r <;> rfl
@[simp] theorem State.modRay_power (s : State) (r : Route) (f : Rayleigh → Rayleigh) : (s.modRay r f).power = s.power := by cases r <;> rfl
@[simp] theorem State.modRay_pins (s : State) (r : Route) (f : Rayleigh → Rayleigh) : (s.modRay r f).pins = s.pins := by cases r <;> rfl
@[simp] theorem State.modRay_arbiter (s : State) (r : Route) (f : Rayleigh → Rayleigh) : (s.modRay r f).arbiter = s.arbiter := by cases r <;> rfl
@[simp] theorem State.modRay_integrity (s : State) (r : Route) (f : Rayleigh → Rayleigh) : (s.modRay r f).integrity = s.integrity := by cases r <;> rfl
@[simp] theorem State.modRay_jtag (s : State) (r : Route) (f : Rayleigh → Rayleigh) : (s.modRay r f).jtag = s.jtag := by cases r <;> rfl
@[simp] theorem State.modRay_slices (s : State) (r : Route) (f : Rayleigh → Rayleigh) : (s.modRay r f).slices = s.slices := by cases r <;> rfl
@[simp] theorem State.modRay_loop (s : State) (r : Route) (f : Rayleigh → Rayleigh) : (s.modRay r f).loop = s.loop := by cases r <;> rfl
@[simp] theorem State.modRay_survey (s : State) (r : Route) (f : Rayleigh → Rayleigh) : (s.modRay r f).survey = s.survey := by cases r <;> rfl
@[simp] theorem State.modRay_cores (s : State) (r : Route) (f : Rayleigh → Rayleigh) : (s.modRay r f).cores = s.cores := by cases r <;> rfl
@[simp] theorem State.modRay_capture (s : State) (r : Route) (f : Rayleigh → Rayleigh) : (s.modRay r f).capture = s.capture := by cases r <;> rfl
@[simp] theorem State.modRay_streams (s : State) (r : Route) (f : Rayleigh → Rayleigh) : (s.modRay r f).streams = s.streams := by cases r <;> rfl
@[simp] theorem State.modRay_time (s : State) (r : Route) (f : Rayleigh → Rayleigh) : (s.modRay r f).time = s.time := by cases r <;> rfl
@[simp] theorem State.modRay_ptp (s : State) (r : Route) (f : Rayleigh → Rayleigh) : (s.modRay r f).ptp = s.ptp := by cases r <;> rfl
@[simp] theorem State.modRay_sync (s : State) (r : Route) (f : Rayleigh → Rayleigh) : (s.modRay r f).sync = s.sync := by cases r <;> rfl
@[simp] theorem State.modRay_inputs (s : State) (r : Route) (f : Rayleigh → Rayleigh) : (s.modRay r f).inputs = s.inputs := by cases r <;> rfl
@[simp] theorem State.modRay_trigIn (s : State) (r : Route) (f : Rayleigh → Rayleigh) : (s.modRay r f).trigIn = s.trigIn := by cases r <;> rfl
@[simp] theorem State.modRay_dram (s : State) (r : Route) (f : Rayleigh → Rayleigh) : (s.modRay r f).dram = s.dram := by cases r <;> rfl
@[simp] theorem State.modRay_rows (s : State) (r : Route) (f : Rayleigh → Rayleigh) : (s.modRay r f).rows = s.rows := by cases r <;> rfl
@[simp] theorem State.modRay_hka (s : State) (r : Route) (f : Rayleigh → Rayleigh) : (s.modRay r f).hka = s.hka := by cases r <;> rfl

/-! A route updated: modFdc -/

@[simp] theorem State.modFdc_pending (s : State) (r : Route) (f : Fdc → Fdc) : (s.modFdc r f).pending = s.pending := by cases r <;> rfl
@[simp] theorem State.modFdc_free (s : State) (r : Route) (f : Fdc → Fdc) : (s.modFdc r f).free = s.free := by cases r <;> rfl
@[simp] theorem State.modFdc_out (s : State) (r : Route) (f : Fdc → Fdc) : (s.modFdc r f).out = s.out := by cases r <;> rfl
@[simp] theorem State.modFdc_od (s : State) (r : Route) (f : Fdc → Fdc) : (s.modFdc r f).od = s.od := by cases r <;> rfl
@[simp] theorem State.modFdc_control (s : State) (r : Route) (f : Fdc → Fdc) : (s.modFdc r f).control = s.control := by cases r <;> rfl
@[simp] theorem State.modFdc_power (s : State) (r : Route) (f : Fdc → Fdc) : (s.modFdc r f).power = s.power := by cases r <;> rfl
@[simp] theorem State.modFdc_pins (s : State) (r : Route) (f : Fdc → Fdc) : (s.modFdc r f).pins = s.pins := by cases r <;> rfl
@[simp] theorem State.modFdc_arbiter (s : State) (r : Route) (f : Fdc → Fdc) : (s.modFdc r f).arbiter = s.arbiter := by cases r <;> rfl
@[simp] theorem State.modFdc_integrity (s : State) (r : Route) (f : Fdc → Fdc) : (s.modFdc r f).integrity = s.integrity := by cases r <;> rfl
@[simp] theorem State.modFdc_jtag (s : State) (r : Route) (f : Fdc → Fdc) : (s.modFdc r f).jtag = s.jtag := by cases r <;> rfl
@[simp] theorem State.modFdc_slices (s : State) (r : Route) (f : Fdc → Fdc) : (s.modFdc r f).slices = s.slices := by cases r <;> rfl
@[simp] theorem State.modFdc_loop (s : State) (r : Route) (f : Fdc → Fdc) : (s.modFdc r f).loop = s.loop := by cases r <;> rfl
@[simp] theorem State.modFdc_survey (s : State) (r : Route) (f : Fdc → Fdc) : (s.modFdc r f).survey = s.survey := by cases r <;> rfl
@[simp] theorem State.modFdc_cores (s : State) (r : Route) (f : Fdc → Fdc) : (s.modFdc r f).cores = s.cores := by cases r <;> rfl
@[simp] theorem State.modFdc_capture (s : State) (r : Route) (f : Fdc → Fdc) : (s.modFdc r f).capture = s.capture := by cases r <;> rfl
@[simp] theorem State.modFdc_streams (s : State) (r : Route) (f : Fdc → Fdc) : (s.modFdc r f).streams = s.streams := by cases r <;> rfl
@[simp] theorem State.modFdc_time (s : State) (r : Route) (f : Fdc → Fdc) : (s.modFdc r f).time = s.time := by cases r <;> rfl
@[simp] theorem State.modFdc_ptp (s : State) (r : Route) (f : Fdc → Fdc) : (s.modFdc r f).ptp = s.ptp := by cases r <;> rfl
@[simp] theorem State.modFdc_sync (s : State) (r : Route) (f : Fdc → Fdc) : (s.modFdc r f).sync = s.sync := by cases r <;> rfl
@[simp] theorem State.modFdc_inputs (s : State) (r : Route) (f : Fdc → Fdc) : (s.modFdc r f).inputs = s.inputs := by cases r <;> rfl
@[simp] theorem State.modFdc_trigIn (s : State) (r : Route) (f : Fdc → Fdc) : (s.modFdc r f).trigIn = s.trigIn := by cases r <;> rfl
@[simp] theorem State.modFdc_dram (s : State) (r : Route) (f : Fdc → Fdc) : (s.modFdc r f).dram = s.dram := by cases r <;> rfl
@[simp] theorem State.modFdc_rows (s : State) (r : Route) (f : Fdc → Fdc) : (s.modFdc r f).rows = s.rows := by cases r <;> rfl
@[simp] theorem State.modFdc_hka (s : State) (r : Route) (f : Fdc → Fdc) : (s.modFdc r f).hka = s.hka := by cases r <;> rfl

/-! A route updated: modThermal -/

@[simp] theorem State.modThermal_pending (s : State) (r : Route) (f : Thermal → Thermal) : (s.modThermal r f).pending = s.pending := by cases r <;> rfl
@[simp] theorem State.modThermal_free (s : State) (r : Route) (f : Thermal → Thermal) : (s.modThermal r f).free = s.free := by cases r <;> rfl
@[simp] theorem State.modThermal_out (s : State) (r : Route) (f : Thermal → Thermal) : (s.modThermal r f).out = s.out := by cases r <;> rfl
@[simp] theorem State.modThermal_od (s : State) (r : Route) (f : Thermal → Thermal) : (s.modThermal r f).od = s.od := by cases r <;> rfl
@[simp] theorem State.modThermal_control (s : State) (r : Route) (f : Thermal → Thermal) : (s.modThermal r f).control = s.control := by cases r <;> rfl
@[simp] theorem State.modThermal_power (s : State) (r : Route) (f : Thermal → Thermal) : (s.modThermal r f).power = s.power := by cases r <;> rfl
@[simp] theorem State.modThermal_pins (s : State) (r : Route) (f : Thermal → Thermal) : (s.modThermal r f).pins = s.pins := by cases r <;> rfl
@[simp] theorem State.modThermal_arbiter (s : State) (r : Route) (f : Thermal → Thermal) : (s.modThermal r f).arbiter = s.arbiter := by cases r <;> rfl
@[simp] theorem State.modThermal_integrity (s : State) (r : Route) (f : Thermal → Thermal) : (s.modThermal r f).integrity = s.integrity := by cases r <;> rfl
@[simp] theorem State.modThermal_jtag (s : State) (r : Route) (f : Thermal → Thermal) : (s.modThermal r f).jtag = s.jtag := by cases r <;> rfl
@[simp] theorem State.modThermal_slices (s : State) (r : Route) (f : Thermal → Thermal) : (s.modThermal r f).slices = s.slices := by cases r <;> rfl
@[simp] theorem State.modThermal_loop (s : State) (r : Route) (f : Thermal → Thermal) : (s.modThermal r f).loop = s.loop := by cases r <;> rfl
@[simp] theorem State.modThermal_survey (s : State) (r : Route) (f : Thermal → Thermal) : (s.modThermal r f).survey = s.survey := by cases r <;> rfl
@[simp] theorem State.modThermal_cores (s : State) (r : Route) (f : Thermal → Thermal) : (s.modThermal r f).cores = s.cores := by cases r <;> rfl
@[simp] theorem State.modThermal_capture (s : State) (r : Route) (f : Thermal → Thermal) : (s.modThermal r f).capture = s.capture := by cases r <;> rfl
@[simp] theorem State.modThermal_streams (s : State) (r : Route) (f : Thermal → Thermal) : (s.modThermal r f).streams = s.streams := by cases r <;> rfl
@[simp] theorem State.modThermal_time (s : State) (r : Route) (f : Thermal → Thermal) : (s.modThermal r f).time = s.time := by cases r <;> rfl
@[simp] theorem State.modThermal_ptp (s : State) (r : Route) (f : Thermal → Thermal) : (s.modThermal r f).ptp = s.ptp := by cases r <;> rfl
@[simp] theorem State.modThermal_sync (s : State) (r : Route) (f : Thermal → Thermal) : (s.modThermal r f).sync = s.sync := by cases r <;> rfl
@[simp] theorem State.modThermal_inputs (s : State) (r : Route) (f : Thermal → Thermal) : (s.modThermal r f).inputs = s.inputs := by cases r <;> rfl
@[simp] theorem State.modThermal_trigIn (s : State) (r : Route) (f : Thermal → Thermal) : (s.modThermal r f).trigIn = s.trigIn := by cases r <;> rfl
@[simp] theorem State.modThermal_dram (s : State) (r : Route) (f : Thermal → Thermal) : (s.modThermal r f).dram = s.dram := by cases r <;> rfl
@[simp] theorem State.modThermal_rows (s : State) (r : Route) (f : Thermal → Thermal) : (s.modThermal r f).rows = s.rows := by cases r <;> rfl
@[simp] theorem State.modThermal_hka (s : State) (r : Route) (f : Thermal → Thermal) : (s.modThermal r f).hka = s.hka := by cases r <;> rfl

/-! A route updated: modComb -/

@[simp] theorem State.modComb_pending (s : State) (r : Route) (f : Comb → Comb) : (s.modComb r f).pending = s.pending := by cases r <;> rfl
@[simp] theorem State.modComb_free (s : State) (r : Route) (f : Comb → Comb) : (s.modComb r f).free = s.free := by cases r <;> rfl
@[simp] theorem State.modComb_out (s : State) (r : Route) (f : Comb → Comb) : (s.modComb r f).out = s.out := by cases r <;> rfl
@[simp] theorem State.modComb_od (s : State) (r : Route) (f : Comb → Comb) : (s.modComb r f).od = s.od := by cases r <;> rfl
@[simp] theorem State.modComb_control (s : State) (r : Route) (f : Comb → Comb) : (s.modComb r f).control = s.control := by cases r <;> rfl
@[simp] theorem State.modComb_power (s : State) (r : Route) (f : Comb → Comb) : (s.modComb r f).power = s.power := by cases r <;> rfl
@[simp] theorem State.modComb_pins (s : State) (r : Route) (f : Comb → Comb) : (s.modComb r f).pins = s.pins := by cases r <;> rfl
@[simp] theorem State.modComb_arbiter (s : State) (r : Route) (f : Comb → Comb) : (s.modComb r f).arbiter = s.arbiter := by cases r <;> rfl
@[simp] theorem State.modComb_integrity (s : State) (r : Route) (f : Comb → Comb) : (s.modComb r f).integrity = s.integrity := by cases r <;> rfl
@[simp] theorem State.modComb_jtag (s : State) (r : Route) (f : Comb → Comb) : (s.modComb r f).jtag = s.jtag := by cases r <;> rfl
@[simp] theorem State.modComb_slices (s : State) (r : Route) (f : Comb → Comb) : (s.modComb r f).slices = s.slices := by cases r <;> rfl
@[simp] theorem State.modComb_loop (s : State) (r : Route) (f : Comb → Comb) : (s.modComb r f).loop = s.loop := by cases r <;> rfl
@[simp] theorem State.modComb_survey (s : State) (r : Route) (f : Comb → Comb) : (s.modComb r f).survey = s.survey := by cases r <;> rfl
@[simp] theorem State.modComb_cores (s : State) (r : Route) (f : Comb → Comb) : (s.modComb r f).cores = s.cores := by cases r <;> rfl
@[simp] theorem State.modComb_capture (s : State) (r : Route) (f : Comb → Comb) : (s.modComb r f).capture = s.capture := by cases r <;> rfl
@[simp] theorem State.modComb_streams (s : State) (r : Route) (f : Comb → Comb) : (s.modComb r f).streams = s.streams := by cases r <;> rfl
@[simp] theorem State.modComb_time (s : State) (r : Route) (f : Comb → Comb) : (s.modComb r f).time = s.time := by cases r <;> rfl
@[simp] theorem State.modComb_ptp (s : State) (r : Route) (f : Comb → Comb) : (s.modComb r f).ptp = s.ptp := by cases r <;> rfl
@[simp] theorem State.modComb_sync (s : State) (r : Route) (f : Comb → Comb) : (s.modComb r f).sync = s.sync := by cases r <;> rfl
@[simp] theorem State.modComb_inputs (s : State) (r : Route) (f : Comb → Comb) : (s.modComb r f).inputs = s.inputs := by cases r <;> rfl
@[simp] theorem State.modComb_trigIn (s : State) (r : Route) (f : Comb → Comb) : (s.modComb r f).trigIn = s.trigIn := by cases r <;> rfl
@[simp] theorem State.modComb_dram (s : State) (r : Route) (f : Comb → Comb) : (s.modComb r f).dram = s.dram := by cases r <;> rfl
@[simp] theorem State.modComb_rows (s : State) (r : Route) (f : Comb → Comb) : (s.modComb r f).rows = s.rows := by cases r <;> rfl
@[simp] theorem State.modComb_hka (s : State) (r : Route) (f : Comb → Comb) : (s.modComb r f).hka = s.hka := by cases r <;> rfl

/-! Routes -/

@[simp] theorem State.route_setRoute (s : State) (r : Route) (x : RouteState) : (s.setRoute r x).route r = x := by cases r <;> rfl
@[simp] theorem State.route_setRoute_other (s : State) (r : Route) (x : RouteState) :
    (s.setRoute r x).route (otherRoute r) = s.route (otherRoute r) := by cases r <;> rfl
@[simp] theorem State.route_modRoute (s : State) (r : Route) (f : RouteState → RouteState) :
    (s.modRoute r f).route r = f (s.route r) := by cases r <;> rfl

@[simp] theorem State.route_modOptics (s : State) (r : Route) (f : Optics → Optics) :
    (s.modOptics r f).route r = { s.route r with optics := f (s.route r).optics } := by cases r <;> rfl
@[simp] theorem State.route_modCrx (s : State) (r : Route) (f : Crx → Crx) :
    (s.modCrx r f).route r = { s.route r with crx := f (s.route r).crx } := by cases r <;> rfl
@[simp] theorem State.route_modRay (s : State) (r : Route) (f : Rayleigh → Rayleigh) :
    (s.modRay r f).route r = { s.route r with ray := f (s.route r).ray } := by cases r <;> rfl
@[simp] theorem State.route_modFdc (s : State) (r : Route) (f : Fdc → Fdc) :
    (s.modFdc r f).route r = { s.route r with fdc := f (s.route r).fdc } := by cases r <;> rfl
@[simp] theorem State.route_modThermal (s : State) (r : Route) (f : Thermal → Thermal) :
    (s.modThermal r f).route r = { s.route r with thermal := f (s.route r).thermal } := by cases r <;> rfl
@[simp] theorem State.route_modComb (s : State) (r : Route) (f : Comb → Comb) :
    (s.modComb r f).route r = { s.route r with comb := f (s.route r).comb } := by cases r <;> rfl
@[simp] theorem State.route_setVal (s : State) (k : Nat) (v : Val) (r : Route) : (s.setVal k v).route r = s.route r := by cases r <;> rfl
@[simp] theorem State.route_put (s : State) (i j n : Nat) (r : Route) : (s.put i j n).route r = s.route r := by cases r <;> rfl
@[simp] theorem State.route_putI (s : State) (i j w : Nat) (x : Int) (r : Route) : (s.putI i j w x).route r = s.route r := by cases r <;> rfl
@[simp] theorem State.route_putB (s : State) (i j : Nat) (b : Bytes) (r : Route) : (s.putB i j b).route r = s.route r := by cases r <;> rfl
@[simp] theorem State.route_bump (s : State) (i j k : Nat) (r : Route) : (s.bump i j k).route r = s.route r := by cases r <;> rfl
@[simp] theorem State.route_putBit (s : State) (i j k : Nat) (b : Bool) (r : Route) : (s.putBit i j k b).route r = s.route r := by cases r <;> rfl
@[simp] theorem State.route_emit (s : State) (m : OutMsg) (r : Route) : (s.emit m).route r = s.route r := by cases r <;> rfl
@[simp] theorem State.route_settle (s : State) (r : Route) : (s.settle).route r = s.route r := by cases r <;> rfl
@[simp] theorem State.route_setCore (s : State) (c : Fin 8) (x : Core) (r : Route) : (s.setCore c x).route r = s.route r := by cases r <;> rfl
@[simp] theorem State.route_setSlot (s : State) (k : Fin 8) (x : CapSlot) (r : Route) : (s.setSlot k x).route r = s.route r := by cases r <;> rfl
@[simp] theorem State.route_setLane (s : State) (l : Fin 8) (c : Nat) (r : Route) : (s.setLane l c).route r = s.route r := by cases r <;> rfl
@[simp] theorem State.route_modTime (s : State) (f : TimeUnit → TimeUnit) (r : Route) : (s.modTime f).route r = s.route r := by cases r <;> rfl
@[simp] theorem State.route_modPtp (s : State) (f : Ptp → Ptp) (r : Route) : (s.modPtp f).route r = s.route r := by cases r <;> rfl
@[simp] theorem State.route_modSync (s : State) (f : SyncBus → SyncBus) (r : Route) : (s.modSync f).route r = s.route r := by cases r <;> rfl
@[simp] theorem State.route_modDram (s : State) (c : Fin 2) (f : Dram → Dram) (r : Route) : (s.modDram c f).route r = s.route r := by cases r <;> rfl
@[simp] theorem State.route_modInput (s : State) (i : Fin 8) (f : TsInput → TsInput) (r : Route) : (s.modInput i f).route r = s.route r := by cases r <;> rfl

/-! Numbers of the dictionary -/

/-- A number reads from the dictionary alone. -/
theorem State.num_of_od {s t : State} (h : t.od = s.od) (i j : Nat) : t.num i j = s.num i j := by unfold State.num; rw [h]

@[simp] theorem State.num_putI (s : State) (i j w : Nat) (x : Int) (idx sub : Nat) :
    (s.putI i j w x).num idx sub = if objKey i j = objKey idx sub then ofSigned (sat x w) w else s.num idx sub := State.num_put ..
@[simp] theorem State.num_bump (s : State) (i j k idx sub : Nat) :
    (s.bump i j k).num idx sub = if objKey i j = objKey idx sub then incWrap (s.num i j) k 32 else s.num idx sub := State.num_put ..
@[simp] theorem State.num_putBit (s : State) (i j k : Nat) (b : Bool) (idx sub : Nat) :
    (s.putBit i j k b).num idx sub = if objKey i j = objKey idx sub then setBit (s.num i j) k b else s.num idx sub := State.num_put ..
@[simp] theorem State.num_emit (s : State) (m : OutMsg) (idx sub : Nat) : (s.emit m).num idx sub = s.num idx sub := rfl
@[simp] theorem State.num_settle (s : State) (idx sub : Nat) : (s.settle).num idx sub = s.num idx sub := rfl
@[simp] theorem State.num_setCore (s : State) (c : Fin 8) (x : Core) (idx sub : Nat) : (s.setCore c x).num idx sub = s.num idx sub := rfl
@[simp] theorem State.num_setSlot (s : State) (k : Fin 8) (x : CapSlot) (idx sub : Nat) : (s.setSlot k x).num idx sub = s.num idx sub := rfl
@[simp] theorem State.num_setLane (s : State) (l : Fin 8) (c : Nat) (idx sub : Nat) : (s.setLane l c).num idx sub = s.num idx sub := rfl
@[simp] theorem State.num_modTime (s : State) (f : TimeUnit → TimeUnit) (idx sub : Nat) : (s.modTime f).num idx sub = s.num idx sub := rfl
@[simp] theorem State.num_modPtp (s : State) (f : Ptp → Ptp) (idx sub : Nat) : (s.modPtp f).num idx sub = s.num idx sub := rfl
@[simp] theorem State.num_modSync (s : State) (f : SyncBus → SyncBus) (idx sub : Nat) : (s.modSync f).num idx sub = s.num idx sub := rfl
@[simp] theorem State.num_modDram (s : State) (c : Fin 2) (f : Dram → Dram) (idx sub : Nat) : (s.modDram c f).num idx sub = s.num idx sub := rfl
@[simp] theorem State.num_modInput (s : State) (i : Fin 8) (f : TsInput → TsInput) (idx sub : Nat) : (s.modInput i f).num idx sub = s.num idx sub := rfl
@[simp] theorem State.num_modRoute (s : State) (r : Route) (f : RouteState → RouteState) (idx sub : Nat) :
    (s.modRoute r f).num idx sub = s.num idx sub := by cases r <;> rfl
@[simp] theorem State.num_modOptics (s : State) (r : Route) (f : Optics → Optics) (idx sub : Nat) :
    (s.modOptics r f).num idx sub = s.num idx sub := by cases r <;> rfl
@[simp] theorem State.num_modCrx (s : State) (r : Route) (f : Crx → Crx) (idx sub : Nat) :
    (s.modCrx r f).num idx sub = s.num idx sub := by cases r <;> rfl
@[simp] theorem State.num_modRay (s : State) (r : Route) (f : Rayleigh → Rayleigh) (idx sub : Nat) :
    (s.modRay r f).num idx sub = s.num idx sub := by cases r <;> rfl
@[simp] theorem State.num_modFdc (s : State) (r : Route) (f : Fdc → Fdc) (idx sub : Nat) :
    (s.modFdc r f).num idx sub = s.num idx sub := by cases r <;> rfl
@[simp] theorem State.num_modThermal (s : State) (r : Route) (f : Thermal → Thermal) (idx sub : Nat) :
    (s.modThermal r f).num idx sub = s.num idx sub := by cases r <;> rfl
@[simp] theorem State.num_modComb (s : State) (r : Route) (f : Comb → Comb) (idx sub : Nat) :
    (s.modComb r f).num idx sub = s.num idx sub := by cases r <;> rfl

/-! A record latched while no Keeper runs -/

@[simp] theorem State.holdRec_pending (s : State) (e : EventRec) : (s.holdRec e).pending = s.pending := rfl
@[simp] theorem State.holdRec_free (s : State) (e : EventRec) : (s.holdRec e).free = s.free := rfl
@[simp] theorem State.holdRec_out (s : State) (e : EventRec) : (s.holdRec e).out = s.out := rfl
@[simp] theorem State.holdRec_od (s : State) (e : EventRec) : (s.holdRec e).od = s.od := rfl
@[simp] theorem State.holdRec_control (s : State) (e : EventRec) : (s.holdRec e).control = s.control := rfl
@[simp] theorem State.holdRec_power (s : State) (e : EventRec) : (s.holdRec e).power = s.power := rfl
@[simp] theorem State.holdRec_pins (s : State) (e : EventRec) : (s.holdRec e).pins = s.pins := rfl
@[simp] theorem State.holdRec_arbiter (s : State) (e : EventRec) : (s.holdRec e).arbiter = s.arbiter := rfl
@[simp] theorem State.holdRec_integrity (s : State) (e : EventRec) : (s.holdRec e).integrity = s.integrity := rfl
@[simp] theorem State.holdRec_jtag (s : State) (e : EventRec) : (s.holdRec e).jtag = s.jtag := rfl
@[simp] theorem State.holdRec_routeA (s : State) (e : EventRec) : (s.holdRec e).routeA = s.routeA := rfl
@[simp] theorem State.holdRec_routeB (s : State) (e : EventRec) : (s.holdRec e).routeB = s.routeB := rfl
@[simp] theorem State.holdRec_slices (s : State) (e : EventRec) : (s.holdRec e).slices = s.slices := rfl
@[simp] theorem State.holdRec_loop (s : State) (e : EventRec) : (s.holdRec e).loop = s.loop := rfl
@[simp] theorem State.holdRec_survey (s : State) (e : EventRec) : (s.holdRec e).survey = s.survey := rfl
@[simp] theorem State.holdRec_cores (s : State) (e : EventRec) : (s.holdRec e).cores = s.cores := rfl
@[simp] theorem State.holdRec_capture (s : State) (e : EventRec) : (s.holdRec e).capture = s.capture := rfl
@[simp] theorem State.holdRec_time (s : State) (e : EventRec) : (s.holdRec e).time = s.time := rfl
@[simp] theorem State.holdRec_sync (s : State) (e : EventRec) : (s.holdRec e).sync = s.sync := rfl
@[simp] theorem State.holdRec_inputs (s : State) (e : EventRec) : (s.holdRec e).inputs = s.inputs := rfl
@[simp] theorem State.holdRec_trigIn (s : State) (e : EventRec) : (s.holdRec e).trigIn = s.trigIn := rfl
@[simp] theorem State.holdRec_dram (s : State) (e : EventRec) : (s.holdRec e).dram = s.dram := rfl
@[simp] theorem State.holdRec_rows (s : State) (e : EventRec) : (s.holdRec e).rows = s.rows := rfl
@[simp] theorem State.holdRec_hka (s : State) (e : EventRec) : (s.holdRec e).hka = s.hka := rfl
@[simp] theorem State.holdRec_ptp (s : State) (e : EventRec) : (s.holdRec e).ptp = s.ptp := rfl
@[simp] theorem State.holdRec_held (s : State) (e : EventRec) : (s.holdRec e).streams.held = s.streams.held ++ [e] := rfl
@[simp] theorem State.holdRec_log (s : State) (e : EventRec) : (s.holdRec e).streams.log = s.streams.log := rfl

/-! A clock domain updated -/

@[simp] theorem State.modDom_pending (s : State) (d : Fin 4) (f : Domain → Domain) : (s.modDom d f).pending = s.pending := rfl
@[simp] theorem State.modDom_free (s : State) (d : Fin 4) (f : Domain → Domain) : (s.modDom d f).free = s.free := rfl
@[simp] theorem State.modDom_out (s : State) (d : Fin 4) (f : Domain → Domain) : (s.modDom d f).out = s.out := rfl
@[simp] theorem State.modDom_od (s : State) (d : Fin 4) (f : Domain → Domain) : (s.modDom d f).od = s.od := rfl
@[simp] theorem State.modDom_control (s : State) (d : Fin 4) (f : Domain → Domain) : (s.modDom d f).control = s.control := rfl
@[simp] theorem State.modDom_pins (s : State) (d : Fin 4) (f : Domain → Domain) : (s.modDom d f).pins = s.pins := rfl
@[simp] theorem State.modDom_arbiter (s : State) (d : Fin 4) (f : Domain → Domain) : (s.modDom d f).arbiter = s.arbiter := rfl
@[simp] theorem State.modDom_integrity (s : State) (d : Fin 4) (f : Domain → Domain) : (s.modDom d f).integrity = s.integrity := rfl
@[simp] theorem State.modDom_jtag (s : State) (d : Fin 4) (f : Domain → Domain) : (s.modDom d f).jtag = s.jtag := rfl
@[simp] theorem State.modDom_routeA (s : State) (d : Fin 4) (f : Domain → Domain) : (s.modDom d f).routeA = s.routeA := rfl
@[simp] theorem State.modDom_routeB (s : State) (d : Fin 4) (f : Domain → Domain) : (s.modDom d f).routeB = s.routeB := rfl
@[simp] theorem State.modDom_slices (s : State) (d : Fin 4) (f : Domain → Domain) : (s.modDom d f).slices = s.slices := rfl
@[simp] theorem State.modDom_loop (s : State) (d : Fin 4) (f : Domain → Domain) : (s.modDom d f).loop = s.loop := rfl
@[simp] theorem State.modDom_survey (s : State) (d : Fin 4) (f : Domain → Domain) : (s.modDom d f).survey = s.survey := rfl
@[simp] theorem State.modDom_cores (s : State) (d : Fin 4) (f : Domain → Domain) : (s.modDom d f).cores = s.cores := rfl
@[simp] theorem State.modDom_capture (s : State) (d : Fin 4) (f : Domain → Domain) : (s.modDom d f).capture = s.capture := rfl
@[simp] theorem State.modDom_streams (s : State) (d : Fin 4) (f : Domain → Domain) : (s.modDom d f).streams = s.streams := rfl
@[simp] theorem State.modDom_time (s : State) (d : Fin 4) (f : Domain → Domain) : (s.modDom d f).time = s.time := rfl
@[simp] theorem State.modDom_sync (s : State) (d : Fin 4) (f : Domain → Domain) : (s.modDom d f).sync = s.sync := rfl
@[simp] theorem State.modDom_inputs (s : State) (d : Fin 4) (f : Domain → Domain) : (s.modDom d f).inputs = s.inputs := rfl
@[simp] theorem State.modDom_trigIn (s : State) (d : Fin 4) (f : Domain → Domain) : (s.modDom d f).trigIn = s.trigIn := rfl
@[simp] theorem State.modDom_dram (s : State) (d : Fin 4) (f : Domain → Domain) : (s.modDom d f).dram = s.dram := rfl
@[simp] theorem State.modDom_rows (s : State) (d : Fin 4) (f : Domain → Domain) : (s.modDom d f).rows = s.rows := rfl
@[simp] theorem State.modDom_hka (s : State) (d : Fin 4) (f : Domain → Domain) : (s.modDom d f).hka = s.hka := rfl
@[simp] theorem State.modDom_ptp (s : State) (d : Fin 4) (f : Domain → Domain) : (s.modDom d f).ptp = s.ptp := rfl
@[simp] theorem State.modDom_dom (s : State) (d : Fin 4) (f : Domain → Domain) : (s.modDom d f).dom d = f (s.dom d) := by
  exact Vector.getElem_set_self d.isLt

/-! An automatic gate in use again -/

@[simp] theorem State.useBlock_pending (s : State) (g : AutoGate) : (s.useBlock g).pending = s.pending := rfl
@[simp] theorem State.useBlock_free (s : State) (g : AutoGate) : (s.useBlock g).free = s.free := rfl
@[simp] theorem State.useBlock_out (s : State) (g : AutoGate) : (s.useBlock g).out = s.out := rfl
@[simp] theorem State.useBlock_od (s : State) (g : AutoGate) : (s.useBlock g).od = s.od := rfl
@[simp] theorem State.useBlock_control (s : State) (g : AutoGate) : (s.useBlock g).control = s.control := rfl
@[simp] theorem State.useBlock_pins (s : State) (g : AutoGate) : (s.useBlock g).pins = s.pins := rfl
@[simp] theorem State.useBlock_arbiter (s : State) (g : AutoGate) : (s.useBlock g).arbiter = s.arbiter := rfl
@[simp] theorem State.useBlock_integrity (s : State) (g : AutoGate) : (s.useBlock g).integrity = s.integrity := rfl
@[simp] theorem State.useBlock_jtag (s : State) (g : AutoGate) : (s.useBlock g).jtag = s.jtag := rfl
@[simp] theorem State.useBlock_routeA (s : State) (g : AutoGate) : (s.useBlock g).routeA = s.routeA := rfl
@[simp] theorem State.useBlock_routeB (s : State) (g : AutoGate) : (s.useBlock g).routeB = s.routeB := rfl
@[simp] theorem State.useBlock_slices (s : State) (g : AutoGate) : (s.useBlock g).slices = s.slices := rfl
@[simp] theorem State.useBlock_loop (s : State) (g : AutoGate) : (s.useBlock g).loop = s.loop := rfl
@[simp] theorem State.useBlock_survey (s : State) (g : AutoGate) : (s.useBlock g).survey = s.survey := rfl
@[simp] theorem State.useBlock_cores (s : State) (g : AutoGate) : (s.useBlock g).cores = s.cores := rfl
@[simp] theorem State.useBlock_capture (s : State) (g : AutoGate) : (s.useBlock g).capture = s.capture := rfl
@[simp] theorem State.useBlock_streams (s : State) (g : AutoGate) : (s.useBlock g).streams = s.streams := rfl
@[simp] theorem State.useBlock_time (s : State) (g : AutoGate) : (s.useBlock g).time = s.time := rfl
@[simp] theorem State.useBlock_sync (s : State) (g : AutoGate) : (s.useBlock g).sync = s.sync := rfl
@[simp] theorem State.useBlock_inputs (s : State) (g : AutoGate) : (s.useBlock g).inputs = s.inputs := rfl
@[simp] theorem State.useBlock_trigIn (s : State) (g : AutoGate) : (s.useBlock g).trigIn = s.trigIn := rfl
@[simp] theorem State.useBlock_dram (s : State) (g : AutoGate) : (s.useBlock g).dram = s.dram := rfl
@[simp] theorem State.useBlock_rows (s : State) (g : AutoGate) : (s.useBlock g).rows = s.rows := rfl
@[simp] theorem State.useBlock_hka (s : State) (g : AutoGate) : (s.useBlock g).hka = s.hka := rfl
@[simp] theorem State.useBlock_ptp (s : State) (g : AutoGate) : (s.useBlock g).ptp = s.ptp := rfl
@[simp] theorem State.useBlock_gatesOpen (s : State) (g : AutoGate) :
    (s.useBlock g).power.gatesOpen = s.power.gatesOpen.filter (fun x => x != g) := rfl

/-! A core updated -/

@[simp] theorem State.modCore_pending (s : State) (c : Fin 8) (f : Core → Core) : (s.modCore c f).pending = s.pending := rfl
@[simp] theorem State.modCore_free (s : State) (c : Fin 8) (f : Core → Core) : (s.modCore c f).free = s.free := rfl
@[simp] theorem State.modCore_out (s : State) (c : Fin 8) (f : Core → Core) : (s.modCore c f).out = s.out := rfl
@[simp] theorem State.modCore_od (s : State) (c : Fin 8) (f : Core → Core) : (s.modCore c f).od = s.od := rfl
@[simp] theorem State.modCore_control (s : State) (c : Fin 8) (f : Core → Core) : (s.modCore c f).control = s.control := rfl
@[simp] theorem State.modCore_power (s : State) (c : Fin 8) (f : Core → Core) : (s.modCore c f).power = s.power := rfl
@[simp] theorem State.modCore_pins (s : State) (c : Fin 8) (f : Core → Core) : (s.modCore c f).pins = s.pins := rfl
@[simp] theorem State.modCore_arbiter (s : State) (c : Fin 8) (f : Core → Core) : (s.modCore c f).arbiter = s.arbiter := rfl
@[simp] theorem State.modCore_integrity (s : State) (c : Fin 8) (f : Core → Core) : (s.modCore c f).integrity = s.integrity := rfl
@[simp] theorem State.modCore_jtag (s : State) (c : Fin 8) (f : Core → Core) : (s.modCore c f).jtag = s.jtag := rfl
@[simp] theorem State.modCore_routeA (s : State) (c : Fin 8) (f : Core → Core) : (s.modCore c f).routeA = s.routeA := rfl
@[simp] theorem State.modCore_routeB (s : State) (c : Fin 8) (f : Core → Core) : (s.modCore c f).routeB = s.routeB := rfl
@[simp] theorem State.modCore_slices (s : State) (c : Fin 8) (f : Core → Core) : (s.modCore c f).slices = s.slices := rfl
@[simp] theorem State.modCore_loop (s : State) (c : Fin 8) (f : Core → Core) : (s.modCore c f).loop = s.loop := rfl
@[simp] theorem State.modCore_survey (s : State) (c : Fin 8) (f : Core → Core) : (s.modCore c f).survey = s.survey := rfl
@[simp] theorem State.modCore_capture (s : State) (c : Fin 8) (f : Core → Core) : (s.modCore c f).capture = s.capture := rfl
@[simp] theorem State.modCore_streams (s : State) (c : Fin 8) (f : Core → Core) : (s.modCore c f).streams = s.streams := rfl
@[simp] theorem State.modCore_time (s : State) (c : Fin 8) (f : Core → Core) : (s.modCore c f).time = s.time := rfl
@[simp] theorem State.modCore_sync (s : State) (c : Fin 8) (f : Core → Core) : (s.modCore c f).sync = s.sync := rfl
@[simp] theorem State.modCore_inputs (s : State) (c : Fin 8) (f : Core → Core) : (s.modCore c f).inputs = s.inputs := rfl
@[simp] theorem State.modCore_trigIn (s : State) (c : Fin 8) (f : Core → Core) : (s.modCore c f).trigIn = s.trigIn := rfl
@[simp] theorem State.modCore_dram (s : State) (c : Fin 8) (f : Core → Core) : (s.modCore c f).dram = s.dram := rfl
@[simp] theorem State.modCore_rows (s : State) (c : Fin 8) (f : Core → Core) : (s.modCore c f).rows = s.rows := rfl
@[simp] theorem State.modCore_hka (s : State) (c : Fin 8) (f : Core → Core) : (s.modCore c f).hka = s.hka := rfl
@[simp] theorem State.modCore_ptp (s : State) (c : Fin 8) (f : Core → Core) : (s.modCore c f).ptp = s.ptp := rfl

/-! A session updated -/

@[simp] theorem State.modSession_pending (s : State) (id : W32) (f : Session → Session) : (s.modSession id f).pending = s.pending := rfl
@[simp] theorem State.modSession_free (s : State) (id : W32) (f : Session → Session) : (s.modSession id f).free = s.free := rfl
@[simp] theorem State.modSession_out (s : State) (id : W32) (f : Session → Session) : (s.modSession id f).out = s.out := rfl
@[simp] theorem State.modSession_od (s : State) (id : W32) (f : Session → Session) : (s.modSession id f).od = s.od := rfl
@[simp] theorem State.modSession_power (s : State) (id : W32) (f : Session → Session) : (s.modSession id f).power = s.power := rfl
@[simp] theorem State.modSession_pins (s : State) (id : W32) (f : Session → Session) : (s.modSession id f).pins = s.pins := rfl
@[simp] theorem State.modSession_arbiter (s : State) (id : W32) (f : Session → Session) : (s.modSession id f).arbiter = s.arbiter := rfl
@[simp] theorem State.modSession_integrity (s : State) (id : W32) (f : Session → Session) : (s.modSession id f).integrity = s.integrity := rfl
@[simp] theorem State.modSession_jtag (s : State) (id : W32) (f : Session → Session) : (s.modSession id f).jtag = s.jtag := rfl
@[simp] theorem State.modSession_routeA (s : State) (id : W32) (f : Session → Session) : (s.modSession id f).routeA = s.routeA := rfl
@[simp] theorem State.modSession_routeB (s : State) (id : W32) (f : Session → Session) : (s.modSession id f).routeB = s.routeB := rfl
@[simp] theorem State.modSession_slices (s : State) (id : W32) (f : Session → Session) : (s.modSession id f).slices = s.slices := rfl
@[simp] theorem State.modSession_loop (s : State) (id : W32) (f : Session → Session) : (s.modSession id f).loop = s.loop := rfl
@[simp] theorem State.modSession_survey (s : State) (id : W32) (f : Session → Session) : (s.modSession id f).survey = s.survey := rfl
@[simp] theorem State.modSession_cores (s : State) (id : W32) (f : Session → Session) : (s.modSession id f).cores = s.cores := rfl
@[simp] theorem State.modSession_capture (s : State) (id : W32) (f : Session → Session) : (s.modSession id f).capture = s.capture := rfl
@[simp] theorem State.modSession_streams (s : State) (id : W32) (f : Session → Session) : (s.modSession id f).streams = s.streams := rfl
@[simp] theorem State.modSession_time (s : State) (id : W32) (f : Session → Session) : (s.modSession id f).time = s.time := rfl
@[simp] theorem State.modSession_sync (s : State) (id : W32) (f : Session → Session) : (s.modSession id f).sync = s.sync := rfl
@[simp] theorem State.modSession_inputs (s : State) (id : W32) (f : Session → Session) : (s.modSession id f).inputs = s.inputs := rfl
@[simp] theorem State.modSession_trigIn (s : State) (id : W32) (f : Session → Session) : (s.modSession id f).trigIn = s.trigIn := rfl
@[simp] theorem State.modSession_dram (s : State) (id : W32) (f : Session → Session) : (s.modSession id f).dram = s.dram := rfl
@[simp] theorem State.modSession_rows (s : State) (id : W32) (f : Session → Session) : (s.modSession id f).rows = s.rows := rfl
@[simp] theorem State.modSession_hka (s : State) (id : W32) (f : Session → Session) : (s.modSession id f).hka = s.hka := rfl
@[simp] theorem State.modSession_ptp (s : State) (id : W32) (f : Session → Session) : (s.modSession id f).ptp = s.ptp := rfl

end Sys2Proof.Machine
end

