-- ==== Sys2Proof/Laws/Bits.lean ====
section
/-! SUPPORT. Bits of a status word: what setting or clearing one bit leaves, and the clock status read after it. -/

namespace Sys2Proof.Machine
open Sys2Proof

/-- Setting or clearing bit k leaves every other bit. -/
theorem bit_setBit (n k j : Nat) (b : Bool) : bit (setBit n k b) j = if k = j then b else bit n j := by
  simp only [bit, setBit]
  cases b
  · simp only [Bool.false_eq_true, if_false]
    by_cases hk : n.testBit k = true
    · rw [if_pos hk]
      have hr := Nat.mod_lt n (Nat.two_pow_pos k)
      have hq : n / 2 ^ k % 2 = 1 := by simpa [Nat.testBit_eq_decide_div_mod_eq] using hk
      have e : n = 2 ^ k * (n / 2 ^ k) + n % 2 ^ k := (Nat.div_add_mod n (2 ^ k)).symm
      have e' : n - 2 ^ k = 2 ^ k * (n / 2 ^ k - 1) + n % 2 ^ k := by
        have hpos : 0 < n / 2 ^ k := by
          generalize n / 2 ^ k = q at hq
          omega
        have : 2 ^ k * (n / 2 ^ k) = 2 ^ k * (n / 2 ^ k - 1) + 2 ^ k := by
          rw [Nat.mul_sub_one, Nat.sub_add_cancel (Nat.le_mul_of_pos_right _ hpos)]
        omega
      rw [e', Nat.testBit_two_pow_mul_add _ hr]
      conv => rhs; rw [e, Nat.testBit_two_pow_mul_add _ hr]
      generalize hq' : n / 2 ^ k = q at *
      by_cases hj : j < k
      · simp [hj, show k ≠ j by omega]
      · by_cases hkj : k = j
        · subst hkj
          have : (q - 1) % 2 = 0 := by omega
          simp [Nat.testBit_zero, this]
        · obtain ⟨m, rfl⟩ : ∃ m, j = k + (m + 1) := ⟨j - k - 1, by omega⟩
          have : (q - 1) / 2 = q / 2 := by omega
          simp [Nat.testBit_succ, this]
    · rw [if_neg hk]
      split
      · rename_i h; subst h; simpa using hk
      · rfl
  · simp only [if_true, Nat.testBit_or, Nat.testBit_two_pow]
    by_cases h : k = j <;> simp [h]

theorem clkBit_clk (s : State) (a b : Nat) (v : Bool) : (s.clk a v).clkBit b = if a = b then v else s.clkBit b := by
  simp [State.clk, State.clkBit, bit_setBit]
end Sys2Proof.Machine
end

