-- ==== Sys2Proof/Laws/Control.lean ====
section
/-! SUPPORT. The laws of requests and writes: what an authentic request comes to, what an answer leaves, and how a write that
passes its checks reaches its object over either transport. -/

namespace Sys2Proof.Machine

open Sys2Proof Sys2Proof.Safety

/-! ### Requests -/

/-- A session is found under its own identifier. -/
theorem session_id {s : State} {id : W32} {x : Session} (h : s.session id = some x) : x.id = id := by
  have := List.find?_some h
  simpa using this

/-- An authentic request is executed and answered, once. -/
theorem request_authentic {s : State} {r : Req} {op flags : Nat} {body : Bytes} {x : Session}
    (f : Session → State → Ans) (h : Authentic s r op flags body x) :
    s.request r op flags body f = s.runRequest r.peer x r.seq.toNat op f := by
  obtain ⟨h1, h2, h3, h4, h5⟩ := h
  simp [State.request, State.requestRaw, h1, h2, h3, h4, h5]

/-- A request that is executed with an answer sends it, and what follows the answer is done. -/
theorem runRequest_some {s u : State} {a : Peer} {x : Session} {seq op n fl : Nat} {b : Bytes} {p : State → State}
    {f : Session → State → Ans} (h : f x s = ⟨some (n, fl, b), u, p⟩) :
    s.runRequest a x seq op f = p (u.answer a x.key x.id seq op fl n b) := by
  simp [State.runRequest, h]

/-- The same when nothing follows the answer. -/
theorem runRequest_id {s u : State} {a : Peer} {x : Session} {seq op n fl : Nat} {b : Bytes} {f : Session → State → Ans}
    (h : f x s = ⟨some (n, fl, b), u, id⟩) : s.runRequest a x seq op f = u.answer a x.key x.id seq op fl n b := by
  simp [State.runRequest, h]

/-- Marking a sequence number changes the sessions and the cache alone, and sends one message. -/
theorem answer_answered (s : State) (a : Peer) (key : Bytes) (id : W32) (seq op fl n : Nat) (b : Bytes) :
    Answered s (s.answer a key id seq op fl n b) := by
  unfold Answered State.answer
  by_cases h : (n == 1 || n == 2) = true
  · exact ⟨_, s.control.sessions, s.control.cache, by simp only [h, if_true]; rfl⟩
  · exact ⟨_, _, _, by simp only [h]; rfl⟩

/-- A touch of read buffers before the answer stays within it. -/
theorem answered_touch {s w : State} {k : Nat} (h : Answered (s.touch k) w) : Answered s w := by
  obtain ⟨m, ss, c, h⟩ := h
  exact ⟨m, ss, c, h⟩

/-! ### Writes over either transport -/

/-- Reversing the bytes of a value twice gives the value. -/
theorem swapWire_swapWire (ty : Ty) (b : Bytes) : swapWire ty (swapWire ty b) = b := by
  cases ty <;> simp only [swapWire, List.reverse_reverse]
  by_cases h : 8 ≤ b.length
  · have e : (b.take 8).reverse.length = 8 := by simp [h]
    rw [List.take_append_of_le_length (by omega), List.take_of_length_le (by omega), List.drop_append_of_le_length (by omega),
      List.drop_of_length_le (by omega)]
    simp
  · have e : b.drop 8 = [] := List.drop_of_length_le (by omega)
    have e2 : b.take 8 = b := List.take_of_length_le (by omega)
    simp only [e, e2, List.reverse_nil, List.append_nil]
    rw [List.take_of_length_le (by simp; omega), List.drop_of_length_le (by simp; omega)]
    simp

/-- A write that passes its checks and is carried out by its object is answered OK over either transport, and what follows
the answer is done. -/
theorem viaWrite_done {s : State} {v : Via} {bist : Option Bool} {level idx sub : Nat} {b : Bytes} {u : State} {p : State → State}
    (hr : Reaches s v level idx sub b)
    (hw : ∀ c ty block, ty = none ∨ ty = some (typeOf idx sub).code → (v = .can → block = true) →
      (Opened v s).writeObject c level v bist idx sub ty block b = ⟨some 0, u, p⟩) :
    ∃ w, Answered u w ∧ s.viaWrite v bist idx sub b = p w := by
  cases v with
  | bdp r =>
    obtain ⟨x, ha, rfl⟩ := hr
    have hw' := hw (.session x.id) (some (typeOf idx sub).code) false (.inr rfl) (fun h => by cases h)
    have hx : Opened (.bdp r) s = s := rfl
    rw [hx] at hw'
    refine ⟨(u.touch (objKey idx sub)).answer r.peer x.key x.id r.seq.toNat 0x02 0 0 (objHead idx sub (typeOf idx sub).code),
      answered_touch (k := objKey idx sub) (answer_answered ..), ?_⟩
    simp only [State.viaWrite, State.bdpWrite]
    rw [request_authentic _ ha]
    apply runRequest_some
    simp [writeOp, hw', Acted.touched, Acted.ans]
  | can =>
    obtain ⟨h1, rfl⟩ := hr
    have hw' := hw .can none true (.inl rfl) (fun _ => rfl)
    refine ⟨(u.touch (objKey idx sub)).sdoSend (sdoFrame 0x60 idx sub [0, 0, 0, 0]),
      answered_touch (k := objKey idx sub) ⟨_, (u.touch (objKey idx sub)).control.sessions, u.control.cache, rfl⟩, ?_⟩
    have hl : (Opened .can s).canLevel = s.canLevel := rfl
    have hx : ({ s with control := { s.control with sdo := none } } : State) = Opened .can s := rfl
    simp only [State.viaWrite, State.canDownload, h1, Bool.not_true, Bool.false_eq_true, if_false, hx, State.canWrite,
      swapWire_swapWire, hl, hw', Acted.touched]
    simp

/-- A write of an object without S and L, of a type that no block transfer is needed for, with its checks passed, does what
its object does. -/
theorem writeObject_act {s : State} {c : Client} {level : Nat} {v : Via} {bist : Option Bool} {idx sub : Nat} {ty : Option Nat}
    {block : Bool} {b : Bytes} {o : ObjRow} {l : Nat} (hf : findObj idx sub = .row o) (hl : o.wr = some l) (hle : l ≤ level)
    (hm : s.mode ≠ 7 ∨ (idx = 0x1300 ∧ sub = 0x01) ∨ (idx = 0x1700 ∧ sub = 0x02)) (hd : s.draftRefused c idx sub o = false)
    (hb : blockOnly o b.length = false) (ht : ty = none ∨ ty = some (typeOf idx sub).code) (hn : lengthOk o.ty b.length = true)
    (hi : inRange o (ofWire o.ty b) = true) :
    s.writeObject c level v bist idx sub ty block b = s.writeAct c level v bist idx sub o (ofWire o.ty b) := by
  have hc : typeOf idx sub = o.ty := by simp [typeOf, hf]
  have hn' : ¬ level < l := by omega
  have hmay : s.mayWrite level idx sub o = 0 := by
    simp only [State.mayWrite, hl, hn', if_false]
    rcases hm with h | ⟨rfl, rfl⟩ | ⟨rfl, rfl⟩ <;> simp [*]
  simp only [State.writeObject, hf, hmay, hd, hn, hi]
  rcases ht with rfl | rfl <;> simp [hb, hc]

theorem opened_num (v : Via) (s : State) (idx sub : Nat) : (Opened v s).num idx sub = s.num idx sub := by cases v <;> rfl

theorem opened_mode (v : Via) (s : State) : (Opened v s).mode = s.mode := by cases v <;> rfl

theorem opened_power (v : Via) (s : State) : (Opened v s).power = s.power := by cases v <;> rfl

theorem opened_od (v : Via) (s : State) : (Opened v s).od = s.od := by cases v <;> rfl

/-- A command that is a write of one acting object, with its checks passed, does what its object does. -/
theorem does_write {i : Instr} {s u : State} {v : Via} {bist : Option Bool} {level idx sub l : Nat} {b : Bytes} {o : ObjRow}
    {p : State → State} (hx : exec i s = .next (s.viaWrite v bist idx sub b).settle) (hr : Reaches s v level idx sub b)
    (hf : findObj idx sub = .row o) (hw : o.wr = some l) (hl : l ≤ level)
    (hm : s.mode ≠ 7 ∨ (idx = 0x1300 ∧ sub = 0x01) ∨ (idx = 0x1700 ∧ sub = 0x02))
    (hd : (o.draft || (idx == 0x1200 && sub == 0x11)) = false) (hb : blockOnly o b.length = false)
    (hn : lengthOk o.ty b.length = true) (hi : inRange o (ofWire o.ty b) = true)
    (ha : ∀ c, (Opened v s).writeAct c level v bist idx sub o (ofWire o.ty b) = ⟨some 0, u, p⟩) : Does i s u p := by
  obtain ⟨w, hw', he⟩ := viaWrite_done (bist := bist) (u := u) (p := p) hr (by
    intro c ty block hty _
    rw [Bool.or_eq_false_iff] at hd
    rw [writeObject_act hf hw hl (by rw [opened_mode]; exact hm) (by simp [State.draftRefused, hd.1, hd.2]) hb hty hn hi]
    exact ha c)
  exact ⟨w, hw', by rw [hx, he]⟩

end Sys2Proof.Machine
end

