-- ==== Sys2Proof/Laws/Forager.lean ====
section
/-! SUPPORT. The laws of a Forager core: what a write of a register leaves, where an instruction goes, what one instruction
does as a whole, and that memory operations keep the canonical form. -/

namespace Sys2Proof.Machine

open Sys2Proof Sys2Proof.Safety

/-! ### A core of the state -/

@[simp] theorem State.setCore_get (s : State) (c : Fin 8) (x : Core) : (s.setCore c x).cores.get c = x := by
  exact Vector.getElem_set_self ..

theorem State.setCore_get_ne (s : State) (c d : Fin 8) (x : Core) (h : d ≠ c) :
    (s.setCore c x).cores.get d = s.cores.get d := by
  have e : c.val ≠ d.val := fun e => h (Fin.ext e.symm)
  exact Vector.getElem_set_ne c.isLt d.isLt e


@[simp] theorem State.setCore_setCore (s : State) (c : Fin 8) (x y : Core) :
    (s.setCore c x).setCore c y = s.setCore c y := by
  simp [State.setCore, Vector.set]

/-! ### Place in the program -/

/-- An operation on a core that leaves its place in the program. -/
def KeepsPlace (f : Core → Core) : Prop := ∀ x, (f x).pc = x.pc ∧ (f x).loops = x.loops ∧ (f x).branch = x.branch

theorem keepsPlace_id : KeepsPlace id := fun _ => ⟨rfl, rfl, rfl⟩

theorem KeepsPlace.comp {f g : Core → Core} (hf : KeepsPlace f) (hg : KeepsPlace g) : KeepsPlace (fun x => g (f x)) := by
  intro x
  obtain ⟨a, b, c⟩ := hg (f x)
  obtain ⟨d, e, h⟩ := hf x
  exact ⟨a.trans d, b.trans e, c.trans h⟩

theorem keepsPlace_setRegIn (i : Fin 16) (b : Bool) (v : W32) : KeepsPlace (fun x => x.setRegIn i b v) := by
  intro x; simp only [Core.setRegIn]; split <;> (try split) <;> exact ⟨rfl, rfl, rfl⟩

theorem keepsPlace_setReg (i : Fin 16) (v : W32) : KeepsPlace (fun x => x.setReg i v) :=
  fun x => keepsPlace_setRegIn i x.shadow v x

theorem keepsPlace_setAdr (i : Fin 8) (v : BitVec 13) : KeepsPlace (fun x => x.setAdr i v) := by
  intro x; simp only [Core.setAdr]; split <;> exact ⟨rfl, rfl, rfl⟩

theorem keepsPlace_modAdr (i : Fin 8) (m : Fin 4) : KeepsPlace (fun x => x.modAdr i m) :=
  fun x => keepsPlace_setAdr i _ x

theorem keepsPlace_setStat (b : Bool) (v : BitVec 16) : KeepsPlace (fun x => x.setStat b v) := by
  intro x; simp only [Core.setStat]; split <;> exact ⟨rfl, rfl, rfl⟩

theorem keepsPlace_markSat (b : Bool) : KeepsPlace (fun x => x.markSat b) :=
  fun x => keepsPlace_setStat b _ x

theorem keepsPlace_setAcc (b : Bool) (v : Int) : KeepsPlace (fun x => x.setAcc b v) := by
  intro x
  cases b <;> cases hs : x.shadow <;> by_cases hv : sat v 72 = v <;>
    simp only [Core.setAcc, hs, hv, if_true, if_false, Bool.false_eq_true] <;>
    first
    | exact ⟨rfl, rfl, rfl⟩
    | exact ⟨trivial, trivial, trivial⟩
    | exact keepsPlace_setStat _ _ _

theorem keepsPlace_land1 (l : Landing) : KeepsPlace (fun x => x.land1 l) := by
  intro x
  simp only [Core.land1]
  split
  · exact (keepsPlace_setRegIn l.reg l.shadow l.value).comp (keepsPlace_markSat l.shadow) x
  · exact keepsPlace_setRegIn l.reg l.shadow l.value x

theorem keepsPlace_land : KeepsPlace Core.land := by
  intro x
  have h : ∀ (l : List Landing), KeepsPlace (fun y => l.foldl Core.land1 y) := by
    intro l
    induction l with
    | nil => exact keepsPlace_id
    | cons e t ih => intro y; exact ((keepsPlace_land1 e).comp ih) y
  exact h x.landing x

/-- Where an instruction goes depends on the place in the program alone, and nothing but the place changes. -/
theorem Core.advance_eq (c : Core) (e : FgEff) :
    c.advance e = { c with pc := (c.advance e).pc, loops := (c.advance e).loops, branch := (c.advance e).branch } := by
  rcases ht : e.target with _ | t
  · rcases hb : c.branch with _ | ⟨k, u⟩
    · simp only [Core.advance, ht, hb]
    · by_cases hk : k ≤ 1 <;> simp only [Core.advance, ht, hb, hk, if_true, if_false]
  · simp only [Core.advance, ht]

theorem Core.advance_place (c d : Core) (e e' : FgEff) (hp : d.pc = c.pc) (hl : d.loops = c.loops) (hb : d.branch = c.branch)
    (ht : e'.target = e.target) (hu : e'.push = e.push) (hs : e'.skip = e.skip) :
    (d.advance e').pc = (c.advance e).pc ∧ (d.advance e').loops = (c.advance e).loops ∧
      (d.advance e').branch = (c.advance e).branch := by
  rcases h : e.target with _ | t
  · rcases hc : c.branch with _ | ⟨k, u⟩
    · simp only [Core.advance, hp, hl, hb, ht, hu, hs, h, hc, and_self]
    · by_cases hk : k ≤ 1 <;> simp only [Core.advance, hp, hl, hb, ht, hu, hs, h, hc, hk, if_true, if_false, and_self]
  · simp only [Core.advance, hp, hl, hb, ht, hu, hs, h, and_self]

/-! ### One instruction -/

theorem Core.ready_iff (c : Core) (w free : W32) :
    c.ready w free = true ↔ c.run ≠ .gated ∧ c.cycles < c.slotRec.w ∧ c.instr c.pc ||| free = w ||| free := by
  simp [Core.ready, and_assoc]

theorem mayIssue_iff (s : State) (core : Fin 8) (w free : W32) :
    MayIssue s core w free ↔ s.mode = 4 ∧ (s.cores.get core).ready w free = true ∧
      (s.cores.get core).flawAt (.p, (s.cores.get core).pc.toNat) = none := by
  rw [Core.ready_iff]; simp only [MayIssue, and_assoc]

/-- What one instruction does, whatever it reads: nothing where its core may not issue it, a load of the core where a word
reads uncorrectable, else its effect with the corrected words counted (R242, R265). -/
theorem checked_eq (core : Fin 8) (w free : W32) (reads : Core → List (CoreMem × Nat)) (go : State → State) (s : State) :
    checked core w free reads go s =
      if s.mode = 4 ∧ (s.cores.get core).ready w free = true then
        if ((((CoreMem.p, (s.cores.get core).pc.toNat) :: reads (s.cores.get core)).filterMap (s.cores.get core).flawAt)).contains true
        then s.coreEcc core
        else go (if (((CoreMem.p, (s.cores.get core).pc.toNat) :: reads (s.cores.get core)).filterMap (s.cores.get core).flawAt).isEmpty
          then s else s.bump (coreIdx core) 0x29
            (((CoreMem.p, (s.cores.get core).pc.toNat) :: reads (s.cores.get core)).filterMap (s.cores.get core).flawAt).length)
      else s := by
  by_cases h : s.mode = 4 ∧ (s.cores.get core).ready w free = true
  · simp [checked, h]
  · rw [if_neg h]
    have : (s.mode == 4 && (s.cores.get core).ready w free) = false := by
      rw [Bool.eq_false_iff]; simpa using h
    simp [checked, this]

/-- An instruction whose words read without an error does its effect. -/
theorem checked_of (core : Fin 8) (w free : W32) (reads : Core → List (CoreMem × Nat)) (go : State → State) (s : State)
    (h : MayIssue s core w free) (hr : ∀ a ∈ reads (s.cores.get core), (s.cores.get core).flawAt a = none) :
    checked core w free reads go s = go s := by
  obtain ⟨h1, h2, h3⟩ := (mayIssue_iff s core w free).1 h
  have e : ((CoreMem.p, (s.cores.get core).pc.toNat) :: reads (s.cores.get core)).filterMap (s.cores.get core).flawAt = [] := by
    rw [List.filterMap_eq_nil_iff]
    intro a ha
    rcases List.mem_cons.1 ha with rfl | ha
    · exact h3
    · exact hr a ha
  rw [checked_eq, if_pos ⟨h1, h2⟩, e]
  rfl

theorem issueWith_of (s : State) (core : Fin 8) (w free : W32) (n : Nat) (f : Core → FgEff) (h : MayIssue s core w free) :
    issueWith core w free n f s = s.setCore core ((s.cores.get core).issue n f) := by
  simp only [issueWith, issueReading]
  rw [checked_of core w free _ _ s h (by simp)]
  rfl

/-- One instruction does nothing, issues on its core with at most one corrected word counted, or its word is uncorrectable. -/
theorem issueWith_cases (s : State) (core : Fin 8) (w free : W32) (n : Nat) (f : Core → FgEff) :
    issueWith core w free n f s = s ∨
      (MayIssue s core w free ∧ issueWith core w free n f s = s.setCore core ((s.cores.get core).issue n f)) ∨
      issueWith core w free n f s = (s.bump (coreIdx core) 0x29 1).setCore core ((s.cores.get core).issue n f) ∨
      issueWith core w free n f s = s.coreEcc core := by
  by_cases h : s.mode = 4 ∧ (s.cores.get core).ready w free = true
  · rcases hf : (s.cores.get core).flawAt (.p, (s.cores.get core).pc.toNat) with _ | b
    · exact .inr (.inl ⟨(mayIssue_iff s core w free).2 ⟨h.1, h.2, hf⟩, issueWith_of s core w free n f ((mayIssue_iff s core w free).2 ⟨h.1, h.2, hf⟩)⟩)
    · cases b
      · refine .inr (.inr (.inl ?_))
        simp only [issueWith, issueReading]
        rw [checked_eq, if_pos h]
        simp [hf, State.modCore]
      · refine .inr (.inr (.inr ?_))
        simp only [issueWith, issueReading]
        rw [checked_eq, if_pos h]
        simp [hf]
  · left
    simp only [issueWith, issueReading]
    rw [checked_eq, if_neg h]

/-- An instruction that issues completes as its effect says. -/
theorem completes_of {i : Instr} {s : State} {core : Fin 8} {w free : W32} {n : Nat} {F : Core → FgEff}
    {late : List Landing} {f : Core → Core} {e : FgEff}
    (hx : exec i s = .next (issueWith core w free n F s).settle) (hm : MayIssue s core w free)
    (hl : (F (s.cores.get core)).late = late) (hw : (F (s.cores.get core)).write (s.cores.get core).land = f (s.cores.get core).land)
    (hp : KeepsPlace f) (ht : (F (s.cores.get core)).target = e.target) (hu : (F (s.cores.get core)).push = e.push)
    (hs : (F (s.cores.get core)).skip = e.skip) :
    Completes i s core n late f e := by
  rw [issueWith_of s core w free n F hm] at hx
  have hc : ((s.setCore core ((s.cores.get core).issue n F)).settle).cores.get core = (s.cores.get core).issue n F := by simp
  refine ⟨_, hx, ?_, ?_, ?_, ?_, ?_⟩
  · show _ = (s.setCore core _).settle
    rw [hc]
  · rw [hc]
    simp only [SameRegisters, Core.issue, hw]
    conv => lhs; rw [Core.advance_eq]
  · rw [hc]
    obtain ⟨a, b, c⟩ := (keepsPlace_land.comp hp) (s.cores.get core)
    have := Core.advance_place (s.cores.get core) (f (s.cores.get core).land) e (F (s.cores.get core)) a b c ht hu hs
    simpa only [PlaceAfter, Core.issue, hw] using this
  · rw [hc]; exact hl
  · rw [hc]; rfl

/-! ### Memories -/

theorem memory_wf_iff (d : W32) (m : WordMem) : Memory.wf d m = true ↔ mapRising m = true ∧ ∀ e ∈ m, e.2 ≠ d := by
  simp [Memory.wf]

theorem mem_mapSet_val {α : Type} (m : Map α) (k : Nat) (v : α) (e : Nat × α) (h : e ∈ mapSet m k v) : e.2 = v ∨ e ∈ m := by
  induction m with
  | nil => simp [mapSet] at h; simp [h]
  | cons d t ih =>
    obtain ⟨i, w⟩ := d
    simp only [mapSet] at h
    split at h
    · rcases List.mem_cons.1 h with h | h
      · simp [h]
      · exact .inr h
    · split at h
      · rcases List.mem_cons.1 h with h | h
        · simp [h]
        · exact .inr (List.mem_cons_of_mem _ h)
      · rcases List.mem_cons.1 h with h | h
        · exact .inr (by simp [h])
        · rcases ih h with h | h
          · exact .inl h
          · exact .inr (List.mem_cons_of_mem _ h)

/-- A write of a word keeps the canonical form. -/
theorem memPut_wf (m : WordMem) (a : Nat) (v : W32) (h : Memory.wf 0 m = true) : Memory.wf 0 (memPut m a v) = true := by
  rw [memory_wf_iff] at h ⊢
  unfold memPut
  split
  · exact ⟨mapRising_mapDel m _ h.1, fun e he => h.2 e (List.mem_of_mem_filter he)⟩
  · next hv =>
    refine ⟨mapRising_mapSet m _ v h.1, fun e he => ?_⟩
    rcases mem_mapSet_val m _ v e he with h' | h'
    · exact h' ▸ hv
    · exact h.2 e h'

/-- Writes of consecutive words keep the canonical form. -/
theorem memPutAll_wf (m : WordMem) (a : Nat) (l : List W32) (h : Memory.wf 0 m = true) : Memory.wf 0 (memPutAll m a l) = true := by
  unfold memPutAll
  generalize l.zip (List.range l.length) = z
  induction z generalizing m with
  | nil => exact h
  | cons e t ih => exact ih _ (memPut_wf m _ _ h)

/-- A word reads as it was written; every other word reads as before. -/
theorem memWord_memPut (m : WordMem) (a b : Nat) (v : W32) :
    memWord (memPut m a v) b = if a % 8192 = b % 8192 then v else memWord m b := by
  unfold memWord memPut
  split
  · next hv =>
    rw [mapGet_mapDel]
    split <;> simp [hv]
  · rw [mapGet_mapSet]
    split <;> simp

/-- The two spellings of saturation agree. -/
theorem sat_clamp (w : Nat) (x : Int) : sat x w = clampTo w x := by
  have h : (0 : Int) < 2 ^ (w - 1) := Int.pow_pos (by decide)
  simp only [sat, clampTo]
  repeat' split
  all_goals omega

/-- An instruction that may issue changes its core alone. -/
theorem issueWith_next {i : Instr} {s : State} {core : Fin 8} {w free : W32} {n : Nat} {F : Core → FgEff}
    (hx : exec i s = .next (issueWith core w free n F s).settle) (hm : MayIssue s core w free) :
    ∃ t, exec i s = .next t ∧ OnlyCore s t core ∧ t.cores.get core = (s.cores.get core).issue n F := by
  rw [issueWith_of s core w free n F hm] at hx
  have hc : ((s.setCore core ((s.cores.get core).issue n F)).settle).cores.get core = (s.cores.get core).issue n F := by simp
  refine ⟨_, hx, ?_, hc⟩
  show _ = (s.setCore core _).settle
  rw [hc]

/-- Landing results leaves the memories. -/
theorem land_mem (c : Core) : c.land.x = c.x ∧ c.land.y = c.y ∧ c.land.p = c.p := by
  have hr : ∀ (x : Core) (i : Fin 16) (b : Bool) v, (x.setRegIn i b v).x = x.x ∧ (x.setRegIn i b v).y = x.y ∧ (x.setRegIn i b v).p = x.p := by
    intro x i b v; simp only [Core.setRegIn]; split <;> (try split) <;> exact ⟨rfl, rfl, rfl⟩
  have hm : ∀ (x : Core) (b : Bool), (x.markSat b).x = x.x ∧ (x.markSat b).y = x.y ∧ (x.markSat b).p = x.p := by
    intro x b; simp only [Core.markSat, Core.setStat]; split <;> exact ⟨rfl, rfl, rfl⟩
  have h1 : ∀ (x : Core) (l : Landing), (x.land1 l).x = x.x ∧ (x.land1 l).y = x.y ∧ (x.land1 l).p = x.p := by
    intro x l
    obtain ⟨a, b, c⟩ := hr x l.reg l.shadow l.value
    obtain ⟨d, e, f⟩ := hm (x.setRegIn l.reg l.shadow l.value) l.shadow
    simp only [Core.land1]; split
    · exact ⟨d.trans a, e.trans b, f.trans c⟩
    · exact ⟨a, b, c⟩
  have : ∀ (l : List Landing) (x : Core), (l.foldl Core.land1 x).x = x.x ∧ (l.foldl Core.land1 x).y = x.y ∧ (l.foldl Core.land1 x).p = x.p := by
    intro l; induction l with
    | nil => intro x; exact ⟨rfl, rfl, rfl⟩
    | cons e t ih => intro x; obtain ⟨a, b, c⟩ := ih (x.land1 e); obtain ⟨d, e, f⟩ := h1 x e; exact ⟨a.trans d, b.trans e, c.trans f⟩
  exact this c.landing c

/-- The address update leaves the memories. -/
theorem modAdr_mem (c : Core) (a : Fin 8) (m : Fin 4) : (c.modAdr a m).x = c.x ∧ (c.modAdr a m).y = c.y ∧ (c.modAdr a m).p = c.p := by
  simp only [Core.modAdr, Core.setAdr]; split <;> exact ⟨rfl, rfl, rfl⟩

/-- The address update does not read the memories. -/
theorem modAdr_eq (c : Core) (a : Fin 8) (m : Fin 4) (x y : WordMem) :
    ({ c with x := x, y := y } : Core).modAdr a m = { c.modAdr a m with x := x, y := y } := by
  cases hb : (decide (4 ≤ a.val) && c.shadow)
  · have hb' : (decide (4 ≤ a.val) && Core.shadow { c with x := x, y := y }) = false := hb
    simp only [Core.modAdr, Core.setAdr, Core.adr, hb, hb', Bool.false_eq_true, if_false]
  · have hb' : (decide (4 ≤ a.val) && Core.shadow { c with x := x, y := y }) = true := hb
    simp only [Core.modAdr, Core.setAdr, Core.adr, hb, hb', if_true]

end Sys2Proof.Machine
end

