-- ==== Sys2Proof/Laws/Records.lean ====
section
/-! SUPPORT. What issuing a record leaves: the stream engine, the values drawn and the counts that records move, nothing
else; and the record stands last in the log. -/

namespace Sys2Proof.Machine

open Sys2Proof Sys2Proof.Safety

theorem sameChannels_refl (x : Vector Dram 2) : SameChannels x x := fun _ => rfl

theorem sameChannels_trans {x y z : Vector Dram 2} (h : SameChannels x y) (h' : SameChannels y z) : SameChannels x z := by
  intro ch
  have a := h ch
  rw [← h' ch] at a
  exact a

/-- One channel of two replaced by one that differs in its requests alone. -/
theorem sameChannels_set (x : Vector Dram 2) (ch : Fin 2) (d : Dram) (h : { d with queue := (x.get ch).queue } = x.get ch) :
    SameChannels x (x.set ch d) := by
  intro c
  rw [vget_set]
  split
  · rename_i e
    rw [show c = ch from Fin.ext e.symm]
    exact h
  · rfl

theorem recorded_refl (s : State) : Recorded s s := ⟨s.free, s.streams, s.od, s.dram, rfl, fun _ _ => rfl, sameChannels_refl _⟩

theorem recorded_trans {s t u : State} (h : Recorded s t) (h' : Recorded t u) : Recorded s u := by
  obtain ⟨f, st, od, d, rfl, hk, hd⟩ := h
  obtain ⟨f', st', od', d', rfl, hk', hd'⟩ := h'
  exact ⟨f', st', od', d', rfl, fun k hn => (hk' k hn).trans (hk k hn), sameChannels_trans hd hd'⟩

/-- A change of the stream engine alone. -/
theorem recorded_streams (s : State) (x : Streams) : Recorded s { s with streams := x } :=
  ⟨s.free, x, s.od, s.dram, rfl, fun _ _ => rfl, sameChannels_refl _⟩

/-! ### Requests of the DRAM -/

/-- Of the whole state only requests of the DRAM have been added. -/
def Requested (s t : State) : Prop := ∃ d, t = { s with dram := d } ∧ SameChannels s.dram d

theorem requested_refl (s : State) : Requested s s := ⟨s.dram, rfl, sameChannels_refl _⟩

theorem requested_trans {s t u : State} (h : Requested s t) (h' : Requested t u) : Requested s u := by
  obtain ⟨d, rfl, hd⟩ := h
  obtain ⟨d', rfl, hd'⟩ := h'
  exact ⟨d', rfl, sameChannels_trans hd hd'⟩

theorem requested_foldl {α : Type} (f : State → α → State) (h : ∀ s x, Requested s (f s x)) :
    ∀ (l : List α) (s : State), Requested s (l.foldl f s)
  | [], s => requested_refl s
  | x :: l, s => requested_trans (h s x) (requested_foldl f h l (f s x))

/-- A request enters one queue, and nothing else changes. -/
theorem requested_request1 (s : State) (ch : Fin 2) (b cls : Nat) (w : Work) (dl : Option Nat) : Requested s (s.request1 ch b cls w dl) := by
  unfold State.request1
  split
  · exact ⟨_, rfl, sameChannels_set _ _ _ rfl⟩
  · exact requested_refl s

theorem requested_requestSpan (s : State) (a n cls : Nat) (w : Work) (dl : Option Nat) : Requested s (s.requestSpan a n cls w dl) := by
  unfold State.requestSpan
  exact requested_foldl _ (fun s i => requested_request1 s _ _ _ _ _) _ s

theorem requested_requestLocal (s : State) (ch : Fin 2) (a n cls : Nat) (w : Work) : Requested s (s.requestLocal ch a n cls w) := by
  unfold State.requestLocal
  exact requested_foldl _ (fun s i => requested_request1 s _ _ _ _ _) _ s

/-- The requests of a frame change nothing but the queues. -/
theorem requested_requestFrame (s : State) (stream route fcount off n : Nat) (dl : Option Nat) :
    Requested s (s.requestFrame stream route fcount off n dl) := by
  unfold State.requestFrame
  simp only
  split
  · exact requested_requestLocal ..
  · split
    · exact requested_requestLocal ..
    · exact requested_requestSpan ..

theorem recorded_requested {s t : State} (h : Requested s t) : Recorded s t := by
  obtain ⟨d, rfl, hd⟩ := h
  exact ⟨s.free, s.streams, s.od, d, rfl, fun _ _ => rfl, hd⟩

theorem requested_streams {s t : State} (h : Requested s t) : t.streams = s.streams := by
  obtain ⟨d, rfl, -⟩ := h
  rfl

/-- A write of an object that records move. -/
theorem recorded_put (s : State) (idx sub n : Nat) (h : objKey idx sub ∈ recordKeys) : Recorded s (s.put idx sub n) := by
  refine ⟨s.free, s.streams, _, s.dram, rfl, fun k hk => ?_, sameChannels_refl _⟩
  rw [dictGet_dictSet, if_neg]
  rintro rfl
  exact hk h

theorem recorded_bump (s : State) (idx sub n : Nat) (h : objKey idx sub ∈ recordKeys) : Recorded s (s.bump idx sub n) :=
  recorded_put s idx sub _ h

theorem recorded_draw (s : State) : Recorded s s.draw.2 :=
  ⟨s.free + 1, s.streams, s.od, s.dram, rfl, fun _ _ => rfl, sameChannels_refl _⟩

/-- The two ways a hand-over counts the copies that do not leave. -/
theorem recorded_counts (s : State) (late : Bool) (k n : Nat) (st : Streams) (h : st.log = s.streams.log) :
    let t : State := { (if late then s.bump (streamIdx 7) 0x13 k
      else ((s.bump (streamIdx 7) 0x13 k).bump (streamIdx 7) 0x11 n).bump 0x2000 0x18 n) with streams := st }
    Recorded s t ∧ t.streams.log = s.streams.log := by
  have a := recorded_bump s (streamIdx 7) 0x13 k (by decide)
  cases late
  · exact ⟨recorded_trans (recorded_trans (recorded_trans a (recorded_bump _ (streamIdx 7) 0x11 n (by decide)))
      (recorded_bump _ 0x2000 0x18 n (by decide))) (recorded_streams _ st), h⟩
  · exact ⟨recorded_trans a (recorded_streams _ st), h⟩

theorem counts_log (s : State) (late : Bool) (k n : Nat) :
    (if late then s.bump (streamIdx 7) 0x13 k
      else ((s.bump (streamIdx 7) 0x13 k).bump (streamIdx 7) 0x11 n).bump 0x2000 0x18 n).streams.log = s.streams.log := by
  cases late <;> rfl

/-- What a hand-over leaves of an event frame, the log apart. -/
theorem recorded_handOver (s : State) (d : FrameDesc) (hd : d.stream = 7) :
    Recorded s (s.handOver d).2 ∧ (s.handOver d).2.streams.log = s.streams.log := by
  cases h : (s.streamLinks d.stream).isEmpty
  · simp only [State.handOver, h, Bool.false_eq_true, if_false]
    rw [hd]
    refine ⟨recorded_trans ?_ (recorded_requested (requested_requestFrame ..)), ?_⟩
    · refine (recorded_counts s _ _ _ _ ?_).1
      exact counts_log s _ _ _
    · rw [requested_streams (requested_requestFrame ..)]
      exact counts_log s _ _ _
  · simp only [State.handOver, h, if_true]
    exact ⟨recorded_refl s, trivial⟩

/-- The hand-over of a gathered frame, where the mode sends one. -/
theorem recorded_sent (s : State) (b : Bool) (d : FrameDesc) (hd : d.stream = 7) :
    Recorded s (if b then (s.handOver d).2 else s) ∧ (if b then (s.handOver d).2 else s).streams.log = s.streams.log := by
  cases b
  · exact ⟨recorded_refl s, rfl⟩
  · exact recorded_handOver s d hd

theorem recorded_closeGathered (s : State) : Recorded s s.closeGathered ∧ s.closeGathered.streams.log = s.streams.log := by
  cases h : s.streams.gathered.isEmpty
  · simp only [State.closeGathered, h, Bool.false_eq_true, if_false]
    exact ⟨recorded_trans (recorded_streams s _) (recorded_sent _ _ _ rfl).1, (recorded_sent _ _ _ rfl).2⟩
  · simp only [State.closeGathered, h, if_true]
    exact ⟨recorded_refl s, trivial⟩

theorem recorded_closed (s : State) (b : Bool) :
    Recorded s (if b then s.closeGathered else s) ∧ (if b then s.closeGathered else s).streams.log = s.streams.log := by
  cases b
  · exact ⟨recorded_refl s, rfl⟩
  · exact recorded_closeGathered s

theorem recorded_queued (s : State) (st : Streams) (b : Bool) (h : st.log = s.streams.log) :
    Recorded s (if b then { s with streams := st } else s.bump 0x2970 0x15 1) ∧
      (if b then { s with streams := st } else s.bump 0x2970 0x15 1).streams.log = s.streams.log := by
  cases b
  · exact ⟨recorded_bump s 0x2970 0x15 1 (by decide), rfl⟩
  · exact ⟨recorded_streams s st, h⟩

theorem recorded_gather (s : State) (e : EventRec) : Recorded s (s.gather e) ∧ (s.gather e).streams.log = s.streams.log := by
  by_cases h : (s.streams.queue.isEmpty && decide (s.streams.gathered.length < 32)) = true
  · simp only [State.gather, h, if_true]
    exact ⟨recorded_trans (recorded_streams s _) (recorded_closed _ _).1, (recorded_closed _ _).2⟩
  · simp only [State.gather, h, Bool.false_eq_true, if_false]
    have := recorded_queued s { s.streams with queue := s.streams.queue ++ [{ e with seq := s.streams.seq }], seq := (s.streams.seq + 1) % 2 ^ 32 }
      (decide (s.streams.queue.length < 1024)) rfl
    simpa only [decide_eq_true_eq] using this

/-- The last record of the ring, however many are kept. -/
theorem getLast_keep (l : List EventRec) (e : EventRec) (k : Nat) (h : 0 < k) :
    ((l ++ [e]).drop ((l ++ [e]).length - k)).getLast? = some e := by
  rw [List.getLast?_drop, if_neg (by simp; omega)]
  simp

theorem getLast_drop (l : List EventRec) (e : EventRec) :
    ((l ++ [e]).drop ((l ++ [e]).length - 16384)).getLast? = some e := getLast_keep l e 16384 (by decide)

/-- A logged record stands last in the log. -/
theorem recorded_logRecord (s : State) (e : EventRec) (h : isLogged e.type = true) :
    Recorded s (s.logRecord e) ∧ (s.logRecord e).streams.log.getLast? = some e := by
  unfold State.logRecord
  simp only [h, if_true]
  refine ⟨recorded_trans (recorded_trans (recorded_streams s _) (recorded_put _ 0x5000 0x01 _ (by decide))) (recorded_put _ 0x5000 0x02 _ (by decide)), ?_⟩
  have hl : ∀ (t : State) a b, ((t.put 0x5000 0x01 a).put 0x5000 0x02 b).streams.log = t.streams.log := fun _ _ _ => rfl
  rw [hl]
  simp only [getLast_drop]

/-- A record is issued, and stands last in the log where its type is logged; while no Keeper runs it is latched. -/
theorem records_issueAt (s : State) (type source route position : Nat) (value aux : Int) (cmask : Nat) (h : isLogged type = true) :
    Records s (s.issueAt type source route position value aux cmask) type := by
  have hold : Recorded s (s.holdRec (s.faultRec type source route position value aux cmask)) ∧
      (s.holdRec (s.faultRec type source route position value aux cmask)).streams.held.getLast? = some (s.faultRec type source route position value aux cmask) :=
    ⟨recorded_streams s _, by simp [State.holdRec]⟩
  have log : ∃ e, (s.issueRec (s.faultRec type source route position value aux cmask)).streams.log.getLast? = some e ∧ e.type = type ∧
      Recorded s (s.issueRec (s.faultRec type source route position value aux cmask)) := by
    unfold State.issueRec
    obtain ⟨a, b⟩ := recorded_logRecord s { s.faultRec type source route position value aux cmask with seq := s.streams.seq } h
    obtain ⟨c, d⟩ := recorded_gather (s.logRecord { s.faultRec type source route position value aux cmask with seq := s.streams.seq })
      { s.faultRec type source route position value aux cmask with seq := s.streams.seq }
    exact ⟨_, d ▸ b, rfl, recorded_trans a c⟩
  unfold State.issueAt Records NewestRecord
  cases s.power.dead
  · obtain ⟨e, a, b, c⟩ := log
    exact ⟨c, e, a, b⟩
  · exact ⟨hold.1, _, hold.2, rfl⟩

theorem records_issue (s : State) (type source : Nat) (value aux : Int) (h : isLogged type = true) :
    Records s (s.issue type source value aux) type := records_issueAt s type source 3 0 value aux 0 h

theorem records_issueR (s : State) (r : Route) (type source : Nat) (value aux : Int) (h : isLogged type = true) :
    Records s (s.issueR r type source value aux) type := records_issueAt s type source _ 0 value aux 0 h

theorem records_issueOpen (s : State) (type source : Nat) (aux : Int) (h : isLogged type = true) :
    Records s (s.issueOpen type source aux) type := by
  obtain ⟨a, b⟩ := records_issue s.draw.2 type source (toSigned (s.draw.1 % 2 ^ 32) 32) aux h
  exact ⟨recorded_trans (recorded_draw s) a, b⟩

/-- An object that records do not move keeps its number. -/
theorem recorded_num {s t : State} (h : Recorded s t) (idx sub : Nat) (hk : objKey idx sub ∉ recordKeys) : t.num idx sub = s.num idx sub := by
  obtain ⟨f, st, od, d, rfl, hod, -⟩ := h
  show (dictGet od _).toNat = (dictGet s.od _).toNat
  rw [hod _ hk]

end Sys2Proof.Machine
end

