-- ==== Sys2Proof/Laws/Time.lean ====
section
/-! SUPPORT. What a change of the reference in use leaves (R346, R347, R349 to R351): the loop's outputs and its runs, the
records of the state, the lane of the oscillator, nothing else. -/

namespace Sys2Proof.Machine

open Sys2Proof Sys2Proof.Safety

/-- The objects that the loop moves: what records move, state, reference, y_d, OCXO code and holdover time. -/
def timeKeys : List Nat :=
  [objKey 0x1400 0x20, objKey 0x1400 0x21, objKey 0x1400 0x24, objKey 0x1400 0x25, objKey 0x1400 0x27] ++ recordKeys

/-- State t is s but for what the loop moves. -/
def TimeFrame (s t : State) : Prop :=
  ∃ free streams od dram cdac lockRun farRun ppsTheta ptpThetas syncTheta fresh holdNs marks states,
    t = { s with
      free := free, streams := streams, od := od, dram := dram, pins := { s.pins with cdac := cdac }
      time := { s.time with lockRun := lockRun, farRun := farRun, ppsTheta := ppsTheta, ptpThetas := ptpThetas, syncTheta := syncTheta,
                            fresh := fresh, holdNs := holdNs, marks := marks, states := states } } ∧
    (∀ k, k ∉ timeKeys → dictGet od k = dictGet s.od k) ∧ SameChannels s.dram dram

theorem timeFrame_refl (s : State) : TimeFrame s s :=
  ⟨s.free, s.streams, s.od, s.dram, s.pins.cdac, s.time.lockRun, s.time.farRun, s.time.ppsTheta, s.time.ptpThetas, s.time.syncTheta, s.time.fresh,
    s.time.holdNs, s.time.marks, s.time.states, rfl, fun _ _ => rfl, sameChannels_refl _⟩

theorem timeFrame_trans {s t u : State} (h : TimeFrame s t) (h' : TimeFrame t u) : TimeFrame s u := by
  obtain ⟨f, st, od, d, c, a1, a2, a3, a4, a5, a6, a7, a8, a9, rfl, hk, hd⟩ := h
  obtain ⟨f', st', od', d', c', b1, b2, b3, b4, b5, b6, b7, b8, b9, rfl, hk', hd'⟩ := h'
  exact ⟨f', st', od', d', c', b1, b2, b3, b4, b5, b6, b7, b8, b9, rfl, fun k hn => (hk' k hn).trans (hk k hn), sameChannels_trans hd hd'⟩

theorem timeFrame_recorded {s t : State} (h : Recorded s t) : TimeFrame s t := by
  obtain ⟨f, st, od, d, rfl, hk, hd⟩ := h
  exact ⟨f, st, od, d, s.pins.cdac, s.time.lockRun, s.time.farRun, s.time.ppsTheta, s.time.ptpThetas, s.time.syncTheta, s.time.fresh,
    s.time.holdNs, s.time.marks, s.time.states, rfl, fun k hn => hk k (fun hm => hn (List.mem_append_right _ hm)), hd⟩

theorem timeFrame_put (s : State) (idx sub n : Nat) (h : objKey idx sub ∈ timeKeys) : TimeFrame s (s.put idx sub n) := by
  refine ⟨s.free, s.streams, _, s.dram, s.pins.cdac, s.time.lockRun, s.time.farRun, s.time.ppsTheta, s.time.ptpThetas, s.time.syncTheta,
    s.time.fresh, s.time.holdNs, s.time.marks, s.time.states, rfl, fun k hk => ?_, sameChannels_refl _⟩
  rw [dictGet_dictSet, if_neg]
  rintro rfl
  exact hk h

/-- A change of state is noted with its instant. -/
theorem timeFrame_states (s : State) (l : List (Nat × Nat)) : TimeFrame s (s.modTime (fun t => { t with states := l })) :=
  ⟨s.free, s.streams, s.od, s.dram, s.pins.cdac, s.time.lockRun, s.time.farRun, s.time.ppsTheta, s.time.ptpThetas, s.time.syncTheta,
    s.time.fresh, s.time.holdNs, s.time.marks, l, rfl, fun _ _ => rfl, sameChannels_refl _⟩

theorem timeFrame_setLane (s : State) (l : Fin 8) (c : Nat) : TimeFrame s (s.setLane l c) :=
  ⟨s.free, s.streams, s.od, s.dram, s.pins.cdac.set l c, s.time.lockRun, s.time.farRun, s.time.ppsTheta, s.time.ptpThetas, s.time.syncTheta,
    s.time.fresh, s.time.holdNs, s.time.marks, s.time.states, rfl, fun _ _ => rfl, sameChannels_refl _⟩

/-- The runs, the measurements and the marks of the loop changed. -/
theorem timeFrame_loop (s : State) (a b : Nat) (c : Option Int) (d : List Int) (e : Option Int) (f : Bool) (g : Nat) :
    TimeFrame s (s.modTime (fun t => { t with lockRun := a, farRun := b, ppsTheta := c, ptpThetas := d, syncTheta := e, fresh := f, holdNs := g })) :=
  ⟨s.free, s.streams, s.od, s.dram, s.pins.cdac, a, b, c, d, e, f, g, s.time.marks, s.time.states, rfl, fun _ _ => rfl, sameChannels_refl _⟩

/-- A change of rate marks the instant and sets y_d. -/
theorem timeFrame_setRate (s : State) (yd : Int) : TimeFrame s (s.setRate yd) := by
  refine ⟨s.free, s.streams, _, s.dram, s.pins.cdac, s.time.lockRun, s.time.farRun, s.time.ppsTheta, s.time.ptpThetas, s.time.syncTheta,
    s.time.fresh, s.time.holdNs, _, s.time.states, rfl, fun k hk => ?_, sameChannels_refl _⟩
  show dictGet (dictSet s.od (objKey 0x1400 0x24) _) k = _
  rw [dictGet_dictSet, if_neg]
  rintro rfl
  exact hk (by decide)

/-- A change of rate leaves every number but y_d. -/
theorem setRate_num (s : State) (yd : Int) (i j : Nat) (h : objKey i j ≠ objKey 0x1400 0x24) : (s.setRate yd).num i j = s.num i j := by
  show (dictGet (dictSet s.od (objKey 0x1400 0x24) _) (objKey i j)).toNat = _
  rw [dictGet_dictSet, if_neg (Ne.symm h)]; rfl

/-- Entering a time state changes the state, the holdover time and what its record moves. -/
theorem timeFrame_toTimeState (s : State) (n : Nat) : TimeFrame s (s.toTimeState n) := by
  unfold State.toTimeState
  split
  · exact timeFrame_refl s
  · exact timeFrame_trans (timeFrame_states s _) (timeFrame_trans (timeFrame_put _ _ _ _ (by decide))
      (timeFrame_trans (timeFrame_put _ _ _ _ (by decide)) (timeFrame_recorded (records_issue _ _ _ _ _ (by decide)).1)))

theorem timeFrame_steer (s : State) (p : Int) : TimeFrame s (s.steer p) := by
  unfold State.steer
  by_cases h : (s.num 0x1400 0x01 == 1) = true
  · simp only [h, if_true]
    exact timeFrame_trans (timeFrame_setLane s _ _) (timeFrame_trans (timeFrame_put _ _ _ _ (by decide)) (timeFrame_setRate _ _))
  · simp only [h, Bool.false_eq_true, if_false]
    exact timeFrame_setRate _ _

theorem timeFrame_useReference (s : State) (kind : Nat) : TimeFrame s (s.useReference kind) := by
  unfold State.useReference
  split
  · exact timeFrame_refl s
  · have h0 : TimeFrame s ((s.put 0x1400 0x21 kind).modTime (fun t => { t with lockRun := 0, farRun := 0, ppsTheta := none, ptpThetas := [], syncTheta := none })) :=
      timeFrame_trans (timeFrame_put s _ _ _ (by decide)) (timeFrame_loop _ 0 0 none [] none s.time.fresh s.time.holdNs)
    simp only
    generalize ((s.put 0x1400 0x21 kind).modTime (fun t => { t with lockRun := 0, farRun := 0, ppsTheta := none, ptpThetas := [], syncTheta := none })) = u at h0 ⊢
    have hl : ∀ (f : Bool) (g : Nat), TimeFrame s (u.modTime (fun t => { t with fresh := f, holdNs := g })) := fun f g =>
      timeFrame_trans h0 (timeFrame_loop u u.time.lockRun u.time.farRun u.time.ppsTheta u.time.ptpThetas u.time.syncTheta f g)
    have hf : TimeFrame s (u.modTime (fun t => { t with fresh := false })) := hl false u.time.holdNs
    split
    · exact h0
    · split
      · split
        · exact timeFrame_trans h0 (timeFrame_toTimeState _ _)
        · exact hl true u.time.holdNs
      · split
        · exact timeFrame_trans (timeFrame_trans (hl false u.time.ns) (timeFrame_steer _ _)) (timeFrame_toTimeState _ _)
        · split
          · exact timeFrame_trans (timeFrame_trans hf (timeFrame_steer _ _)) (timeFrame_toTimeState _ _)
          · exact hf

/-- Choosing the reference moves only what the loop moves. -/
theorem timeFrame_chooseReference (s : State) (back : Bool) : TimeFrame s (s.chooseReference back) := by
  unfold State.chooseReference
  simp only
  split
  · exact timeFrame_refl s
  · split
    · exact timeFrame_useReference _ _
    · split <;> exact timeFrame_useReference _ _

/-- An object that the loop does not move keeps its number. -/
theorem timeFrame_num {s t : State} (h : TimeFrame s t) (idx sub : Nat) (hk : objKey idx sub ∉ timeKeys) : t.num idx sub = s.num idx sub := by
  obtain ⟨f, st, od, d, c, a1, a2, a3, a4, a5, a6, a7, a8, a9, rfl, hod, -⟩ := h
  show (dictGet od _).toNat = (dictGet s.od _).toNat
  rw [hod _ hk]

/-- After a presence bit is set it reads so, whatever reference is chosen. -/
theorem setPresent_bit (s : State) (b : Nat) (v : Bool) (hb : ∀ n, bit (setBit n b v) b = v) : bit ((s.setPresent b v).num 0x1400 0x26) b = v := by
  unfold State.setPresent
  split
  · rename_i h; simpa using h
  · rw [timeFrame_num (timeFrame_chooseReference _ _) _ _ (by decide)]
    simp [hb]

/-- The reference named first is in use once it is chosen back while present. -/
theorem refInUse_useReference (s : State) (kind : Nat) : (s.useReference kind).refInUse = kind := by
  unfold State.useReference
  split
  · rename_i h; exact (by simpa using h : kind = s.refInUse).symm
  · have h0 : ∀ u : State, u.refInUse = kind → ∀ n, (u.toTimeState n).refInUse = kind := by
      intro u hu n
      unfold State.toTimeState
      split
      · exact hu
      · unfold State.refInUse
        rw [recorded_num (records_issue _ _ _ _ _ (by decide)).1 _ _ (by decide)]
        simpa [State.refInUse, objKey] using hu
    have h1 : ∀ u : State, u.refInUse = kind → ∀ p, (u.steer p).refInUse = kind := by
      intro u hu p
      unfold State.steer State.refInUse
      by_cases h : (u.num 0x1400 0x01 == 1) = true
      · simp only [h, if_true]
        rw [setRate_num _ _ _ _ (by decide)]
        simpa [objKey, State.refInUse] using hu
      · simp only [h, Bool.false_eq_true, if_false]
        rw [setRate_num _ _ _ _ (by decide)]
        exact hu
    have h2 : ∀ f, (((s.put 0x1400 0x21 kind).modTime f)).refInUse = kind := by intro f; simp [State.refInUse]
    simp only
    split
    · exact h2 _
    · split
      · split
        · exact h0 _ (h2 _) _
        · simp [State.refInUse]
      · split
        · exact h0 _ (h1 _ (by simp [State.refInUse]) _) _
        · split
          · exact h0 _ (h1 _ (by simp [State.refInUse]) _) _
          · simp [State.refInUse]

/-- Judging θ moves what the loop moves. -/
theorem judge_frame (s : State) (th : Int) : TimeFrame s (s.judgeLock th) := by
  have hl : ∀ (t : State) a b, TimeFrame t (t.modTime (fun u => { u with lockRun := a, farRun := b })) := fun t a b =>
    timeFrame_loop t a b t.time.ppsTheta t.time.ptpThetas t.time.syncTheta t.time.fresh t.time.holdNs
  unfold State.judgeLock
  simp only
  generalize hu : State.modTime s _ = u
  have h0 : TimeFrame s u := hu ▸ hl s _ _
  cases (u.timeState == 2 && decide (16 ≤ u.time.lockRun))
  · cases (u.timeState == 3 && decide (4 ≤ u.time.farRun))
    · exact h0
    · exact timeFrame_trans h0 (timeFrame_trans (hl u 0 u.time.farRun) (timeFrame_toTimeState _ _))
  · exact timeFrame_trans h0 (timeFrame_toTimeState _ _)

/-- The state that a change of state leaves. -/
theorem ts_to (s : State) (n : Nat) : (s.toTimeState n).timeState = n := by
  unfold State.toTimeState
  split
  · rename_i h; simpa using h
  · unfold State.timeState
    rw [recorded_num (records_issue _ _ _ _ _ (by decide)).1 _ _ (by decide)]
    simp

/-- Steering leaves the state. -/
theorem steer_ts (s : State) (p : Int) : (s.steer p).timeState = s.timeState := by
  unfold State.steer State.timeState
  by_cases h : (s.num 0x1400 0x01 == 1) = true
  · simp only [h, if_true]
    rw [setRate_num _ _ _ _ (by decide)]
    simp [objKey]
  · simp only [h, Bool.false_eq_true, if_false]
    exact setRate_num _ _ _ _ (by decide)

/-- The sixteenth θ in a row within the threshold locks (Table 13.2). -/
theorem judge_lock (s : State) (th : Int) (h1 : s.timeState = 2) (h2 : s.time.lockRun = 15) (h3 : (th.natAbs : Int) ≤ s.lockLimit) :
    (s.judgeLock th).timeState = 3 := by
  unfold State.judgeLock
  simp only
  generalize hu : State.modTime s _ = u
  have a : u.timeState = 2 := hu ▸ h1
  have b : u.time.lockRun = 16 := by
    rw [← hu]
    show (if decide ((th.natAbs : Int) ≤ s.lockLimit) = true then s.time.lockRun + 1 else 0) = 16
    rw [decide_eq_true h3, h2]; rfl
  rw [if_pos (by simp [a, b])]
  exact ts_to _ _

/-- The fourth θ in a row beyond four times the threshold unlocks (Table 13.2). -/
theorem judge_far (s : State) (th : Int) (h1 : s.timeState = 3) (h2 : s.time.farRun = 3) (h3 : 4 * s.lockLimit < (th.natAbs : Int)) :
    (s.judgeLock th).timeState = 2 := by
  unfold State.judgeLock
  simp only
  generalize hu : State.modTime s _ = u
  have a : u.timeState = 3 := hu ▸ h1
  have b : u.time.farRun = 4 := by
    rw [← hu]
    show (if decide (4 * s.lockLimit < (th.natAbs : Int)) = true then s.time.farRun + 1 else 0) = 4
    rw [decide_eq_true h3, h2]; rfl
  rw [if_neg (by simp [a]), if_pos (by simp [a, b])]
  exact ts_to _ _

end Sys2Proof.Machine
end

