-- ==== Sys2Proof/WellFormed.lean ====
section
/-! DEFINITION. The commands that the hardware's own formats allow: operands held within the widths and lengths that a
message, a converter or a table gives them. The meaning of a command does not ask for this check: it is total on every
operand. -/

namespace Sys2Proof

/-- A value within lo to hi. -/
def within (lo hi x : Int) : Bool := decide (lo ≤ x) && decide (x ≤ hi)

/-- A request carries a 16-byte MAC (R317). -/
def Req.wf (r : Req) : Bool := r.mac.length == 16

/-- A write over BDP carries a well-formed request. -/
def Via.wf : Via → Bool
  | .bdp r => r.wf
  | .can => true

/-- A fragment holds 1 to 1,388 bytes of data (Table 12.2). -/
def Fragment.wf (f : Fragment) : Bool := decide (1 ≤ f.data.length) && decide (f.data.length ≤ 1388)

/-- A correction set within the fields of Table 4.5. -/
def CorrSet.wf (c : CorrSet) : Bool :=
  within (-1024) 1024 c.offsetI && within (-1024) 1024 c.offsetQ && decide (c.gainI < 2 ^ 18) && decide (c.gainQ < 2 ^ 18) &&
    within (-(2 ^ 17)) (2 ^ 17 - 1) c.cross && within (-160) 160 c.skew

/-- Measured figures of a foreground run: offsets within the codes, gains in the format u2.16 of Table 4.5, phases of 32 bits. -/
def ToneFigures.wf (t : ToneFigures) : Bool :=
  within (-2048) 2047 t.offsetI && within (-2048) 2047 t.offsetQ && decide (t.gainI < 2 ^ 18) && decide (t.gainQ < 2 ^ 18) &&
    within (-(2 ^ 31)) (2 ^ 31 - 1) t.inner && within (-(2 ^ 31)) (2 ^ 31 - 1) t.outer

/-- A 12-bit code (R107). -/
def wfCrx (x : Int) : Bool := within (-2048) 2047 x

/-- Two 12-bit codes. -/
def LaneSample.wf (x : LaneSample) : Bool := wfCrx x.i && wfCrx x.q

/-- Four 12-bit codes. -/
def RawSample.wf (x : RawSample) : Bool := wfCrx x.xi && wfCrx x.xq && wfCrx x.yi && wfCrx x.yq

/-- A 16-bit DRX code (R190). -/
def wfDrx (x : Int) : Bool := within (-32768) 32767 x

/-- 64 baseline samples, 64 zero samples, 256 tone samples and the pulse's samples (Table 7.2). -/
def DrxSamples.wf (d : DrxSamples) : Bool :=
  d.baseline.length == 64 && d.zero.length == 64 && d.tone.length == 256 &&
    (d.baseline ++ d.samples ++ d.zero ++ d.tone).all wfDrx

/-- A stamp or instant that a TIME80 can hold, in 2^-16 ns. -/
def wfInstant (t : Int) : Bool := within 0 (2 ^ 80 - 1) t

/-- The operands lie within the formats of the manual. -/
def Instr.wf : Instr → Bool
  | .read r _ _ _ => r.wf
  | .write r _ _ _ val => r.wf && decide (val.length ≤ 1396)
  | .readBlock r _ _ _ _ => r.wf
  | .writeBlock r f _ _ => r.wf && f.wf
  | .commit v _ | .abortDraft v _ => v.wf
  | .abortBlockWrite r => r.wf
  | .subscribeCancel r _ _ _ | .subscribeOnChange r _ _ _ | .subscribePeriodic r _ _ _ => r.wf
  | .openSession _ _ level nonce => decide (level.toNat ≤ 3) && nonce.length == 16
  | .proof _ _ _ p => p.length == 32
  | .closeSession r => r.wf
  | .bdpInvalidRequest _ _ raw => decide (raw.length ≤ 1416)
  | .sdoDownload _ _ segmented val => segmented || (decide (1 ≤ val.length) && decide (val.length ≤ 4))
  | .sdoSegment _ _ val => decide (1 ≤ val.length) && decide (val.length ≤ 7)
  | .imageImport r f | .firmwareImage r f => r.wf && f.wf
  | .admissionTrial v | .activateFirmware v | .modeRequestHibernate v | .modeRequestReady v | .modeRequestSentinel v
  | .modeRequestSense v | .modeRequestSurvey v | .modeRequestMaintenance v | .warmResetRequest v | .coldResetRequest v
  | .surveyRunRequest v | .register v | .retrainRequest v | .sequenceRequest v | .scanEnable v | .clearLog v => v.wf
  | .restoreRequest v _ | .calibrationRequest v _ | .attenuationCalibrationRequest v _ => v.wf
  | .bankSelect v _ bank => v.wf && decide (bank.toNat ≤ 3)
  | .rangeSweepComplete _ sets => sets.length == 8 && sets.all CorrSet.wf
  | .foregroundRunComplete _ x y => x.wf && y.wf
  | .blindPeriodEnd _ _ _ _ => true
  | .drxWindowEnd _ stokes anti => stokes.wf && anti.wf
  | .agcIntervalEnd _ x y => x.length == y.length && x.all LaneSample.wf && y.all LaneSample.wf
  | .aprDecision _ raw => raw.all RawSample.wf
  | .launchCompressed _ raw _ => raw.all RawSample.wf
  | .seta _ _ _ => true
  | .hostTrigger v _ | .reArm v _ => v.wf
  | .tsEdge _ _ held _ => decide (1 ≤ held)
  | .frequencyGateEnd n tFirst tLast => decide (n < 2 ^ 32) && wfInstant tFirst && wfInstant tLast && decide (tFirst ≤ tLast)
  | .timeSet v _ _ => v.wf
  | .tdcCalibrationComplete hits =>
    hits.length == 10 && hits.all (fun h => h.length == 128 && h.foldl (· + ·) 0 == 2 ^ 20)
  | .syncLeaderMessage bits edge => bits.length == 157 && decide (edge.ago < 100000)
  | .syncDelayReq m edge => m.bits.length == 83 && decide (edge.ago < 100000)
  | .syncTrigger m => m.bits.length == 83
  | .injectedTrigger v | .hkaCalibrationStart v => match v with
    | some x => x.wf
    | none => true
  | .dramTrainingComplete _ t _ => t.eyes.length == 8
  | .conversionComplete _ outputs => outputs.all (within (-(2 ^ 23)) (2 ^ 23))
  | .alwaysOnSource v _ | .domainSource v _ _ | .gateRequest v _ | .bistRequest v _ | .faultClear v _ => v.wf
  | _ => true

end Sys2Proof
end

