-- ==== Sys2Proof/Tests/Slice0.lean ====
section
/-! SUPPORT. The model's own tests: the manual's worked figures, ill-formed commands that the check of `Instr.wf` refuses, and
for every statement states and operands that meet the hypotheses of each of its clauses. Each test is about one step on a small state. -/

namespace Sys2Proof.Tests

open Sys2Proof Sys2Proof.Machine Sys2Proof.Safety

/-! ### Small states -/

/-- A device past bring-up in a mode: Keeper A holds authority, NET0 is up, both crystals and every PLL are in lock, CAN holds level V. -/
def dev (mode : Nat) (od : Dict) : State :=
  { State.reset with
    od := [(0x111010, .num 1), (0x111405, .num 0), (0x114005, .num 3), (0x130002, .num mode), (0x150003, .num 0x0FFF)] ++ od
    power := { Power.reset with bringUp := none, safeRequest := false }
    arbiter := { State.reset.arbiter with stateA := .active, stateB := .standby, holder := some .a } }

/-- The device with one route's optics. -/
def optic (s : State) (o : Optics) : State := { s with routeA := { s.routeA with optics := o } }

/-- The state that a command leaves. -/
def after (i : Instr) (s : State) : State :=
  match exec i s with
  | .next t => t
  | _ => s

/-- A core that may issue the word `w`. -/
def fgCore (w : W32) : Core := { Core.reset with p := [(0, w)], run := .frame, record := List.replicate 64 1 }

/-- The device in SENSE with that core as core 0. -/
def fg (c : Core) : State := { dev 4 [] with cores := (dev 4 []).cores.set 0 c }

/-- A launch in flight. -/
def launch : Launch :=
  { seq := 0, shot := 0, group := 0, ns := 0, apr := false, aprState := 0, range := 1, c := 0, edge := false, closed := false, missing := false,
    judged := false, compressed := false, gainStep := false, calStep := false, flags := 0, cseq := 0, bound := 0 }

/-- An open session at level V. -/
def sess : Session := { id := 7, level := 3, key := [], highest := 0, window := [], read := none, block := none, notifySeq := 0 }

/-- The device with that session. -/
def served (mode : Nat) (x : Session) : State := { dev mode [] with control := { Control.reset with sessions := [x] } }

/-- A request of that session, sealed for its operation and body. -/
def sealedReq (op flags : Nat) (body : Bytes) : Req :=
  { peer := ⟨.net0, 1, 2⟩, session := 7, seq := 5, mac := bdpMac [] (bdpMessage op flags 0 7 5 body) }

/-! ### The manual's worked figures -/

/-- Worked rounding of 00_scope.md. -/
theorem test_rounding : rhu (-5) 1 = -2 ∧ rhu 5 1 = 3 ∧ rhu (-7) 1 = -3 ∧ sat 40000 16 = 32767 ∧ sat (-40000) 16 = -32768 := by decide

/-- TIME80 of 00_scope.md: count 0x3E8, fraction 0x8000 is 1000.5 ns. -/
theorem test_time80 : ofTime80 [0, 0, 0, 0, 0, 0, 0x03, 0xE8, 0x80, 0] = 1000 * 65536 + 32768 := by decide

/-- Worked correction of 03_probe_drive.md, L = 180 ns. -/
theorem test_origin_correction :
    originCorrection true 0 (180 * 128 + 96 - 128 * 180) = 0 ∧ originCorrection true 0 (180 * 128 + 97 - 128 * 180) = 1 := by decide

/-- Worked threshold of 03_probe_drive.md: 3.0 dB below 1,250,000,000. -/
theorem test_threshold : theta 1250000000 30 = 626484042 := by decide +kernel

/-- Worked crossing of 10_capture.md: 34,390 ns and 40,960 / 65,536. -/
theorem test_crossing : crossing 1001 (-1200) 2800 62500 = 34390 * 65536 + 40960 := by decide

/-- Worked block of 11_streams_codec.md. -/
theorem test_pannier_block : pannierBlock [[120, 95, -40, 300], [118, 99, -37, 298]] 0 1 0 4 = [0x44, 0x78, 0xA6] := by decide

/-- Worked exchange of 12_dictionary.md: the message before its MAC. -/
theorem test_write_message : bdpMessage 0x02 0 0 0x3A51 41 (objHead 0x2610 0x1E 5 ++ [12]) =
    [0x01, 0x02, 0x00, 0x00, 0x00, 0x00, 0x3A, 0x51, 0x00, 0x00, 0x00, 0x29, 0x00, 0x05, 0x00, 0x00, 0x26, 0x10, 0x1E, 0x05, 0x0C] := by decide

/-- Worked merge of 06_survey_loop.md: A the reference at 164 against 160. -/
theorem test_merge : (mergeStep { u := 0, ua := 0, ub := 0, mpA := true, mpB := true, mseq := 0 } 0
    (some ⟨52121, 164, 1⟩) (some ⟨84969, 160, 1⟩)).state.u = 52141 := by decide

/-- Worked coil reading of 15_housekeeping_adc.md: 24.000 °C. -/
theorem test_coil : coilTc [] 4586331 = some 24000 := by decide +kernel

/-- Worked mapping of 14_memory.md: burst 9,297 lies in rank 0, bank 7, row 18. -/
theorem test_mapping : (dev 4 []).burstPlace 9297 = (0, 7, 18) := by decide

/-! ### Ill-formed commands -/

/-- A MAC of 15 bytes. -/
def badReq : Req := { peer := ⟨.net0, 0, 0⟩, session := 1, seq := 1, mac := List.replicate 15 0 }

/-- A request with a MAC of 16 bytes. -/
def goodReq : Req := { badReq with mac := List.replicate 16 0 }

/-- A correction set whose offset passes 64 LSB. -/
def badSet : CorrSet := { offsetI := 1025, offsetQ := 0, gainI := 65536, gainQ := 65536, cross := 0, skew := 0 }

/-- A correction set within Table 4.5. -/
def goodSet : CorrSet := { badSet with offsetI := 0 }

/-- Measured figures whose phase passes 32 bits. -/
def badFigures : ToneFigures := { offsetI := 0, offsetQ := 0, gainI := 65536, gainQ := 65536, inner := 2 ^ 31, outer := 0 }

/-- Measured figures of a run. -/
def goodFigures : ToneFigures := { badFigures with inner := 5 }

/-- The samples of one lane, all zero. -/
def goodDrx : DrxSamples := { baseline := List.replicate 64 0, samples := [], zero := List.replicate 64 0, tone := List.replicate 256 0 }

theorem refuse_mac : (Instr.read badReq false 0 0).wf = false ∧ (Instr.write badReq 0 0 5 [1]).wf = false ∧
    (Instr.readBlock badReq 0 0 ⟨0, 1⟩ []).wf = false ∧ (Instr.writeBlock badReq ⟨false, true, 0, 4, [1]⟩ 0 0).wf = false ∧
    (Instr.commit (.bdp badReq) false).wf = false ∧ (Instr.abortDraft (.bdp badReq) false).wf = false ∧ (Instr.abortBlockWrite badReq).wf = false ∧
    (Instr.subscribeCancel badReq 0 0 10).wf = false ∧ (Instr.subscribeOnChange badReq 0 0 10).wf = false ∧
    (Instr.subscribePeriodic badReq 0 0 10).wf = false ∧ (Instr.closeSession badReq).wf = false := by decide +kernel

theorem refuse_write_mac : (Instr.admissionTrial (.bdp badReq)).wf = false ∧ (Instr.modeRequestSense (.bdp badReq)).wf = false ∧
    (Instr.restoreRequest (.bdp badReq) .a).wf = false ∧ (Instr.bankSelect (.bdp badReq) .a 0).wf = false ∧
    (Instr.hostTrigger (.bdp badReq) 0).wf = false ∧ (Instr.timeSet (.bdp badReq) 0 0).wf = false ∧
    (Instr.injectedTrigger (some (.bdp badReq))).wf = false ∧ (Instr.faultClear (.bdp badReq) true).wf = false := by decide +kernel

theorem refuse_lengths : (Instr.write goodReq 0 0 5 (List.replicate 1397 0)).wf = false ∧ (Instr.writeBlock goodReq ⟨false, true, 0, 4, []⟩ 0 0).wf = false ∧
    (Instr.imageImport goodReq ⟨false, true, 0, 4, List.replicate 1389 0⟩).wf = false ∧ (Instr.openSession ⟨.net0, 0, 0⟩ 0 4 (List.replicate 16 0)).wf = false ∧
    (Instr.openSession ⟨.net0, 0, 0⟩ 0 3 (List.replicate 15 0)).wf = false ∧ (Instr.proof ⟨.net0, 0, 0⟩ 0 1 (List.replicate 31 0)).wf = false ∧
    (Instr.bdpInvalidRequest goodReq 0 (List.replicate 1417 0)).wf = false ∧ (Instr.sdoDownload 0 0 false []).wf = false ∧
    (Instr.sdoDownload 0 0 false [1, 2, 3, 4, 5]).wf = false ∧ (Instr.sdoSegment false false (List.replicate 8 0)).wf = false := by decide +kernel

theorem refuse_samples : (Instr.bankSelect .can .a 4).wf = false ∧ (Instr.rangeSweepComplete .a [goodSet]).wf = false ∧
    (Instr.rangeSweepComplete .a (List.replicate 8 badSet)).wf = false ∧ (Instr.foregroundRunComplete .a goodFigures badFigures).wf = false ∧
    (Instr.drxWindowEnd .a { goodDrx with zero := [] } goodDrx).wf = false ∧
    (Instr.drxWindowEnd .a goodDrx { goodDrx with tone := List.replicate 256 32768 }).wf = false ∧ (Instr.agcIntervalEnd .a [⟨0, 0⟩] [⟨2048, 0⟩]).wf = false ∧
    (Instr.aprDecision .a [⟨0, -2049, 0, 0⟩]).wf = false ∧ (Instr.launchCompressed .a [⟨2048, 0, 0, 0⟩] false).wf = false ∧
    (Instr.conversionComplete 0 [8388609]).wf = false ∧ (Instr.agcIntervalEnd .a [⟨0, 0⟩] []).wf = false ∧
    (Instr.dramTrainingComplete 0 ⟨none, []⟩ 0).wf = false := by decide +kernel

theorem refuse_stamps : (Instr.tsEdge 0 true 0 0).wf = false ∧ (Instr.frequencyGateEnd 2 5 4).wf = false ∧ (Instr.frequencyGateEnd (2 ^ 32) 4 5).wf = false ∧
    (Instr.frequencyGateEnd 2 (-1) 5).wf = false ∧ (Instr.tdcCalibrationComplete []).wf = false ∧ (Instr.syncLeaderMessage (List.replicate 156 false) ⟨0, 0⟩).wf = false ∧
    (Instr.syncLeaderMessage (List.replicate 157 false) ⟨100000, 0⟩).wf = false ∧ (Instr.syncDelayReq ⟨0, List.replicate 82 false⟩ ⟨0, 0⟩).wf = false ∧
    (Instr.syncTrigger ⟨0, List.replicate 84 false⟩).wf = false := by decide +kernel

/-- What the check accepts, one of each shape. -/
theorem accept_commands : (Instr.read goodReq true 0x1300 2).wf = true ∧ (Instr.commit .can true).wf = true ∧ (Instr.bankSelect .can .a 3).wf = true ∧
    (Instr.foregroundRunComplete .a goodFigures goodFigures).wf = true ∧ (Instr.drxWindowEnd .b goodDrx goodDrx).wf = true ∧
    (Instr.frequencyGateEnd 2 4 5).wf = true ∧ (Instr.nop 0).wf = true ∧ (Instr.conversionComplete 0 [8388608]).wf = true ∧ (Instr.hkaCalibrationStart none).wf = true := by decide +kernel

/-! ### The hypotheses can be met: step, reset and the Forager -/

theorem witness_StepRunsTheFrontCommand : ({ dev 4 [] with pending := [.nop 0] } : State).pending = .nop 0 :: [] := rfl

theorem witness_EmptyQueue : (dev 4 []).pending = [] ∧ (dev 4 []).sampleClock = true ∧ (dev 0 []).sampleClock = false ∧
    (∀ i, ((dev 4 []).inputs.get i).queue = []) ∧ (dev 4 []).pins.blank = false ∧
    (∀ ch, ((dev 4 []).dram.get ch).queue = [] ∧ ((dev 4 []).dram.get ch).debt.get 0 = 0 ∧ ((dev 4 []).dram.get ch).debt.get 1 = 0) := by decide

/-- A step of the reset state answers a next state; a cycle of the clock is one ns at the nominal rate. -/
theorem witness_OutputsFollowTheirCauses : ∃ t, step State.reset = .next t := ⟨_, rfl⟩

theorem test_clock_cycle : (match step (dev 4 []) with
    | .next t => (t.time.ns, t.time.frac)
    | _ => (0, 0)) = (1, 0) := by decide

theorem witness_GeneralRegisters : (1 : Fin 16) ≠ 0 ∧ (1 : Fin 16) ≠ 9 := by decide

/-- Every word may be issued somewhere: this meets the hypotheses of every statement about one instruction. -/
theorem witness_mayIssue (w free : W32) : MayIssue (fg (fgCore w)) 0 w free := by
  refine ⟨rfl, nofun, of_decide_eq_true rfl, ?_, rfl⟩
  rfl

theorem witness_LoopInstructions (w : W32) : MayIssue (fg (fgCore w)) 0 w 0 ∧ (fgCore w).loops.length < 3 ∧
    MayIssue (fg { fgCore w with loops := [⟨0, 9, 2⟩, ⟨0, 9, 2⟩, ⟨0, 9, 2⟩] }) 0 w 0 ∧
    MayIssue (fg { fgCore w with loops := [⟨0, 9, 2⟩] }) 0 w 0 ∧ (9 : BitVec 12) < 10 ∧ (0 : BitVec 16) ≠ 1 :=
  ⟨witness_mayIssue w 0, of_decide_eq_true rfl, ⟨rfl, nofun, of_decide_eq_true rfl, rfl, rfl⟩, ⟨rfl, nofun, of_decide_eq_true rfl, rfl, rfl⟩,
    by decide, by decide⟩

theorem witness_BranchesAndLoops : Core.reset.loops = [] ∧ Core.reset.branch = none ∧
    (let l : LoopLevel := ⟨0, 0, 2⟩
     l.stop = Core.reset.pc ∧ l.count ≠ 1 ∧ ({ l with count := 1 } : LoopLevel).count = 1 ∧ ({ l with stop := 3 } : LoopLevel).stop ≠ Core.reset.pc) ∧
    (let c := { Core.reset with branch := some (1, 9), loops := [⟨3, 5, 2⟩] }
     c.branch = some (1, 9) ∧ ∀ k ∈ c.loops.head?, k.stop ≠ c.pc) := by decide

/-- A taken branch out of the inner of two bodies pops it alone. -/
theorem test_branch_pops : let c := { Core.reset with pc := 4, branch := some (1, 8), loops := [⟨3, 5, 2⟩, ⟨1, 9, 2⟩] }
    (c.advance {}).pc = 8 ∧ (c.advance {}).loops = [⟨1, 9, 2⟩] := by decide

/-- A body of count 2 starts again with count 1, and is left after its last pass. -/
theorem test_loop_passes : let c := { Core.reset with pc := 5, loops := [⟨3, 5, 2⟩] }
    (c.advance {}).pc = 3 ∧ (c.advance {}).loops = [⟨3, 5, 1⟩] ∧ ({ c with loops := [⟨3, 5, 1⟩] }.advance {}).pc = 6 := by decide

theorem witness_OutputAndEvents (w : W32) : MayIssue (fg (fgCore w)) 0 w 0 ∧ (fgCore w).outBuf.length < (fgCore w).slotRec.omax ∧
    (fgCore w).evtBuf.length < (fgCore w).slotRec.vmax ∧
    (let c := { fgCore w with record := List.replicate 12 1 ++ List.replicate 52 0, outBuf := [1], evtBuf := [] }
     c.slotRec.omax ≤ c.outBuf.length ∧ c.slotRec.vmax ≤ c.evtBuf.length) :=
  ⟨witness_mayIssue w 0, of_decide_eq_true rfl, of_decide_eq_true rfl, of_decide_eq_true rfl, of_decide_eq_true rfl⟩

theorem witness_ProgramEnds (w : W32) (e : EventRec) : (let c := { fgCore w with run := .handler, taken := [e] }
    MayIssue (fg c) 0 w 0 ∧ c.run = .handler ∧ c.taken = e :: []) ∧ MayIssue (fg (fgCore w)) 0 w 0 ∧ (fgCore w).run = .frame :=
  ⟨⟨⟨rfl, nofun, of_decide_eq_true rfl, rfl, rfl⟩, rfl, rfl⟩, witness_mayIssue w 0, rfl⟩

/-- No word of that core holds an error. -/
theorem witness_words_without_error (w : W32) (q : CoreMem × Nat) : (fgCore w).flawAt q = none := rfl

/-- An input frame that may still be served. -/
def inFrame : InputFrame :=
  { desc := [], block := [], transferred := true, order := 0, routeStart := false, routeCode := 0, fcount := 0, tstart := 0, period := 0, quality := 0,
    first := 0, count := 0, pitch := 0, pos := 0, cseq := 0, deadline := 200000, closing := 0 }

/-- Core 0 of an enabled device with that frame waiting in slot 0. -/
def waits : State :=
  { dev 4 [(0x270001, .num 1)] with cores := (dev 4 []).cores.set 0 { Core.reset with slots := Vector.replicate 4 { FSlot.reset with waiting := some inFrame } } }

theorem witness_InvocationsBegin : ((waits.cores.get 0).fslot 0).waiting = some inFrame ∧ waits.coreRuns 0 = true ∧ (waits.cores.get 0).run = .gated ∧
    (waits.cores.get 0).nextSlot = some 0 ∧ waits.cyc < inFrame.lateFrom := by decide

theorem test_invocation : ((after (.invocationStart 0 ⟨0, []⟩) waits).cores.get 0).cycles = 16 := by decide

theorem witness_InvocationsAreAborted : (let s := fg { fgCore 0 with record := [] }
    s.mode = 4 ∧ (s.cores.get 0).run ≠ .gated ∧ (s.cores.get 0).slotRec.w ≤ (s.cores.get 0).cycles ∧ (s.cores.get 0).slot = 0) ∧
    (waits.mode = 4 ∧ (waits.cores.get 0).run = .gated ∧ ((waits.cores.get 0).fslot 0).waiting.isSome = true) := by decide

/-- A core about to load whose word in X holds an error, corrected or not. -/
def flawed (b : Bool) : State := fg { fgCore (encM 0x30 1 2 3) with flaws := [⟨.x, 0, b⟩] }

theorem witness_LoadErrors : (flawed true).mode = 4 ∧ ((flawed true).cores.get 0).ready (encM 0x30 1 2 3) 0 = true ∧
    ((flawed true).cores.get 0).flawAt (((flawed true).cores.get 0).place 2) = some true ∧
    ((flawed false).cores.get 0).ready (encM 0x30 1 2 3) 0 = true ∧
    ((flawed false).cores.get 0).flawAt (.p, ((flawed false).cores.get 0).pc.toNat) = none ∧
    ((flawed false).cores.get 0).flawAt (((flawed false).cores.get 0).place 2) = some false ∧
    ((fg { fgCore (encM 0x30 1 2 3) with flaws := [⟨.p, 0, true⟩] }).cores.get 0).flawAt (.p, 0) = some true := by decide

theorem witness_KeepMemoriesCanonical : CoreMemories ((fg (fgCore (encM 0x31 1 2 3))).cores.get 0) ∧
    ∃ t, exec (.st 0 1 2 3) (fg (fgCore (encM 0x31 1 2 3))) = .next t := ⟨⟨by decide, by decide, by decide⟩, _, rfl⟩

/-- Decoding by a core is by the words of Table 9.4: ADD g3, g1, g2 is 0x01312000. -/
theorem test_word_add : encR 0x01 3 1 2 = 0x01312000#32 ∧ encI 0x20 1 0 0xFFFF = 0x2010FFFF#32 ∧ encM 0x30 4 2 1 = 0x30448000#32 := by decide

/-! ### The hypotheses can be met: the control protocol -/

/-- Every request can be authentic: in READY, of an open session, with its MAC. -/
theorem witness_authentic (op flags : Nat) (body : Bytes) : Authentic (served 2 sess) (sealedReq op flags body) op flags body sess :=
  ⟨rfl, by decide, rfl, rfl, rfl⟩

/-- The same in MAINTENANCE and in SAFE. -/
theorem witness_authentic_modes (op flags : Nat) (body : Bytes) : Authentic (served 6 sess) (sealedReq op flags body) op flags body sess ∧
    Authentic (served 7 sess) (sealedReq op flags body) op flags body sess :=
  ⟨⟨rfl, by decide, rfl, rfl, rfl⟩, rfl, by decide, rfl, rfl, rfl⟩

/-- Every write can reach the dictionary over either transport. -/
theorem witness_reaches (idx sub : Nat) (b : Bytes) :
    Reaches (dev 2 []) .can 3 idx sub b ∧
      Reaches (served 2 sess) (.bdp (sealedReq 0x02 0 (objHead idx sub (typeOf idx sub).code ++ b))) 3 idx sub b :=
  ⟨⟨by decide, by decide⟩, sess, witness_authentic .., rfl⟩

theorem witness_SessionsOpen (ch : Challenge) : (served 2 sess).bdpServes .net0 = true ∧ (served 2 sess).mode ≠ 1 ∧ (3 : Byte).toNat ≤ 3 ∧
    (List.replicate 16 (0 : Byte)).length = 16 ∧ (served 2 sess).control.lockout = false ∧ (served 2 sess).integrity.otpLocked = false ∧
    (served 2 sess).control.sessions.length < 16 ∧
    ({ Control.reset with challenges := [{ ch with id := 9 }] } : Control).challenges.find? (fun x => x.id == 9) = some { ch with id := 9 } ∧
    (List.replicate 32 (0 : Byte)).length = 32 ∧ ({ Control.reset with lockout := true } : Control).lockout = true :=
  ⟨by decide, by decide, by decide, rfl, rfl, rfl, by decide, rfl, rfl, rfl⟩

theorem witness_SessionsEnd : ((served 2 sess).session 7).isSome = true ∧
    ({ served 2 sess with control := { Control.reset with holder := some .can } } : State).control.holder = some .can := by decide

theorem witness_ReadsAnswer : (∃ o, findObj 0x1300 0x02 = .row o ∧ o.rd = some 0 ∧ o.ty ≠ .domain ∧ o.ty ≠ .str ∧ 0 ≤ sess.level) ∧
    (∃ o, findObj 0x2900 0x05 = .row o ∧ o.ty = .domain ∧ o.rd.isSome = true) ∧ captureData 0x2900 0x05 = none ∧
    (let b : ReadBuf := ⟨objKey 0x2900 0x05, [1, 2, 3, 4], false⟩
     b.copy.length ≤ 65536 ∧ (4 : W32).toNat ≤ b.copy.length) := ⟨⟨_, rfl, by decide⟩, ⟨_, rfl, by decide⟩, by decide, by decide⟩

theorem witness_StagedWrites : (∃ o l, findObj 0x2610 0x1E = .row o ∧ o.draft = true ∧ o.live = false ∧ o.wr = some l ∧ l ≤ 3 ∧
    blockOnly o [12].length = false ∧ lengthOk o.ty [12].length = true ∧ inRange o (ofWire o.ty [12]) = true) ∧ (dev 2 []).mode ≠ 7 ∧
    ∀ h, (dev 2 []).control.holder = some h → h = Client.can := ⟨⟨_, 2, rfl, by decide⟩, by decide, nofun⟩

theorem witness_WritesAreChecked : findObj 0x0001 0 = .noObject ∧ findObj 0x1300 0xFF = .noSubindex ∧ (∃ n, findObj 0x1300 0 = .count n) ∧
    (∃ o, findObj 0x1300 0x02 = .row o ∧ o.wr = none) ∧
    (∃ o, findObj 0x2610 0x1E = .row o ∧ o.wr = some 2 ∧ o.draft = true ∧ o.live = false ∧ ({ sess with level := 0 } : Session).level < 2 ∧ 2 ≤ sess.level ∧
      o.ty.code ≠ 0 ∧ blockOnly o [12].length = false ∧ lengthOk o.ty [12].length = true ∧ inRange o (ofWire o.ty [200]) = false ∧
      (let c : Control := { Control.reset with holder := some .can }
       ∃ h, c.holder = some h ∧ h ≠ .session 7)) :=
  ⟨by decide, by decide, ⟨_, rfl⟩, ⟨_, rfl, by decide⟩, _, rfl, by decide, by decide, by decide, by decide, by decide, by decide, by decide, by decide, by decide, _, rfl, by decide⟩

/-- An image of no records, unsigned. -/
def emptyImage : Bytes :=
  let h := beBytes 4 imageMagic ++ [1, 1, 0, 0] ++ beBytes 4 1 ++ beBytes 4 132 ++ List.replicate 112 0
  h ++ beBytes 4 (crc32c h)

theorem witness_ImageImport : (importImage [] emptyImage).1 = 0 ∧ emptyImage.length ≤ 1388 ∧ (served 2 sess).control.signKey = [] := by decide +kernel

theorem witness_BlockWrites : (∃ o, findObj 0x2900 0x05 = .row o ∧ o.ty = .domain ∧ o.draft = true ∧ o.live = false ∧
      inRange o (.blob (List.replicate 4 0)) = true) ∧
    (let f : Fragment := ⟨false, true, 0, 4, [1, 2]⟩
     1 ≤ f.data.length ∧ f.data.length ≤ 1388 ∧ f.first = true ∧ f.last = false ∧ f.off = 0 ∧ f.data.length ≤ f.total.toNat) ∧
    (let w : BlockWrite := ⟨objKey 0x2900 0x05, 4, [1, 2]⟩
     let f : Fragment := ⟨true, false, 2, 4, [3, 4]⟩
     f.off.toNat = w.data.length ∧ (w.data ++ f.data).length = w.total ∧ w.key ≠ objKey 0x2900 0x06) ∧
    sess.block = none ∧ (∃ o l, findObj 0x2900 0x05 = .row o ∧ o.ty = .domain ∧ o.draft = true ∧ o.live = false ∧ o.wr = some l ∧ l ≤ sess.level ∧
      lengthOk o.ty [1, 2, 3, 4].length = true ∧ inRange o (ofWire o.ty [1, 2, 3, 4]) = true) :=
  ⟨⟨_, rfl, by decide⟩, by decide, by decide, rfl, _, _, rfl, by decide, by decide, by decide, rfl, by decide, by decide, by decide⟩

theorem witness_Subscriptions : (let v := (served 2 sess).readBytes 3 0x1300 0x02 false
     v.1 = 0 ∧ v.2.1 ≠ .domain ∧ v.2.2 = [2]) ∧ (10 : W32).toNat ≤ 60000 ∧ (10 : Nat) ≤ (10 : W32).toNat ∧
    (let b : Subscription := ⟨7, objKey 0x1300 0x02, 2, 10, ⟨.net0, 0, 0⟩, none⟩
     let s := { served 2 sess with control := { (served 2 sess).control with subs := [b] } }
     s.subscription 7 (objKey 0x1300 0x02) = some b ∧ s.bdpServes b.peer.net = true ∧ b.last ≠ some (.blob [2]) ∧
       ({ b with mode := 1, last := some (.blob [2]) } : Subscription).mode ≠ 2) := by decide

theorem witness_RequestsOutOfPlace : (served 2 sess).bdpServes .net0 = true ∧ (served 1 sess).mode = 1 ∧ (served 2 sess).session 8 = none ∧
    ({ sess with highest := 5, window := [] } : Session).seqCase 5 = .executed ∧ malformed (List.replicate 16 0) = true ∧
    (List.replicate 15 (0 : Byte)) ≠ List.replicate 16 0 := by decide

theorem witness_Sdo : (dev 2 []).canServes = true ∧ (let v := (dev 2 []).readBytes 3 0x1300 0x02 false
     v.1 = 0 ∧ v.2.2.length = 1) ∧ captureData 0x1300 0x02 = none ∧ 4 < ((dev 2 []).readBytes 3 0x1400 0x23 false).2.2.length ∧
    ((dev 2 []).readBytes 3 0x1400 0x23 false).1 = 0 ∧
    (let t : SdoTransfer := ⟨objKey 0x1400 0x23, true, List.replicate 8 0, false⟩
     7 < t.data.length ∧ ({ t with data := [1] } : SdoTransfer).data.length ≤ 7 ∧ ({ t with upload := false } : SdoTransfer).upload = false ∧
       captureData (t.key / 256) (t.key % 256) = none) ∧ (dev 2 []).num 0x1140 0x04 ≠ 0 := by decide

theorem witness_Commits : (let c : Control := { Control.reset with holder := some (.session 7), draft := [(objKey 0x2610 0x1E, .num 12)] }
     let s := { served 2 sess with control := { c with sessions := [sess] } }
     c.admission.any Admission.isCommit = false ∧ c.pending = none ∧ c.writing = none ∧ c.holder = some (.session sess.id) ∧ c.draft ≠ s.base ∧
       ({ s with control := { c with draft := s.base } } : State).control.draft = s.base ∧ s.num 0x1200 0x01 ≠ 2) ∧
    ({ Control.reset with admission := [Admission.commit .can true []] } : Control).admission.any Admission.isCommit = true := by decide

theorem witness_Admitted : ((dev 2 [(0x112010, .num 1), (0x112110, .num 1)]).admitRun []).2 = none ∧
    ((dev 2 []).admitRun []).2.isSome = true := by decide +kernel

theorem witness_AdmissionEnds : (let s := { dev 2 [] with control := { Control.reset with
       holder := some .can, admission := [Admission.commit .can true [(objKey 0x2110 0x01, .num 1)]] } }
     s.mode ≠ 7 ∧ s.control.holder = some (viaClient .can) ∧
    s.power.dead = false) ∧
    ({ Control.reset with admission := [Admission.trial []] } : Control).admission = [Admission.trial []] ∧
    ({ Control.reset with writing := some (true, ⟨1, [], false, []⟩) } : Control).writing = some (true, ⟨1, [], false, []⟩) := by decide

/-! ### The hypotheses can be met: modes, resets, clocks, power, integrity -/

/-- Route A launching. -/
def launching (m : Nat) : State := optic (dev m []) { Optics.reset with launching := true, start := some .done }

theorem witness_ModeRequests : enabledRoutes ((dev 2 [(0x211001, .num 1)]).read .a) ≠ [] ∧ commissioning ((dev 2 []).read .a) = false ∧ commissioning ((dev 3 []).read .a) = false ∧
    field ((dev 7 []).num 0x1700 0x10) 8 0 = 0 ∧ (dev 2 []).power.transition = none ∧ (dev 2 [(0x130005, .num 1)]).num 0x1300 0x05 ≠ 0 ∧
    ({ dev 4 [] with power := { (dev 4 []).power with fromSentinel := true } } : State).power.fromSentinel = true ∧
    (dev 4 [(0x130008, .num 5)]).num 0x1300 0x08 ≠ 0 ∧ (launching 4).mode = 4 ∧ (launching 4).routeA.optics.launching = true := by decide

/-- READY to SENSE with route A launching at once waits for the boundary. -/
theorem test_transition_waits : ((launching 4).beginTransition 2).num 0x1300 0x10 = 1 ∧ ((launching 4).beginTransition 2).mode = 4 := by decide

theorem witness_Resets : (dev 4 []).power.vaon = true ∧ (dev 0 []).mode = 0 ∧
    bit ((dev 0 [(0x130005, .num 7)]).num 0x1300 0x05) 0 = true ∧ bit ((dev 0 [(0x130005, .num 7)]).num 0x1300 0x05) 1 = true ∧
    bit ((dev 0 [(0x130005, .num 7)]).num 0x1300 0x05) 2 = true ∧ ((true = true) ↔ (dev 0 []).num 0x1300 0x06 = 0) ∧
    (dev 0 [(0x130007, .num 9)]).num 0x1300 0x07 ≠ 0 ∧ (dev 4 []).control.nextGeometry = (dev 4 []).control.geometry := by decide

theorem test_reset : ((dev 4 []).resetTo false 2).mode = 1 ∧ ((dev 4 []).resetTo false 2).num 0x1300 0x11 = 2 := by decide

theorem witness_BringUp : State.reset.power.vaon = true ∧ State.reset.power.supplyOk = true ∧ State.reset.power.bringUp = some 0 ∧
    State.reset.arbiter.stateA ≠ .retired ∧ State.reset.arbiter.holder ≠ some .b ∧
    (let a := { State.reset.arbiter with stateA := .retired }
     a.stateB ≠ .retired ∧ a.stateA = .retired ∧ ({ a with stateB := .retired } : Arbiter).stateB = .retired) ∧
    (let s := { State.reset with power := { Power.reset with bringUp := some 4 } }
     s.power.bringUp = some 4 ∧ s.mode = 1) ∧ (xt1Nominal 22500).isSome = true := by decide

theorem test_reset_release : (after (.resetRelease ⟨true, 0⟩) State.reset).power.bringUp = some 4 ∧
    (after (.resetRelease ⟨true, 0⟩) State.reset).out = [.avs 850] ∧ (after (.resetRelease ⟨true, 0⟩) State.reset).arbiter.holder = some .a := by decide

/-- R419: a count of 22,500 is exactly 10 % below 25 MHz, and 12.5 % above 20 MHz. -/
theorem test_xt1_count : xt1Nominal 22500 = some 2 ∧ xt1Nominal 22400 = none := by decide

theorem witness_ClockLosses : (dev 4 []).monitors = true ∧ (dev 4 []).clkBit 11 = true ∧ State.reset.clkBit 11 = false ∧ State.reset.monitors = false := by decide

theorem witness_SafeEntry : 2 ≤ (launching 4).mode := by decide

theorem test_safe_entry : ((launching 4).enterSafe [1]).mode = 7 ∧ ((launching 4).enterSafe [1]).routeA.optics.launching = false ∧
    ((launching 4).enterSafe [1]).pins.optSafeN = false := by decide

/-- Domain 0 with a switch in progress or a source refused. -/
def switching (t x : Option Bool) (n : Nat) : State :=
  { dev 6 [] with power := { (dev 6 []).power with domains := Vector.replicate 4 { Domain.reset with target := t, refused := x, repeats := n } } }

theorem witness_ClockSwitches : (dev 6 []).clkBit 3 = true ∧ (dev 6 []).clkBit 5 = true ∧ (dev 6 []).mode ≠ 0 ∧ State.reset.clkBit 3 = false ∧
    (dev 4 [(0x150003, .num 16)]).clkBit 4 = true ∧ (dev 2 []).mode ≠ 7 ∧ (1 : Byte).toNat ≤ 1 ∧ (dev 2 []).clkBit 4 = true ∧
    (dev 6 []).mode = 6 ∧ ((dev 6 []).dom 0).target = none ∧ ((dev 6 []).dom 0).onPll ≠ true ∧
    ((dev 6 []).readyCheck 0 = true → (dev 6 []).sourceReady true = true) ∧
    ((switching (some true) none 0).dom 0).target = some true ∧ (switching (some true) none 0).sourceReady false = true ∧
    ((switching none (some true) 0).dom 0).refused = some true ∧ ((switching none (some true) 0).dom 0).target = none ∧
    ((switching none (some true) 99).dom 0).repeats = 99 ∧ (dev 7 []).clkBit 6 = true ∧ ((dev 7 []).clk 6 false).clkBit 6 = false := by decide

/-- R463: PLLS ends once PLL-S has held lock for 100 ms. -/
theorem test_pll_hold : let t := after (.pllLockRegained false) ((dev 7 []).clk 6 false)
    t.clkBit 6 = true ∧ t.causeEnded 2 = false ∧ (t.modTime (fun u => { u with cycles := u.cycles + 99999999 })).causeEnded 2 = false ∧
      (t.modTime (fun u => { u with cycles := u.cycles + 100000000 })).causeEnded 2 = true := by decide

theorem witness_ClockSwitchLost : (let s := { switching none (some true) 0 with od := [(0x130002, .num 6), (0x150003, .num 2)] }
    s.readyCheck 0 = true ∧ s.sourceReady true = false ∧ (s.dom 0).repeats < 99) ∧
    (let s := { switching (some true) none 0 with od := [(0x130002, .num 6), (0x150003, .num 0)] }
     s.sourceReady (s.dom 0).onPll = false) := by decide

theorem witness_GatesAndSupply : (let mask : BitVec 16 := 0x0010#16
     mask.toNat &&& 0xFF1F = mask.toNat ∧ (dev 2 []).gateInUse mask.toNat = false) ∧
    bit ((dev 4 [(0x130015, .num 1)]).num 0x1300 0x15) 0 = true ∧ leastSlack [3, 9] = 3 ∧ leastSlack [13] = 13 ∧ leastSlack [4, 12] = 4 ∧ leastSlack [1, 9] < 2 ∧
    (dev 4 [(0x130015, .num 1)]).num 0x1300 0x14 = 850 ∧
    (dev 4 [(0x130014, .num 700)]).num 0x1300 0x14 = 700 ∧ ({ (dev 4 []).power with avsHigh := 15 } : Power).avsHigh = 15 ∧
    (dev 2 []).unused (.core 0) = true ∧ (dev 2 []).power.gatesOpen.contains (.core 0) = false ∧
    ({ (dev 2 []).power with gatesOpen := [.core 0] } : Power).gatesOpen.contains (.core 0) = true ∧ (1 : Fin 4).val < 3 ∧ (dev 0 []).mode = 0 ∧ (dev 4 []).mode ≠ 0 ∧
    (dev 4 []).power.vaon = true ∧ ({ (dev 4 []).power with supplyOk := false } : Power).supplyOk = false := by decide +kernel

theorem test_avs : (after (.avsLoop [3, 9] 1) (dev 4 [(0x130014, .num 700), (0x130015, .num 1)])).num 0x1300 0x14 = 710 ∧
    (after (.avsLoop [3, 9] 3) (dev 4 [(0x130014, .num 700), (0x130015, .num 1)])).num 0x1300 0x14 = 700 := by decide +kernel

/-- Keeper A with authority, B in a state, heartbeats and misses given. -/
def keepers (b : KeeperState) (beatA : Bool) (missA : Nat) : State :=
  { dev 4 [] with arbiter := { (dev 4 []).arbiter with stateB := b, beatA := beatA, beatB := true, missA := missA } }

theorem witness_Keepers : (keepers .standby true 0).keeperUp .a = true ∧ (keepers .standby true 0).keeperUp .b = true ∧
    (keepers .standby true 0).arbiter.beatA = true ∧ (keepers .standby true 0).arbiter.beatB = true ∧
    (keepers .standby false 1).arbiter.beatA = false ∧ (keepers .standby false 1).arbiter.missA < 2 ∧ (keepers .stopped false 2).keeperUp .a = true ∧
    (keepers .stopped false 2).arbiter.holder = some .a ∧ (keepers .stopped false 2).arbiter.missA = 2 ∧ (keepers .stopped false 2).arbiter.stateB ≠ .standby ∧
    (keepers .standby true 0).arbiter.stateOf .b = .standby ∧ (keepers .standby true 0).arbiter.holder ≠ some .b := by decide

/-- The worked transfer of 17_integrity.md: the epoch rises by one and B holds authority. -/
theorem test_transfer : (after (.lockstepMismatch .a) (keepers .standby true 0)).arbiter.holder = some .b ∧
    (after (.lockstepMismatch .a) (keepers .standby true 0)).arbiter.epoch = 1 := by decide

/-- A targeted test of core 3, or a BIST with units left. -/
def tested (f : Bool) : State := { dev 6 [] with integrity := { (dev 6 []).integrity with tests := [⟨.core 3, f⟩] } }

theorem witness_SelfTests : (tested true).integrity.tests.find? (fun t => t.unit == .core 3) = some ⟨.core 3, true⟩ ∧
    ((tested false).transientOutcome (.core 3)).1 = false ∧ (dev 6 []).integrity.tests.find? (fun t => t.unit == .core 3) = none ∧
    (dev 6 []).mode = 6 ∧ (let mask : BitVec 16 := 5#16
      mask.toNat &&& 0x7FFF = mask.toNat ∧ mask ≠ 0) ∧ (dev 6 []).num 0x1700 0x21 ≠ 1 ∧
    (let s := { dev 6 [(0x170021, .num 1)] with integrity := { (dev 6 []).integrity with bistLeft := [2, 3], bistStep6 := true } }
     s.num 0x1700 0x21 = 1 ∧ s.integrity.bistLeft = (2 : Fin 15).val :: [3] ∧ s.integrity.bistStep6 = true ∧ [3] ≠ ([] : List Nat)) := by decide +kernel

theorem witness_FaultsClear : (dev 7 []).mode = 7 ∧ field ((dev 7 []).clearLatched.num 0x1700 0x10) 4 0 = 0 ∧
    field ((dev 7 []).clearLatched.num 0x1700 0x10) 8 6 = 0 ∧ field ((dev 2 []).clearLatched.num 0x1700 0x10) 8 0 = 0 ∧
    (dev 2 []).clearLatched.mode ≠ 7 ∧ (dev 6 []).mode = 6 := by decide +kernel

theorem witness_TestPort : 2 ≤ (dev 2 []).mode ∧ (dev 1 []).mode ≤ 1 ∧ ({ State.reset.jtag with tap := 4 } : Jtag).tap = 4 ∧
    (∃ t, exec (.tckEdge true true false) (dev 2 []) = .next t) := ⟨by decide, by decide, by decide, _, rfl⟩

theorem test_tap_reset : (after (.tckEdge true true false) (after (.tckEdge true false false) (dev 2 []))).jtag.tap = tapNext (tapNext 0 false) true := by decide +kernel

/-! ### The hypotheses can be met: routes, probes, receivers -/

/-- Every write can reach the dictionary over CAN in any mode past bring-up. -/
theorem witness_reaches_modes (idx sub : Nat) (b : Bytes) : Reaches (dev 4 []) .can 3 idx sub b ∧ Reaches (dev 5 []) .can 3 idx sub b :=
  ⟨⟨by decide, by decide⟩, by decide, by decide⟩

/-- A small configuration: route A of 11 positions, more entries in front. -/
def cfgd (mode : Nat) (od : Dict) : State := dev mode (od ++ [(0x211001, .num 1), (0x211005, .num 11)])

theorem witness_RouteStarts :
    (let s := optic (cfgd 4 []) { Optics.reset with start := some .settle }
     s.routeA.optics.start = some .settle ∧ s.routeA.optics.dwellDone = false ∧ s.routeB.optics.start ≠ some .settle) ∧
    (let o := { Optics.reset with start := some .dwell }
     o.start = some .dwell ∧ o.sweepDone = false ∧ o.warm = false ∧ o.dwellDone = false ∧ ({ o with sweepDone := true } : Optics).sweepDone = true ∧
       (optic (cfgd 4 []) { o with sweepDone := true }).edfa .a = false) ∧
    (let o := { Optics.reset with start := some .ramp, ramp := some 700 }
     o.ramp = some 700 ∧ o.start = some .ramp) ∧
    (let s := optic (cfgd 4 [(0x216010, .num 1), (0x213002, .num 700)]) { Optics.reset with start := some .done, ramp := some 700 }
     s.routeA.optics.ramp = some 700 ∧ s.routeA.optics.start ≠ some .ramp ∧ s.aprState .a = 1 ∧ 700 = s.normalCode .a) ∧
    (let s := optic (cfgd 4 []) { Optics.reset with moving := true }
     s.routeA.optics.moving = true ∧ s.routeA.optics.inFlight = [] ∧ (s.route .a).ray.handoff = none ∧ s.sensing = true ∧ s.enabled .a = true ∧
       s.launchFail .a = false) ∧
    (let s := cfgd 4 [(0x216010, .num 3)]
     s.aprState .a = 3 ∧ s.sensing = true ∧ s.enabled .a = true ∧ s.power.dead = false ∧ (s.route .a).optics.start = none ∧ s.mode ≠ 7) := by decide +kernel

/-- Route A launching. -/
def lit : Optics := { Optics.reset with start := some .done, launching := true }

/-- Device time of a cycle while nothing has moved it. -/
theorem stampOf_plain (s : State) (c : Nat) (ht : s.time = TimeUnit.reset) (hr : s.rate = 0) : s.stampOf c = (c : Int) * 65536 := by
  have hi : increment 0 = 2 ^ 48 := by decide
  simp only [State.stampOf, State.timeAt48, ht, hr, hi]
  simp only [TimeUnit.reset, pastTime, TimeUnit.t48, Option.getD_none]
  omega

/-- Route A with one launch in flight, before any clock is on. -/
def oneLaunch (n : Nat) : State := optic State.reset { lit with inFlight := [{ launch with ns := n }] }

/-- An edge that arrives the TDC's latency and the tap latency after a launch is in its window, and 1,000 cycles later outside it, whatever
the latency is. -/
theorem witness_TapEdge (far : Bool) : ∃ (n : Nat) (edge : TapEdge),
    let s := oneLaunch n
    openWindow s.routeA.optics.inFlight = some { launch with ns := n } ∧
      decide (((s.tapOffset .a { launch with ns := n } edge).1 - 128 * (s.r100 .a 0x2150 0x01 : Nat)).natAbs ≤ 128 * s.r100 .a 0x2150 0x02) = !far := by
  refine ⟨(Config.tdcLatency / 65536).natAbs, ⟨Config.tdcLatency / 65536 + 200 + (if far then 1000 else 0), 0⟩, rfl, ?_⟩
  have hr : State.reset.rate = 0 := by decide +kernel
  have hb : bit (State.reset.num 0x1500 0x03) 9 = false := by decide +kernel
  have h : ∀ n c : Nat, (oneLaunch n).stampOf c = (c : Int) * 65536 := fun n c => stampOf_plain (oneLaunch n) c rfl ((rfl : (oneLaunch n).rate = State.reset.rate).trans hr)
  have hl : ∀ n : Nat, (oneLaunch n).r100 .a 0x2150 0x01 = 200 := fun n => (rfl : _ = State.reset.r100 .a 0x2150 0x01).trans (by decide +kernel)
  have hw : ∀ n : Nat, (oneLaunch n).r100 .a 0x2150 0x02 = 20 := fun n => (rfl : _ = State.reset.r100 .a 0x2150 0x02).trans (by decide +kernel)
  have hf : ∀ n : Nat, ((oneLaunch n).tapTime 0 0).1 = 0 := by
    intro n
    have : bit ((oneLaunch n).num 0x1500 0x03) 9 = false := hb
    simp [State.tapTime, this]
  simp only [State.tapOffset, h, hl, hw, hf, routeNum, rhu]
  generalize Config.tdcLatency = x
  have ha : ((x / 65536).natAbs : Int) + (x / 65536 + 200 + (if far then 1000 else 0)) ≥ 0 := by
    cases far <;> simp only [Bool.false_eq_true, if_true, if_false] <;> omega
  cases far <;> simp only [Bool.not_true, Bool.not_false, decide_eq_true_eq, decide_eq_false_iff_not, if_true, if_false, Bool.false_eq_true] at ha ⊢ <;> rw [Int.toNat_of_nonneg ha] <;> omega

theorem witness_Probes :
    (let s := optic (cfgd 4 []) lit
     s.routeA.optics.launching = true ∧ s.routeA.optics.moving = false ∧ (0 : Nat) = s.routeA.optics.launchSeq % max (s.sched .a).g 1 ∧
       s.routeA.optics.shot = 0 ∧ s.routeA.crx.pendingStep = none ∧ openWindow s.routeA.optics.inFlight = none ∧
       s.loopGuard = false ∧ s.frameDone .a = false ∧ s.silentNow .a = false) ∧
    (let s := optic (cfgd 4 [(0x211002, .num 1)]) { lit with launchSeq := 1 }
     (0 : Nat) ≠ s.routeA.optics.launchSeq % max (s.sched .a).g 1) ∧
    (let s := optic (cfgd 4 []) { lit with inFlight := [launch] }
     openWindow s.routeA.optics.inFlight = some launch ∧ launch.edge = false ∧
       s.aprState .a = 0 ∧ s.routeA.optics.missRun + 1 < s.r100 .a 0x2150 0x04 ∧
       s.routeA.optics.inFlight.find? (fun x => !x.judged) = some launch ∧ s.aprOn .a = true ∧ s.readAt .a 0 (at100 0x2160 .a) 0x01 = 1 ∧
       s.launchFail .a = false ∧ s.power.transition = none) ∧
    ({ launch with edge := true } : Launch).edge = true ∧
    (let s := optic (cfgd 4 []) { lit with inFlight := [launch], missRun := 7 }
     s.r100 .a 0x2150 0x04 ≤ s.routeA.optics.missRun + 1) ∧
    (let s := optic (cfgd 4 [(0x21600A, .num 1250000000)]) { lit with inFlight := [launch] }
     windowPower (mkSched (s.readAt .a 0) s.kind .a) s.kind 0 (s.front .a launch []) 0 0 < theta (registrationIn (s.cfgAt .a 0) .a (s.osw .a)).pn (s.r100 .a 0x2160 0x03) ∧
       ¬ windowPower (mkSched (s.readAt .a 0) s.kind .a) s.kind 0 (s.front .a launch []) 0 0 < theta 0 (s.r100 .a 0x2160 0x03) ∧
       (registrationIn ((cfgd 4 []).cfgAt .a 0) .a ((cfgd 4 []).osw .a)).pn = 0 ∧ (registrationIn (s.cfgAt .a 0) .a (s.osw .a)).firstBin = 0 ∧ (registrationIn (s.cfgAt .a 0) .a (s.osw .a)).lastBin = 0 ∧ s.routeA.optics.badRun = 0 ∧
       s.r100 .a 0x2160 0x04 ≠ 1) ∧
    (let s := optic (cfgd 4 [(0x216010, .num 3), (0x21600B, .num 1250000000)]) { lit with probe := true, inFlight := [{ launch with apr := true }] }
     s.aprState .a = 3 ∧ s.routeA.optics.probe = true ∧ s.routeA.optics.inFlight.find? (fun x => !x.judged) = some { launch with apr := true } ∧
       s.aprOn .a = true ∧
       windowPower (mkSched (s.readAt .a 0) s.kind .a) s.kind 0 (s.front .a { launch with apr := true } []) 0 0
         < theta (registrationIn (s.cfgAt .a 0) .a (s.osw .a)).pa (s.r100 .a 0x2160 0x03)) ∧
    (let s := cfgd 4 [(0x215014, .num 1)]
     s.loopGuard = false ∧ s.silentNow .a = true ∧ s.routeA.optics.launching = false ∧ (cfgd 4 [(0x200003, .num 1)]).loopGuard = true) ∧
    ({ lit with badRun := 1 } : Optics).badRun = 1 ∧
    (let s := optic (cfgd 4 []) lit
     let o := { lit with shot := 4, launchSeq := 4 * (s.sched .a).g, shotNs := (s.sched .a).frame - (s.sched .a).t }
     (optic s o).frameDone .a = true ∧ (optic s o).loopGuard = false) := by decide +kernel

/-- A launch without power in its window is deficient against a registered power, and not against none. -/
theorem test_deficient (p : Nat) (h : p = 1250000000 ∨ p = 0) :
    (((after (.aprDecision .a []) (optic (cfgd 4 [(0x21600A, .num p)]) { lit with inFlight := [launch] })).routeA.optics.badRun) == 1) =
      (p == 1250000000) := by rcases h with rfl | rfl <;> decide +kernel

theorem witness_Receiver :
    (let s := optic (cfgd 4 [(0x218010, .num 2), (0x218008, .num 0)]) { lit with shot := 3 }
     let stat := fun (n : Int) => agcStatistics (sampled 0 [⟨n, 0, 0, 0⟩]) (fun t =>
       excluded (intervalLaunches (s.sched .a) 0) (s.r100 .a 0x2180 0x08) t || s.leftOut .a t)
     (s.crxPowered .a = true ∧ s.routeA.optics.launching = true ∧ s.routeA.optics.shot ≠ 0 ∧ s.routeA.crx.pendingStep = none ∧ s.routeA.crx.stepShot ≤ s.routeA.optics.shot - 1 ∧
       s.cfg .a 0x2180 0x01 = 1) ∧ s.cfg .a 0x2180 0x05 ≤ (stat 2047).2 ∧ s.cfg .a 0x2180 0x03 < s.range .a ∧
       (stat 896).2 < s.cfg .a 0x2180 0x05 ∧ (stat 896).1 ≤ s.cfg .a 0x2180 0x06 ∧ s.range .a < s.cfg .a 0x2180 0x04 ∧
       s.cfg .a 0x2180 0x06 < (stat 897).1 ∧ (stat 897).2 < s.cfg .a 0x2180 0x05 ∧ s.cfg .a 0x2180 0x07 ≤ ({ s.routeA.crx with lowRun := 63 } : Crx).lowRun + 1 ∧
       (dev 2 []).crxPowered .a = false) ∧
    (let s := cfgd 4 []
     (true != s.on 0x2032 0x01) = true ∧ s.pins.blank = false ∧ (false != s.on 0x2032 0x01) = false ∧
       ({ s.pins with blank := true, blankSince := 96 } : Pins).blank = true ∧ s.pins.blankSeen = false ∧
       ({ s.pins with blank := true, blankSeen := true } : Pins).blankSeen = true ∧ s.num 0x2032 0x05 ≤ 100 - 96 ∧ 99 - 96 < s.num 0x2032 0x05) ∧
    (let s := cfgd 4 [(0x219013, .num 1)]
     s.runsOn .a = true ∧ s.routeA.crx.run = false ∧ bit (s.num 0x2190 0x13) 0 = true ∧
       s.r100 .a 0x2190 0x02 ≤ ((20 : Int) - s.int 0x2190 0x11 16).natAbs ∧ s.mode ≠ 7) ∧
    (let s := optic (cfgd 4 []) lit
     let b : BlindSum := { BlindSum.zero with n := 1, power := 2 ^ 23 }
     s.windowsOn .a = true ∧ bit (s.num 0x2190 0x13) 1 = false ∧ ({ s.routeA.crx with run := true } : Crx).run = true ∧ s.range .a < 4 ∧
       s.r100 .a 0x2190 0x04 ≤ ({ s.routeA.crx with gathered := 4096 } : Crx).gathered ∧ s.routeA.crx.gathered < s.r100 .a 0x2190 0x04 ∧
       lowPower (s.routeA.crx.blindOf 0) (s.routeA.crx.blindOf 1) (s.r100 .a 0x2190 0x08) = true ∧ lowPower b b (s.r100 .a 0x2190 0x08) = false ∧
       s.r100 .a 0x2190 0x06 = 1 ∧ s.r100 .a 0x2190 0x07 ≤ ({ s.routeA.crx with blindFrames := 64 } : Crx).blindFrames ∧
       s.routeA.crx.blindStep = false) := by decide +kernel

/-- Every estimate lies beyond the dead band of a set that no limit holds. -/
theorem witness_BlindUpdate (x : CorrSet) : beyondBand (limitSet x) { CorrSet.unit with offsetI := 5000 } = true ∧
    (∀ l, (Crx.reset).pendingSet ≠ some (l, true)) ∧ ({ Crx.reset with pendingSet := some ([], true) } : Crx).pendingSet = some ([], true) := by
  have h : (limitSet x).offsetI ≤ 1024 := by simp only [limitSet, clampI]; omega
  have b : 2 ≤ ((limitSet x).offsetI - 5000).natAbs := by omega
  refine ⟨?_, ?_, rfl⟩
  · have e : ({ CorrSet.unit with offsetI := 5000 } : CorrSet).offsetI = 5000 := rfl
    simp only [beyondBand, e, b, decide_true, Bool.true_or]
  · intro l h; simp [Crx.reset] at h

/-- Route A with its thermal state. -/
def heated (s : State) (x : Thermal) : State := { s with routeA := { s.routeA with thermal := x } }

theorem witness_Raman :
    (let s := optic (cfgd 4 [(0x217001, .num 1)]) { lit with shot := 1 }
     s.ramanDue .a = true ∧ s.aprState .a = 0 ∧ s.routeA.optics.launching = true ∧ s.routeA.optics.moving = false ∧ s.power.safeRequest = false ∧
       ({ s with od := (0x216010, .num 1) :: s.od } : State).aprState .a ≠ 0 ∧ ({ s with od := (0x216010, .num 1) :: s.od } : State).ramanDue .a = true) ∧
    (let s := heated (cfgd 4 []) { Thermal.reset with pulse := some (5000, 4000) }
     s.ramanDue .a = false ∧ s.routeA.thermal.pulse = some (5000, 4000) ∧ (cfgd 4 []).routeA.thermal.pulse = none ∧ [(0 : Int)].any drxClip = false ∧ [(32767 : Int)].any drxClip = true ∧
       ∀ i : Nat, i < 64 → s.blankedAt .a (((5000 : Nat) : Int) - 272 + 4 * (i : Int)) = false) ∧
    (let s := optic (cfgd 4 [(0x217001, .num 1)]) { lit with frameNs := 10 ^ 12 }
     s.gov .a = .a ∧ s.blockStop .a ≤ s.reached .a ∧ s.launchesDone .a (s.blockStop .a) = true ∧ s.windowsDone .a (s.blockStop .a) = true ∧
       (cfgd 4 []).reached .a < (cfgd 4 []).blockStop .a) ∧
    (let s := cfgd 4 []
     s.mode ≠ 7 ∧ s.routeA.thermal.calFrames = none ∧ s.read .a 0x2510 0x07 ≤ s.read .a 0x2510 0x08 ∧
       (mkSched (s.read .a) .sense .a).first ≤ s.read .a 0x2510 0x07 ∧
       s.read .a 0x2510 0x08 < (mkSched (s.read .a) .sense .a).first + (mkSched (s.read .a) .sense .a).count ∧
       (calPoint (s.read .a) .a).isSome = true) ∧
    ({ Thermal.reset with calFrames := some 0 } : Thermal).calFrames = some 0 := by decide +kernel

/-- A launch in hand with no bins. -/
def hand : Handoff := { launch := { launch with closed := true, compressed := true }, bins := [] }

/-- Route A with its Rayleigh processing. -/
def rayed (s : State) (x : Rayleigh) : State := { s with routeA := { s.routeA with ray := x } }

/-- A frame that waits for its hand-over. -/
def readyFrame : ReadyFrame :=
  { stream := 2, routeCode := 0, fcount := 0, tstart := 0, period := 1, first := 0, count := 0, pitch := 2, quality := 0, cseq := 0, pos := 0,
    payload := [], plane := [], cols := 0, deadline := 0, send := true, events := [], block := [], inputs := [], closing := 0 }

theorem witness_Frames :
    (let s := optic (cfgd 4 []) { lit with inFlight := [{ launch with closed := true }] }
     s.routeA.optics.inFlight.find? (fun x => !x.compressed) = some { launch with closed := true } ∧ s.routeA.ray.handoff = none ∧
       s.engineRetired .a = false ∧ s.routeA.optics.engineOut = false ∧ s.crxPowered .a = true ∧ s.mode ≠ 5 ∧ s.power.transition = none ∧ launch.closed = false) ∧
    (let s := rayed (cfgd 4 [(0x253001, .num 1)]) { Rayleigh.reset with handoff := some hand }
     s.routeA.ray.handoff = some hand ∧ (sliceCfg (s.readAt .a 0) s.kind .a).positions.findIdx? (fun p => p == 0) = some 0 ∧
       mapGet s.routeA.ray.ring 0 = none ∧ s.sliceRetired (s.physical (logicalSlice .a 0)) = false ∧
       s.slices.inPlace.contains (s.physical (logicalSlice .a 0)).val = false ∧
       s.trackedLaunch .a hand = true ∧ s.routeA.thermal.trackSeq ≠ some hand.launch.seq ∧
       (endPositions (s.readAt .a hand.launch.seq) .sense .a).contains 0 = true ∧
       (let t := heated s { Thermal.reset with trackSeq := some 0, trackDone := [0] }
        ({ t.routeA.thermal with trackDone := [] } : Thermal).trackDone.contains 0 = false ∧ t.routeA.thermal.trackSeq = some hand.launch.seq ∧ t.routeA.thermal.trackDone.contains 0 = true ∧ t.trackedLaunch .a hand = true) ∧
       s.handGuard .a = false ∧ s.power.transition = none) ∧
    (let s := rayed (cfgd 4 []) { Rayleigh.reset with handoff := some hand, ring := [(0, { d := [], valid := false, span := 0, cause := 0, why := [], unprimed := false, reprime := false, ecc := false })], updates := [(0, .lost 1 false false)] }
     (mapGet s.routeA.ray.ring 0).isSome = true ∧
       (∀ p ∈ (sliceCfg (s.readAt .a 0) s.kind .a).positions.take ((sliceCfg (s.readAt .a 0) s.kind .a).positions.length -
         (sliceCfg (s.readAt .a 0) s.kind .a).gauge), (mapGet s.routeA.ray.updates p).isSome = true)) ∧
    (let s := cfgd 4 []
     s.sliceRetired s.spare = false ∧ s.testing (.slice s.spare) = false ∧ ({ s with od := (0x240001, .num 0) :: s.od } : State).rotationOn = false) ∧
    (let s := rayed (cfgd 4 [(0x200003, .num 1)]) { Rayleigh.reset with handoff := some hand, updates := [(0, .lost 1 false false)] }
     s.loopNs = some 0 ∧ (mergedPositions (s.handRead .a) s.kind).findIdx? (fun p => p == 0) = some 0 ∧ s.handGuard .a = true ∧
       s.instantReady 0 = true ∧ mapGet s.loop.emitted 0 = none ∧ s.endPassed .a 0 0 = true ∧ s.endPassed .b 0 0 = true ∧
       (let t : State := { s with loop := { s.loop with emitted := [(0, none)] } }
        t.handGuard .a = true ∧ t.loopNs = some 0 ∧ t.instantReady 0 = true ∧ t.power.transition = none ∧
          ∀ p ∈ mergedPositions (t.handRead .a) t.kind, (mapGet t.loop.emitted p).isSome = true)) ∧
    (let s := cfgd 4 []
     let t := { s with routeA := { s.routeA with ready := [readyFrame] } }
     t.routeA.ready.find? (fun x => x.stream == 2) = some readyFrame ∧ s.routeA.ready.find? (fun x => x.stream == 2) = none ∧ t.mode ≠ 3 ∧ t.power.transition = none ∧
       (3 : Byte).toNat ≤ 3 ∧ s.badBank (objKey 0x2610 0x0A) (.num 0) = false ∧ s.loop.cutFrames = none) ∧
    (let s := optic (cfgd 4 []) { lit with frameNs := 10 ^ 12 }
     let t := { s with loop := { s.loop with cutFrames := some 0 }, routeA := { s.routeA with cutCount := [(2, (0, 1))] } }
     t.loop.cutFrames = some 0 ∧ 0 + 16 * (t.sched .a).frame ≤ t.routeA.optics.frameNs ∧ t.routeA.optics.inFlight = [] ∧ t.routeB.optics.inFlight = [] ∧
       t.handoff .a = none ∧ t.handoff .b = none ∧ t.routeA.cutCount.find? (fun x => decide (x.2.1 < x.2.2)) = some (2, (0, 1))) := by decide +kernel

/-- The device in SURVEY at a phase of a run. -/
def surveying (s : State) (n : Nat) (a : SurveyEnd) : State := { s with survey := { s.survey with phase := n, endA := a } }

theorem witness_Survey :
    (let s := dev 5 []
     s.mode = 5 ∧ s.survey.phase = 0 ∧ s.control.holder = none ∧ (surveying s 1 SurveyEnd.reset).survey.phase = 1 ∧ s.loopGuard = false ∧ s.surveyRoutes = [] ∧
       ({ s.survey with done := true } : Survey).done = true) ∧
    (let s := surveying (optic (cfgd 5 []) lit) 3 SurveyEnd.reset
     s.mode = 5 ∧ s.survey.phase = 3 ∧ ∀ q ∈ [Route.a, Route.b], s.enabled q = true → (s.route q).optics.start = some .done ∧ s.launchFail q = false ∧ s.aprState q < 2) ∧
    (let s := surveying (cfgd 5 [(0x200003, .num 1), (0x221001, .num 1), (0x2A0001, .num 0), (0x211006, .num 16)]) 1 SurveyEnd.reset
     s.loopGuard = true ∧ s.endsReady = [.a, .b] ∧ (let f := s.endsReady.foldl State.formEvents s
       loopMatch (loopSums f.survey.endA.events f.survey.endB.events) = none)) ∧
    (let s := cfgd 5 []
     let x := { s with survey := { s.survey with propA := { s.survey.propA with window := some (3, 9) } } }
     x.g100 .a 0x2140 0x01 ≠ 1 ∧ x.survey.propA.window = some (3, 9)) ∧
    (let s := surveying (cfgd 5 []) 1 SurveyEnd.reset
     s.surveyRuns = true ∧ (dev 5 []).surveyRuns = false ∧ s.endsReady = [] ∧ s.surveyRoutes ≠ []) ∧
    (let s := surveying (cfgd 5 []) 2 { SurveyEnd.reset with aprPhase := true, aprLaunches := 255 }
     s.survey.phase = 2 ∧ ∃ r ∈ s.surveyRoutes, s.aprDone r = false) ∧
    (let s := surveying (cfgd 5 []) 2 { SurveyEnd.reset with aprPhase := true, aprLaunches := 256 }
     s.survey.phase = 2 ∧ Route.a ∈ s.surveyRoutes ∧ ∀ r ∈ s.surveyRoutes, s.aprDone r = true) := by decide +kernel

/-- Route A at the end of its normal phase with given sums. -/
def surveyed (l : List Nat) : State :=
  surveying (cfgd 5 [(0x211006, .num 16), (0x2A000B, .num 0), (0x2A000C, .num 0), (0x218008, .num 0)]) 1 { SurveyEnd.reset with launches := 4096, s := l }

/-- Sums of no bins propose no window. -/
theorem witness_SurveyWindowless :
    (let s := surveyed []
     let u := s.formEvents .a
     s.survey.phase = 1 ∧ s.loopGuard = false ∧ s.surveyRoutes = [.a] ∧ s.endsReady = [.a] ∧
       ((({ u with survey := { u.survey with lambda := 0, supporters := 0 } } : State).formWindow .a 0).surveyEnd .a).window = none) := by decide +kernel

/-- The level of a fall by 84.29 dB, to within one unit. -/
theorem level_near (v : Nat) : level (2 ^ 40) 4096 v = 8428 ∨ level (2 ^ 40) 4096 v = 8429 ∨ level (2 ^ 40) 4096 v = 8430 := by
  have h : levelAux (2 ^ 40) 4096 17 0 = 8429 := by decide +kernel
  have d : deviation 1 v = -1 ∨ deviation 1 v = 0 ∨ deviation 1 v = 1 := by unfold deviation; omega
  unfold level
  rcases d with d | d | d <;> rw [h, d] <;> simp

/-- Sums of 0 have level 0 whatever the free values. -/
theorem levels_of_fall (x m n f : Nat) (h : 0 < n) :
    levels (x :: List.replicate m 0) n f = level x n (Config.freeValue f) :: List.replicate m 0 := by
  refine List.ext_getElem (by simp [levels]) (fun i h1 h2 => ?_)
  rcases i with _ | i
  · simp [levels]
  · simp [levels, level, h, Nat.pos_iff_ne_zero.mp h]

theorem floor_of_fall (x : Nat) (h : x = 8428 ∨ x = 8429 ∨ x = 8430) : noiseFloor (x :: List.replicate 256 0) false = 33 := by
  have e : sumN (x :: List.replicate 256 0) = x := by rcases h with rfl | rfl | rfl <;> decide +kernel
  have d : (x :: List.replicate 256 0).drop ((x :: List.replicate 256 0).length - 1024) = x :: List.replicate 256 0 := by
    rw [List.length_cons, List.length_replicate]; exact List.drop_zero
  have n : Nat.max (x :: List.replicate 256 0).length 1 = 257 := by rw [List.length_cons, List.length_replicate]; rfl
  simp only [noiseFloor, meanLevel, Bool.false_eq_true, if_false, d, e, n]
  rcases h with rfl | rfl | rfl <;> decide

theorem fall_found (x : Nat) (h : x = 8428 ∨ x = 8429 ∨ x = 8430) :
    endOfFibre (x :: List.replicate 256 0) (noiseFloor (x :: List.replicate 256 0) false + 300) 0 = some 0 := by
  rw [floor_of_fall x h]
  rcases h with rfl | rfl | rfl <;> decide +kernel

theorem formEvents_endBin (s : State) (h : s.loopGuard = false) : ((s.formEvents .a).surveyEnd .a).endBin =
    endOfFibre (levels (s.surveyEnd .a).s (s.surveyEnd .a).launches s.free)
      (noiseFloor (levels (s.surveyEnd .a).s (s.surveyEnd .a).launches s.free) false + s.cfg .a 0x2A00 0x07)
      (cdiv (s.r100 .a 0x2180 0x08) (s.sched .a).tbin) := by
  have g : ∀ f : Nat, ({ s with free := f } : State).loopGuard = false := fun _ => h
  have k : ∀ f : Nat, ({ s with free := f } : State).cfg .a 0x2A00 0x07 = s.cfg .a 0x2A00 0x07 := fun _ => rfl
  have r : ∀ f : Nat, ({ s with free := f } : State).r100 .a 0x2180 0x08 = s.r100 .a 0x2180 0x08 := fun _ => rfl
  simp [State.formEvents, State.modSurvey, State.surveyEnd, g, k, r]

theorem endBin_of_fall : (((surveyed (2 ^ 40 :: List.replicate 256 0)).formEvents .a).surveyEnd .a).endBin = some 0 := by
  have e : (surveyed (2 ^ 40 :: List.replicate 256 0)).cfg .a 0x2A00 0x07 = 300 := by decide +kernel
  have f : cdiv ((surveyed (2 ^ 40 :: List.replicate 256 0)).r100 .a 0x2180 0x08) ((surveyed (2 ^ 40 :: List.replicate 256 0)).sched .a).tbin = 0 := by
    decide +kernel
  rw [formEvents_endBin _ (by decide +kernel), e, f]
  exact (congrArg (fun l => endOfFibre l (noiseFloor l false + 300) 0) (levels_of_fall _ _ _ _ (by decide))).trans (fall_found _ (level_near _))

theorem window_of_endBin (w : State) (b : Nat) (e : (w.surveyEnd .a).endBin = some b) (h : w.loopGuard = false)
    (m : w.cfg .a 0x2A00 0x0B + w.cfg .a 0x2A00 0x0C ≤ b) : ((w.formWindow .a 0).surveyEnd .a).window ≠ none := by
  have e' : w.survey.endA.endBin = some b := e
  simp [State.formWindow, State.modSurvey, State.surveyEnd, h, e', m]

/-- A fall after the first bin proposes a window. -/
theorem witness_SurveyWindow :
    (let s := surveyed (2 ^ 40 :: List.replicate 256 0)
     let u := s.formEvents .a
     s.surveyRoutes = [.a] ∧ s.endsReady = [.a] ∧
       ((({ u with survey := { u.survey with lambda := 0, supporters := 0 } } : State).formWindow .a 0).surveyEnd .a).window ≠ none) := by
  refine ⟨by decide +kernel, by decide +kernel, ?_⟩
  refine window_of_endBin _ 0 endBin_of_fall ?_ ?_
  · exact (show (surveyed (2 ^ 40 :: List.replicate 256 0)).loopGuard = false by decide +kernel)
  · exact (show (surveyed (2 ^ 40 :: List.replicate 256 0)).cfg .a 0x2A00 0x0B + (surveyed (2 ^ 40 :: List.replicate 256 0)).cfg .a 0x2A00 0x0C ≤ 0 by
      decide +kernel)

/-! ### The hypotheses can be met: capture, streams, time, memory, housekeeping -/

/-- A capture of route A in progress whose trigger line has been passed. -/
def copying : Capture :=
  { src := 0, accepted := 0, placed := true, early := [], read := 1, route := .a, kind := 2, first := 0, count := 1, pre := 0, post := 0, red := 1, tC := 0, tL := 1000, ttime := 0, tline := 0, sources := 1, cflags := 0,
    start := 0, next := 1, lines := [] }

theorem witness_Captures :
    (let s := rayed (cfgd 4 [(0x281001, .num 2), (0x281003, .num 1), (0x281004, .num 1)]) { Rayleigh.reset with
       handoff := some hand, updates := [(0, .lost 1 false false)] }
     (s.combOpen .a (s.read .a 0x2810 0x01)).isSome = true ∧ s.read .a 0x2810 0x01 ≠ 1 ∧
       (∀ p ∈ combPositions (s.read .a) .a, (s.updateEntry .a p).isSome = true) ∧ ((cfgd 4 []).combOpen .a ((cfgd 4 []).read .a 0x2810 0x01)).isSome = false) ∧
    (let s := rayed (cfgd 4 [(0x281001, .num 1), (0x281003, .num 1), (0x281004, .num 1)]) { Rayleigh.reset with
       handoff := some hand, updates := [(0, .lost 1 false false)] }
     (s.combOpen .a (s.read .a 0x2810 0x01)).isSome = true ∧ s.read .a 0x2810 0x01 = 1 ∧ s.handoff .a = some hand ∧
       (∀ p ∈ combPositions (s.read .a) .a, (mapGet (s.route .a).ray.updates p).isSome = true)) ∧
    (let s := cfgd 4 [(0x284003, .num 1), (0x284020, .num 1)]
     bit (s.num (capIdx 0) 0x03) 0 = true ∧ s.mode = 4 ∧ s.num (capIdx 0) 0x20 = 1 ∧ bit (s.num (capIdx 0) 0x03) 1 = false ∧ s.mode ≠ 7) ∧
    (let s := (cfgd 4 [(0x284003, .num 1), (0x284020, .num 2)]).setSlot 0 { CapSlot.reset with copying := some copying }
     s.num (capIdx 0) 0x20 = 2 ∧ bit (s.num (capIdx 0) 0x03) 0 = true ∧ (s.capture.get 0).copying = some copying ∧
       ((s.catchUp 0).capture.get 0).copying = some copying ∧ copying.placed = true ∧ copying.tline + copying.post < copying.next ∧
       s.outranks copying 0 (-1) = true ∧ s.outranks copying 0 0 = false ∧ s.outranks copying 0 (5000 * 65536) = false ∧
       s.outranks { copying with placed := false } 0 0 = false ∧
       (s.lineOf (s.route copying.route).comb copying.tL 0).1 = copying.tline ∧
       (s.lineOf { (s.route copying.route).comb with started := true } copying.tL (5000 * 65536)).1 ≠ copying.tline) ∧
    (cfgd 4 [(0x284020, .num 3)]).num (capIdx 0) 0x20 = 3 ∧
    (cfgd 4 []).sampleClock = true ∧ edgeTaken ((cfgd 4 []).num 0x2800 (0x01 + (0 : Fin 2).val)) true = true := by decide +kernel

/-- TRIG_IN 0 with an edge stamped at cycle 0. -/
def triggered : State :=
  { (cfgd 4 []).put 0x1500 0x03 0x0DFF with trigIn := (cfgd 4 []).trigIn.set 0 { (cfgd 4 []).trigIn.get 0 with last := some 0 } }

theorem witness_TriggerDeadTime : inDeadTime ((cfgd 4 []).trigIn.get 0).last (triggered.localTime 4 0) = false ∧
    triggered.sampleClock = true ∧ edgeTaken (triggered.num 0x2800 0x01) true = true ∧
    (triggered.trigIn.get 0).last = some 0 ∧ triggered.localTime 4 0 < 0 + 12 * 65536 := by decide +kernel

/-- A frame of one packet that waits on link 0. -/
def frame : Frame :=
  { stream := 2, route := 0, fcount := 0, deadline := none, bytes := [0], next := #v[some 0, none], entered := #v[none, none], replay := false, started := false,
    lost := false, counted := false, records := 0 }

/-- The device with that frame in its backlog and DX0 in a state. -/
def linked (st : Nat) : State :=
  { dev 4 [(0x112010, .num st), (streamIdx 2 * 256 + 2, .num 1)] with streams := { Streams.reset with backlog := [frame], arp := [⟨0, 1, 2, 0⟩] } }

theorem witness_Links : (linked 1).linkState 0 = 1 ∧ (linked 1).power.dead = false ∧ 2 ≤ (linked 1).mode ∧ (linked 1).nextFrame 0 = some 0 ∧
    (linked 1).streams.backlog[0]? = some frame ∧ (linked 1).arpKnown 0 ((linked 1).streamDest frame.stream 0) = true ∧ (linked 1).tooLate 0 frame 0 = false ∧ frame.bytes.length ≤ (0 + 1) * (linked 1).packetSize ∧
    (linked 1).nextFrame 1 = none ∧ (linked 2).linkState 0 ≠ 1 ∧ (linked 2).linkState 0 = 2 ∧ (linked 2).streams.trying10.get 0 = false ∧
    (linked 2).num 0x1120 0x02 = 0 ∧ (linked 2).on 0x1120 0x08 = true ∧ (dev 4 [(0x112008, .num 0)]).on 0x1120 0x08 = false ∧ (linked 3).linkState 0 = 3 ∧
    (linked 2).linksRun = true ∧ (linked 2).on 0x1120 0x01 = true ∧
    (linked 1).streams.arp.find? (fun e => e.link == 0 && e.ip == 1) = some ⟨0, 1, 2, 0⟩ ∧ 3 ≤ (⟨0, 1, 2, 3⟩ : ArpEntry).misses ∧ (⟨0, 1, 2, 0⟩ : ArpEntry).misses < 3 ∧
    (({ linked 1 with power := { (linked 1).power with dead := true } } : State).power.dead = true) ∧
    (let s := dev 4 [(0x112010, .num 1), (0x112004, .num 1), (0x112013, .num 5), (streamIdx 1 * 256 + 2, .num 9)]
     allStreams.any (fun st => s.streamDest st 0 == 9) = true ∧ s.ownAddress 0 5 = true ∧ s.num 0x1120 0x04 = 1) ∧
    ({ (linked 1).streams with gathered := [⟨0, 0, 0, 0, 0, 0, 0, 0, 0, 0⟩] } : Streams).gathered ≠ [] ∧ (linked 1).streams.gathered = [] ∧ (dev 1 []).mode ≤ 1 ∧
    (dev 2 []).clkBit 8 = true ∧ (dev 2 []).power.resetLow = false ∧ (dev 2 []).power.bringUp = none ∧ (dev 2 []).gated 1 = false ∧ (dev 2 []).gated 0 = false ∧
    (dev 2 [(0x152002, .num 1)]).gated 0 = true ∧
    (dev 2 []).on 0x1110 0x01 = true := by decide +kernel

/-- The device in a time state under a reference, with a time unit. -/
def timed (st rf : Nat) (x : TimeUnit) : State := { dev 4 [(0x140020, .num st), (0x140021, .num rf)] with time := x }

theorem witness_DeviceTime : (timed 0 0 TimeUnit.reset).timeState = 0 ∧ (timed 0 0 TimeUnit.reset).mode ≠ 7 ∧ (timed 0 0 TimeUnit.reset).theta = none ∧
    (let s := timed 2 1 { TimeUnit.reset with ppsTheta := some (2000000 * 65536), lockRun := 15 }
     s.theta = some (2000000 * 65536) ∧ s.timeState = 2 ∧ s.time.fresh = false ∧
       ((s.num 0x1400 0x07 * 65536 : Nat) : Int) ≤ (((2000000 * 65536 : Int).natAbs : Nat) : Int) ∧ s.time.lockRun = 15 ∧
       (((50 * 65536 : Int).natAbs : Nat) : Int) ≤ s.lockLimit ∧ (((50 * 65536 : Int).natAbs : Nat) : Int) < ((s.num 0x1400 0x07 * 65536 : Nat) : Int)) ∧
    (let s := timed 3 1 { TimeUnit.reset with ppsTheta := some (401 * 65536), farRun := 3 }
     s.timeState = 3 ∧ s.time.fresh = false ∧ s.time.farRun = 3 ∧ 4 * s.lockLimit < (((401 * 65536 : Int).natAbs : Nat) : Int)) ∧
    (timed 2 1 TimeUnit.reset).sampleClock = true ∧ edgeTaken ((timed 2 1 TimeUnit.reset).num 0x1400 0x0E) true = true ∧
    (TimeUnit.reset).ppsMiss = 0 ∧ ({ TimeUnit.reset with ppsMiss := 1, ppsGood := 2, refinGood := 1, refinBad := 1 } : TimeUnit).ppsMiss = 1 ∧
    (9999000000 ≤ 10000000000 ∧ 10000000000 ≤ 10001000000 ∧ 9998999999 < 9999000000) ∧
    (dev 4 [(0x140002, .num 1), (0x140026, .num 1)]).present ((dev 4 [(0x140002, .num 1), (0x140026, .num 1)]).num 0x1400 0x02) = true ∧
    (timed 4 0 TimeUnit.reset).timeState = 4 ∧ (timed 1 0 TimeUnit.reset).timeState = 1 ∧ true = ((timed 1 0 TimeUnit.reset).num 0x1400 0x0C == 0) ∧
    false ≠ ((timed 1 0 TimeUnit.reset).num 0x1400 0x0C == 0) := by decide +kernel

/-- An edge one second after the last is in place, whatever the latency of the path. -/
theorem witness_pps_in_place (s : State) : ∃ last : Int, ((s.tdcStamp 6 s.cyc 0 0).1 - last - sec16).natAbs ≤ 6553600000 :=
  ⟨(s.tdcStamp 6 s.cyc 0 0).1 - sec16, by omega⟩

/-- A Sync of a one-step master. -/
def syncOf (two : Bool) : PtpSync := { followUp := false, twoStep := two, domain := 0, seqId := 1, source := 5, origin := 0, correction := 0, stamp := 65536 }

/-- A time stamp input whose low level is recognised, with an edge stamped at cycle 0. -/
def stamped : State :=
  let s := (dev 4 [(0x142001, .num 1), (0x142601, .num 1), (0x144001, .num 1)]).put 0x1500 0x03 0x0DFF
  { s with inputs := (s.inputs.set 0 ⟨some false, none, 0, []⟩).set 6 ⟨some false, some 0, 0, []⟩ }

theorem witness_Stamps :
    (let s := stamped
     s.sampleClock = true ∧ s.num (0x1420 + (0 : Fin 8).val) 0x01 = 1 ∧ s.num (0x1420 + (6 : Fin 8).val) 0x01 = 1 ∧
       (s.inputs.get 0).recognises true 2 = true ∧ (s.inputs.get 6).recognises true 2 = true ∧ (s.inputs.get 0).recognises true 1 = false ∧
       (s.inputs.get 0).recognises false 2 = false ∧
       edgeTaken (s.num (0x1420 + (0 : Fin 8).val) 0x02) true = true ∧ (0 : Fin 8).val < 6 ∧ 6 ≤ (6 : Fin 8).val ∧
       inDeadTime (s.inputs.get 6).last (s.localTime 2 0) = true ∧ inDeadTime ((dev 4 []).inputs.get 6).last (s.localTime 2 0) = false ∧
       s.num 0x1440 0x01 ≠ 0 ∧ (s.gateCount (1, 0, 0)).1 < 2 ∧ 2 ≤ (s.gateCount (2, 0, 65536)).1 ∧
       (s.gateCount (2, 0, 65536)).2.1 < (s.gateCount (2, 0, 65536)).2.2 ∧ ((dev 4 []).put 0x1500 0x03 0).sampleClock = false) := by decide +kernel

theorem witness_Bus :
    ({ (dev 4 []).time with calibrating := true } : TimeUnit).calibrating = true ∧ (dev 4 []).power.bringUp = none ∧ (dev 4 []).time.channels.length = 10 ∧
    (∀ i < 10, tdcGood ((List.replicate 10 (List.replicate 128 512)).getD i []) = true) ∧
    (let s := { dev 4 [(0x115001, .num 1), (0x115010, .num 9), (0x111010, .num 1)] with ptp := { Ptp.reset with master := some ⟨5, [], []⟩ } }
     s.ptpOn = true ∧ s.ptpState = 9 ∧ s.ptp.master = some ⟨5, [], []⟩ ∧ (⟨5, [], []⟩ : Master).source = (syncOf true).source ∧
       (syncOf true).domain.toNat = s.num 0x1150 0x06 ∧ (1 : BitVec 8).toNat ≠ s.num 0x1150 0x06 ∧ (syncOf false).twoStep = false) ∧
    (let s := dev 4 [(0x115001, .num 1), (0x115010, .num 6), (0x111010, .num 1)]
     s.ptpOn = true ∧ s.ptpState = 6 ∧ s.p2p = false ∧ s.ptpLink = true ∧ s.keeperServes = true) ∧
    (let s := dev 4 [(0x145001, .num 2), (0x145010, .num 3), (0x145002, .num 4)]
     s.syncState = 3 ∧ s.syncDrives = true ∧ s.syncClock = true ∧ syncValid 157 s.leaderMessage = true ∧ bitField s.leaderMessage 1 15 = 0x2B3C ∧
       bitField s.leaderMessage 16 4 = 1 ∧ syncValid 157 [] = false ∧ s.sync.sending = false ∧ ({ s.sync with sending := true } : SyncBus).sending = true ∧
       (let b := syncMessage (List.replicate 140 false)
        syncValid 157 b = true ∧ bitField b 1 15 ≠ 0x2B3C) ∧ ({ s.sync with queue := [(1, 2)] } : SyncBus).queue = (1, 2) :: [] ∧
       ((dev 4 []).put 0x1500 0x03 0).syncDrives = false ∧ syncValid 83 [] = false ∧ (4 : Fin 16).val = s.syncUnit) ∧
    (let b := unitMessage 4 none
     syncValid 83 b = true ∧ bitField b 1 4 = 2 ∧ bitField b 5 4 = 4) ∧
    (let b := unitMessage 4 (some (1, 65536))
     let s := dev 4 [(0x145001, .num 2), (0x145010, .num 1)]
     syncValid 83 b = true ∧ bitField b 1 4 = 3 ∧ bitField b 5 4 ≠ s.syncUnit ∧ bitField (unitMessage s.syncUnit (some (1, 65536))) 5 4 = s.syncUnit ∧
       s.syncState = 1 ∧ s.num 0x1450 0x01 = 2 ∧ s.syncClock = true) := by decide +kernel

/-- Channel 0 in service with a DRAM state. -/
def chan (st : Nat) (d : Dram) : State := { dev 4 [(0x161010, .num st), (0x161110, .num 2)] with dram := #v[d, Dram.reset] }

/-- A request of class 1 for a frame of stream 2 of route A, and one for a row of rank 0. -/
def asked : DramReq := { cls := 1, place := (0, 0, 0), work := .frame 2 0 0, deadline := some 0 }

theorem witness_Memory : (chan 2 Dram.reset).chServing 0 = true ∧ (chan 0 Dram.reset).chServing 0 = false ∧ (chan 2 Dram.reset).clkBit 7 = true ∧
    (chan 3 Dram.reset).clkBit 7 = true ∧
    ((chan 2 Dram.reset).put 0x1500 0x03 0).clkBit 7 = false ∧ (0 : Fin 2).val < (chan 2 Dram.reset).ranks ∧
    Dram.reset.waits 0 (fun c => c == 1 || c == 2) = false ∧ ({ Dram.reset with queue := [asked] } : Dram).waits 0 (fun c => c == 1 || c == 2) = true ∧
    ({ Dram.reset with queue := [asked] } : Dram).debt.get 0 < debtLimit Dram.reset.hot ∧
    debtLimit Dram.reset.hot ≤ ({ Dram.reset with debt := #v[8, 0] } : Dram).debt.get 0 ∧
    0 < ({ Dram.reset with debt := #v[8, 0] } : Dram).debt.get 0 ∧ ({ Dram.reset with debt := #v[8, 0] } : Dram).waits 0 (fun _ => true) = false ∧
    ({ Dram.reset with debt := #v[8, 0] } : Dram).busy.get 0 ≤ (chan 2 Dram.reset).cyc ∧
    ({ Dram.reset with neighbours := [((0, 1, 2), 0)] } : Dram).neighbours = ((0, 1, 2), 0) :: [] ∧ Dram.reset.neighbours = [] ∧ (5 : Fin 8).val ≤ 5 ∧
    (chan 2 Dram.reset).trainDue 0 1000 = true ∧ (chan 2 Dram.reset).trainDue 0 0 = false ∧
    (let late := fun (q : DramReq) => q.cls == 1 && q.serves 2 .a && (q.deadline.map (fun t => decide (t ≤ (chan 2 Dram.reset).cyc + 200000))).getD false
     ({ Dram.reset with queue := [asked] } : Dram).queue.find? late = some asked ∧ Dram.reset.queue.find? late = none) ∧
    (let s := heated (rayed (cfgd 4 [(0x253001, .num 1)]) { Rayleigh.reset with handoff := some hand }) { Thermal.reset with trackSeq := some 0 }
     s.handoff .a = some hand ∧ (s.route .a).thermal.trackSeq = some hand.launch.seq ∧ (s.route .a).thermal.trackDone.contains 0 = false) ∧
    (chan 2 Dram.reset).chState 0 = 2 ∧ (chan 2 Dram.reset).chState 1 = 2 ∧ (chan 2 Dram.reset).mode ≠ 7 ∧
    (chan 3 Dram.reset).chState 0 = 3 ∧ (optic (chan 3 Dram.reset) lit).noLaunch = false ∧ (chan 3 Dram.reset).power.bringUp = none ∧
    (chan 3 Dram.reset).num 0x1600 0x0A ≤ eyeWidth [40, 41] ∧ ({ Dram.reset with retiring := true } : Dram).retiring = true ∧ Dram.reset.retiring = false ∧
    (⟨0, 5, true⟩ : BurstError).bad = true ∧ (optic (chan 2 { Dram.reset with retiring := true }) lit).noLaunch = false ∧
    (optic (chan 2 { Dram.reset with retiring := true }) lit).chServing 0 = true ∧ (chan 2 Dram.reset).keeperServes = true ∧
    ({ chan 2 Dram.reset with power := { (chan 2 Dram.reset).power with dead := true } } : State).keeperServes = false ∧
    (chan 0 Dram.reset).chState 0 ≠ 2 ∧ (∀ e ∈ (chan 2 Dram.reset).rows.corrected, (e.1, e.2.1, e.2.2.1) ≠ (0, 0, 0)) ∧
    (let k := (storeNum .hive, (0 : Fin 16).val, (7 : Fin 1024).val)
     ({ (chan 2 Dram.reset).rows with lasting := [k] } : Rows).lasting.contains k = true ∧ (chan 2 Dram.reset).rows.lasting.contains k = false ∧
       (((chan 2 Dram.reset).rows.spared.filter (fun e => e.1 == k.1 && e.2.1 == k.2.1)).length < 8) ∧
       8 ≤ ((List.replicate 8 k).filter (fun e => e.1 == k.1 && e.2.1 == k.2.1)).length) := by decide +kernel

/-- The worked mapping of 14_memory.md: channel 1, ca 595,030, then rank 0, bank 7, row 18 of an 8 GiB dual-rank channel. -/
theorem test_interleaved : interleave 12 0x123456 = (1, 595030) ∧ 595030 / 64 = 9297 ∧
    ({ dev 2 [] with control := { Control.reset with geometry := [3, 0, 3, 2, 12] } } : State).burstPlace 9297 = (0, 7, 18) := by decide

/-- While no Keeper runs a record is latched; the next Keeper issues it (R446). -/
theorem test_held_records : (let s := { dev 2 [] with power := { (dev 2 []).power with dead := true } }
    let t := s.issue 0x34 0x27 0 0
    t.streams.held.length = 1 ∧ t.streams.log = s.streams.log ∧ t.releaseHeld.streams.held = [] ∧
      (t.releaseHeld.streams.log.getLast?.map (·.type)) = some 0x34) := by decide +kernel

/-- A converter under a trigger and an injected trigger. -/
def conv (n m : Nat) : Hka := { Hka.reset with cfg := [(0x180001, .num n), (0x180006, .num m)] }

/-- Housekeeping whose converters run under a trigger and an injected trigger. -/
def keeping (n m : Nat) : State :=
  { dev 4 [(0x180001, .num n), (0x180006, .num m)] with hka := { Housekeeping.reset with hka0 := conv n m, hka1 := conv n m } }

theorem witness_Converters :
    (keeping 1 0).takeIdle.hkaNum 0x01 = 1 ∧ (keeping 1 0).takeIdle.hkaNum 0x06 ≠ 7 ∧ (keeping 1 0).hkaRuns = true ∧
    ({ Housekeeping.reset with passing := true } : Housekeeping).passing = true ∧ Housekeeping.reset.passing = false ∧ Housekeeping.reset.calRunning = false ∧
    ({ Housekeeping.reset with calRunning := true } : Housekeeping).passing = false ∧ (optic (keeping 2 0) lit).anyLaunching = true ∧
    (optic (keeping 2 0) lit).takeIdle.hkaNum 0x01 = 2 ∧ Housekeeping.reset.hka0.retired = false ∧ (keeping 3 7).takeIdle.hkaNum 0x01 = 3 ∧
    (keeping 3 7).takeIdle.hkaNum 0x06 = 7 ∧ (keeping 3 7).anyLaunching = false ∧
    (Opened .can (keeping 3 0)).takeIdle.hkaNum 0x01 = 3 ∧ (Opened .can (keeping 3 0)).takeIdle.hkaNum 0x06 = 0 ∧
    (Opened .can (keeping 1 7)).takeIdle.hkaNum 0x01 ≠ 3 ∧ (Opened .can (keeping 1 7)).takeIdle.hkaNum 0x06 ≠ 0 ∧
    (keeping 3 0).mode ≠ 7 ∧ (dev 7 []).mode = 7 ∧
    ({ Hka.reset with injected := [0] } : Hka).injectedBusy = true ∧ ({ Hka.reset with job := .entry 3 } : Hka).job = .entry 3 ∧
    (List.replicate (({ Hka.reset with job := .entry 3 } : Hka).profile 0).a (0 : Int)).length = (({ Hka.reset with job := .entry 3 } : Hka).profile 0).a ∧
    Hka.reset.job = .idle ∧ Hka.reset.calOver = true ∧ Housekeeping.reset.calHeld = false ∧ Housekeeping.reset.trigHeld = false ∧
    ({ Housekeeping.reset with excitationDue := some (3, 4) } : Housekeeping).excitationDue = some (3, 4) ∧ Housekeeping.reset.excitationDue = none ∧
    (keeping 1 0).convGated 1 = false ∧ (dev 4 [(0x152002, .num 8)]).convGated 1 = true := by decide +kernel

end Sys2Proof.Tests
end

/-! The rounding and the saturation of R13 and R14: each function of the model in the forms in which the rules state it. -/

namespace Sys2Proof.Machine

open Sys2Proof

/-- R13, F = 0. -/
@[simp] theorem rhu_zero (x : Int) : rhu x 0 = x := rfl

theorem rhu_of_pos (x : Int) {f : Nat} (hf : 1 ≤ f) : rhu x f = (x + 2 ^ (f - 1)) / 2 ^ f :=
  if_neg (Nat.pos_iff_ne_zero.1 hf)

/-- R13's first form, the arithmetic shift: it is Lean's integer division, which rounds toward minus infinity. -/
theorem rhu_eq_shiftRight (x : Int) {f : Nat} (hf : 1 ≤ f) : rhu x f = (x + 2 ^ (f - 1)) >>> f := by
  rw [rhu_of_pos x hf, Int.shiftRight_eq_div_pow, Nat.cast_pow, Nat.cast_ofNat]

/-- R13's second form, the floor of the exact quotient. -/
theorem rhu_eq_floor (x : Int) {f : Nat} (hf : 1 ≤ f) : rhu x f = ⌊((x : ℚ) + 2 ^ (f - 1)) / 2 ^ f⌋ := by
  have hfloor := Rat.floor_intCast_div_natCast (x + 2 ^ (f - 1)) (2 ^ f)
  push_cast at hfloor
  rw [rhu_of_pos x hf, hfloor]

/-- R14, an unsigned destination: below 0 the model tests the sign, from 0 upward it takes a minimum of natural numbers. -/
theorem satU_eq_max_min (x : Int) (w : Nat) : (satU x w : Int) = max 0 (min x (2 ^ w - 1)) := by
  have htop : ((2 ^ w - 1 : Nat) : Int) = 2 ^ w - 1 := by simp [Nat.cast_sub Nat.one_le_two_pow]
  rw [← htop]
  unfold satU
  split
  case isTrue hneg => omega
  case isFalse hneg =>
    change ((min x.toNat (2 ^ w - 1) : Nat) : Int) = _
    omega

/-- Settles O7: the arithmetic shift and the floor are two readings of the same integer division, and each saturation is a
limit to the two ends of its range (for a signed destination by `sat_clamp`). -/
theorem roundingAndSaturationAreAsStated : Obligations.RoundingAndSaturationAreAsStated := by
  unfold Obligations.RoundingAndSaturationAreAsStated
  intro x f w
  exact ⟨rhu_zero x, fun hf => ⟨rhu_eq_shiftRight x hf, rhu_eq_floor x hf⟩, sat_clamp w x, satU_eq_max_min x w⟩

end Sys2Proof.Machine

/-! Where a Forager instruction goes (R247, R248): branches with their two delay slots, and the loop stack. -/

namespace Sys2Proof.Machine

open Sys2Proof Sys2Proof.Safety

/-! ### The end of a loop body -/

theorem loopEnd_of_no_end {pc : BitVec 12} {levels : List LoopLevel} (h : ∀ k ∈ levels.head?, k.stop ≠ pc) (next : BitVec 12) :
    loopEnd pc next levels = (next, levels) := by
  cases levels with
  | nil => rfl
  | cons l rest => exact if_neg (h l rfl)

theorem loopEnd_repeats {l : LoopLevel} (hcount : l.count ≠ 1) (next : BitVec 12) (rest : List LoopLevel) :
    loopEnd l.stop next (l :: rest) = (l.start, { l with count := l.count - 1 } :: rest) := by
  simp only [loopEnd, if_true, if_neg hcount]

theorem loopEnd_pops {l : LoopLevel} (hcount : l.count = 1) (next : BitVec 12) (rest : List LoopLevel) :
    loopEnd l.stop next (l :: rest) = loopEnd l.stop next rest := by
  simp only [loopEnd, if_true, if_pos hcount]

/-! ### Where an instruction goes: one equation per case of `Core.advance` -/

/-- Execution goes on from the pc to `next` with `levels` on the loop stack, unless the innermost of them ends here. -/
def Core.goOn (c : Core) (next : BitVec 12) (levels : List LoopLevel) : Core :=
  { c with pc := (loopEnd c.pc next levels).1, loops := (loopEnd c.pc next levels).2 }

theorem Core.goOn_of_no_end {c : Core} {levels : List LoopLevel} (h : ∀ k ∈ levels.head?, k.stop ≠ c.pc) (next : BitVec 12) :
    c.goOn next levels = { c with pc := next, loops := levels } := by
  simp only [Core.goOn, loopEnd_of_no_end h]

theorem Core.advance_in_sequence {c : Core} (hb : c.branch = none) : c.advance {} = c.goOn (c.pc + 1) c.loops := by
  simp only [Core.advance, Core.goOn, hb]

theorem Core.advance_skip {c : Core} (hb : c.branch = none) (stop : BitVec 12) :
    c.advance { skip := some stop } = c.goOn (stop + 1) c.loops := by
  simp only [Core.advance, Core.goOn, hb]

theorem Core.advance_push {c : Core} (hb : c.branch = none) (l : LoopLevel) :
    c.advance { push := some l } = c.goOn (c.pc + 1) (l :: c.loops) := by
  simp only [Core.advance, Core.goOn, hb]

theorem Core.advance_taken (c : Core) (target : BitVec 12) :
    c.advance { target := some target } = { c.goOn (c.pc + 1) c.loops with branch := some (2, target) } := rfl

/-- The instruction in the first delay slot: one more follows. -/
theorem Core.advance_first_delay_slot {c : Core} {target : BitVec 12} (hb : c.branch = some (2, target)) :
    c.advance {} = { c.goOn (c.pc + 1) c.loops with branch := some (1, target) } := by
  simp only [Core.advance, Core.goOn, hb, Nat.reduceLeDiff, if_false, Nat.reduceSub]

/-- The instruction in the second delay slot: the branch leaves the levels that a body end there has left. -/
theorem Core.advance_second_delay_slot {c : Core} {target : BitVec 12} (hb : c.branch = some (1, target)) :
    c.advance {} =
      { c with pc := target, branch := none, loops := loopsKept target (loopEnd c.pc (c.pc + 1) c.loops).2 } := by
  simp only [Core.advance, hb, le_refl, if_true]

/-! ### A taken branch beside one that is not taken -/

theorem Core.advance_taken_eq {c : Core} (hb : c.branch = none) (target : BitVec 12) :
    c.advance { target := some target } = { c.advance {} with branch := some (2, target) } := by
  rw [Core.advance_taken, Core.advance_in_sequence hb]

theorem Core.advance_branch_none {c : Core} (hb : c.branch = none) : (c.advance {}).branch = none := by
  rw [Core.advance_in_sequence hb]
  exact hb

theorem Core.advance_taken_first_delay_slot_eq {c : Core} (hb : c.branch = none) (target : BitVec 12) :
    (c.advance { target := some target }).advance {} = { (c.advance {}).advance {} with branch := some (1, target) } := by
  rw [Core.advance_taken_eq hb, Core.advance_first_delay_slot rfl, Core.advance_in_sequence (Core.advance_branch_none hb)]
  rfl

theorem Core.advance_of_no_loops {c : Core} (hb : c.branch = none) (hl : c.loops = []) :
    (c.advance {}).pc = c.pc + 1 ∧ (c.advance {}).loops = [] := by
  rw [Core.advance_in_sequence hb, hl, Core.goOn_of_no_end (by simp)]
  exact ⟨rfl, rfl⟩

/-! ### Levels left by a taken branch -/

theorem LoopLevel.holds_iff (l : LoopLevel) (a : BitVec 12) : l.holds a = true ↔ l.start ≤ a ∧ a ≤ l.stop := by
  simp only [LoopLevel.holds, Bool.and_eq_true, decide_eq_true_eq]

theorem holds_of_mem_loopsKept {a : BitVec 12} {levels : List LoopLevel} {k : LoopLevel} (hk : k ∈ loopsKept a levels) :
    k.start ≤ a ∧ a ≤ k.stop :=
  (k.holds_iff a).1 (List.mem_takeWhile_imp (p := fun x : LoopLevel => x.holds a) (List.mem_reverse.1 hk))

theorem loopsKept_concat_of_holds {a : BitVec 12} {outer : LoopLevel} (h : outer.holds a = true) (inner : List LoopLevel) :
    loopsKept a (inner ++ [outer]) = loopsKept a inner ++ [outer] := by
  simp [loopsKept, h]

theorem loopsKept_concat_of_not_holds {a : BitVec 12} {outer : LoopLevel} (h : ¬ outer.holds a = true) (inner : List LoopLevel) :
    loopsKept a (inner ++ [outer]) = [] := by
  simp [loopsKept, h]

/-- A taken branch pops as far as a level whose body excludes the target, by induction from the outermost level inward. -/
theorem exists_loopsKept_eq_drop (a : BitVec 12) (levels : List LoopLevel) :
    ∃ n, loopsKept a levels = levels.drop n ∧
      (n = 0 ∨ ∃ k, levels[n - 1]? = some k ∧ ¬ (k.start ≤ a ∧ a ≤ k.stop)) := by
  induction levels using List.reverseRecOn with
  | nil => exact ⟨0, rfl, .inl rfl⟩
  | append_singleton inner outer ih =>
    by_cases hold : outer.holds a = true
    · rw [loopsKept_concat_of_holds hold]
      obtain ⟨n, hdrop, rfl | ⟨k, hk, hout⟩⟩ := ih
      · exact ⟨0, by rw [hdrop, List.drop_zero, List.drop_zero], .inl rfl⟩
      · have hlt : n - 1 < inner.length := (List.getElem?_eq_some_iff.1 hk).1
        refine ⟨n, ?_, .inr ⟨k, ?_, hout⟩⟩
        · rw [hdrop, List.drop_append_of_le_length (by omega)]
        · rw [List.getElem?_append_left hlt, hk]
    · rw [loopsKept_concat_of_not_holds hold]
      refine ⟨inner.length + 1, ?_, .inr ⟨outer, ?_, fun h => hold ((outer.holds_iff a).2 h)⟩⟩
      · exact (List.drop_eq_nil_of_le (by simp)).symm
      · exact List.getElem?_concat_length

/-! ### Branch instructions -/

/-- An instruction of one cycle that writes nothing and lands nothing: it only goes where its effect says. -/
theorem completes_of_place {i : Instr} {s : State} {core : Fin 8} {w free : W32} {F : Core → FgEff} {e : FgEff}
    (hx : exec i s = .next (issueWith core w free 1 F s).settle) (hm : MayIssue s core w free)
    (he : F (s.cores.get core) = e) (hlate : e.late = []) (hwrite : e.write = id) : Completes i s core 1 [] id e := by
  subst he
  exact completes_of hx hm hlate (congrFun hwrite _) keepsPlace_id rfl rfl rfl

/-- A branch completes with its target taken exactly when its condition holds of the core as it stands. -/
theorem completes_branchIf {i : Instr} {s : State} {core : Fin 8} {w free : W32} {target : BitVec 12} {taken : Core → Bool} {p : Prop}
    [Decidable p] (hx : exec i s = .next (branchIf core w free target taken s).settle) (hp : taken (s.cores.get core) = true ↔ p)
    (hm : MayIssue s core w free) : Completes i s core 1 [] id { target := if p then some target else none } :=
  completes_of_place hx hm (congrArg (fun x => ({ target := x } : FgEff)) (if_congr hp rfl rfl)) rfl rfl

/-- Settles O19: each instruction issues with its target, and a taken branch keeps the place of one not taken until its second
delay slot ends. -/
theorem branchesHaveTwoDelaySlots : Obligations.BranchesHaveTwoDelaySlots := by
  unfold Obligations.BranchesHaveTwoDelaySlots
  refine ⟨fun s core s1 s2 target => ?_, fun c target hb => ?_⟩
  · refine ⟨fun hm => ?nop, completes_branchIf rfl ?br, completes_branchIf rfl ?beq, completes_branchIf rfl ?bne,
      completes_branchIf rfl ?blt, completes_branchIf rfl ?bge, fun hm => ?call, fun hm => ?jr⟩
    case nop => exact completes_of_place rfl hm rfl rfl rfl
    case br => exact iff_of_true rfl trivial
    case beq => exact beq_iff_eq
    case bne => exact bne_iff_ne
    case blt => exact BitVec.slt_iff_toInt_lt
    case bge => rw [Bool.not_eq_true', Bool.eq_false_iff, Ne, BitVec.slt_iff_toInt_lt, Int.not_lt]
    case call =>
      have hlink : BitVec.zeroExtend 32 (s.cores.get core).pc + 3 = BitVec.ofNat 32 ((s.cores.get core).pc.toNat + 3) := by
        bv_omega
      exact completes_of rfl hm rfl (congrArg (Core.setReg _ 15) hlink) (keepsPlace_setReg _ _) rfl rfl rfl
    case jr => exact completes_of_place rfl hm rfl rfl rfl
  · have hnext : (c.advance {}).branch = none := Core.advance_branch_none hb
    have hslot := Core.advance_taken_first_delay_slot_eq hb target
    refine ⟨?_, ?_, ?_, ?_, ?_, hnext, Core.advance_branch_none hnext, fun hl => ?_⟩
    · rw [hslot, Core.advance_second_delay_slot rfl]
    · rw [hslot, Core.advance_second_delay_slot rfl]
    · rw [Core.advance_taken_eq hb]
    · rw [Core.advance_taken_eq hb]
    · rw [hslot]
    · obtain ⟨hpc1, hl1⟩ := Core.advance_of_no_loops hb hl
      obtain ⟨hpc2, hl2⟩ := Core.advance_of_no_loops hnext hl1
      obtain ⟨hpc3, -⟩ := Core.advance_of_no_loops (Core.advance_branch_none hnext) hl2
      refine ⟨?_, ?_, ?_⟩
      · rw [Core.advance_taken_eq hb, hpc1]
      · rw [hslot, hpc2, hpc1, BitVec.add_assoc]; rfl
      · show (((c.advance {}).advance {}).advance {}).pc = c.pc + 3
        rw [hpc3, hpc2, hpc1, BitVec.add_assoc, BitVec.add_assoc]; rfl

/-! ### Loop instructions -/

theorem Core.mayPush_iff (c : Core) (stop : BitVec 12) :
    c.mayPush stop = true ↔ c.loops.length < 3 ∧ ∀ l ∈ c.loops.head?, stop ≤ l.stop := by
  cases hl : c.loops <;> simp [Core.mayPush, hl]

theorem Core.mayPush_eq_false_iff (c : Core) (stop : BitVec 12) :
    c.mayPush stop = false ↔ 3 ≤ c.loops.length ∨ ∃ l ∈ c.loops.head?, l.stop < stop := by
  rw [← Bool.not_eq_true, Core.mayPush_iff, not_and_or]
  simp only [not_forall, not_lt, exists_prop, BitVec.not_le]

/-- What a loop instruction does in sequence: with a count of 0 it skips the body, else it pushes its level. -/
def loopEff (stop : BitVec 12) (count : Core → BitVec 16) (c : Core) : FgEff :=
  if count c = 0 then { skip := some stop } else { push := some ⟨c.pc + 1, stop, count c⟩ }

section
variable {s : State} {core : Fin 8} {w : W32} {stop : BitVec 12} {count : Core → BitVec 16}

theorem loopWith_eq (hm : MayIssue s core w 0) :
    loopWith core w stop count s =
      if count (s.cores.get core) != 0 && !(s.cores.get core).mayPush stop then s.programFault core 1
      else issueWith core w 0 1 (loopEff stop count) s := by
  rw [issueWith_of s core w 0 1 _ hm, loopWith, checked_of core w 0 _ _ s hm (by simp)]
  rfl

theorem loopWith_of_count_zero (hm : MayIssue s core w 0) (hn : count (s.cores.get core) = 0) :
    loopWith core w stop count s = issueWith core w 0 1 (loopEff stop count) s := by
  rw [loopWith_eq hm, hn]; rfl

theorem loopWith_of_mayPush (hm : MayIssue s core w 0) (hp : (s.cores.get core).mayPush stop = true) :
    loopWith core w stop count s = issueWith core w 0 1 (loopEff stop count) s := by
  rw [loopWith_eq hm, hp, Bool.not_true, Bool.and_false]; rfl

theorem loopWith_of_not_mayPush (hm : MayIssue s core w 0) (hn : count (s.cores.get core) ≠ 0)
    (hp : (s.cores.get core).mayPush stop = false) : loopWith core w stop count s = s.programFault core 1 := by
  have hfault : (count (s.cores.get core) != 0 && !(s.cores.get core).mayPush stop) = true := by
    rw [hp, Bool.not_false, Bool.and_true, bne_iff_ne]
    exact hn
  rw [loopWith_eq hm, if_pos hfault]

/-- R248 for LOOPI and LOOP alike: the body skipped, the level pushed, or a program fault. -/
theorem loopWith_outcomes {i : Instr} {n : BitVec 16} (hx : exec i s = .next (loopWith core w stop count s).settle)
    (hcount : count (s.cores.get core) = n) (hm : MayIssue s core w 0) :
    (n = 0 → Completes i s core 1 [] id { skip := some stop }) ∧
    (n ≠ 0 → (s.cores.get core).loops.length < 3 → (∀ l ∈ (s.cores.get core).loops.head?, stop ≤ l.stop) →
      Completes i s core 1 [] id { push := some { start := (s.cores.get core).pc + 1, stop := stop, count := n } }) ∧
    (n ≠ 0 → (3 ≤ (s.cores.get core).loops.length ∨ ∃ l ∈ (s.cores.get core).loops.head?, l.stop < stop) →
      exec i s = .next (s.programFault core 1).settle) := by
  subst hcount
  refine ⟨fun hzero => ?_, fun hne hlen hstop => ?_, fun hne hfault => ?_⟩
  · have heff : loopEff stop count (s.cores.get core) = { skip := some stop } := if_pos hzero
    rw [loopWith_of_count_zero hm hzero] at hx
    exact completes_of_place hx hm heff rfl rfl
  · have heff : loopEff stop count (s.cores.get core) = { push := some ⟨_, stop, _⟩ } := if_neg hne
    rw [loopWith_of_mayPush hm ((Core.mayPush_iff _ _).2 ⟨hlen, hstop⟩)] at hx
    exact completes_of_place hx hm heff rfl rfl
  · rw [hx, loopWith_of_not_mayPush hm hne ((Core.mayPush_eq_false_iff _ _).2 hfault)]

end

/-! ### The loop stack as execution goes on -/

theorem Core.advance_at_body_end {c : Core} {l : LoopLevel} {rest : List LoopLevel} (hb : c.branch = none)
    (hl : c.loops = l :: rest) (hpc : c.pc = l.stop) (hcount : l.count ≠ 1) :
    c.advance {} = { c with pc := l.start, loops := { l with count := l.count - 1 } :: rest } := by
  rw [Core.advance_in_sequence hb, hl, Core.goOn, hpc, loopEnd_repeats hcount]

theorem Core.advance_at_last_body_end {c : Core} {l : LoopLevel} {rest : List LoopLevel} (hb : c.branch = none)
    (hl : c.loops = l :: rest) (hpc : c.pc = l.stop) (hcount : l.count = 1) :
    c.advance {} = ({ c with loops := rest } : Core).advance {} := by
  rw [Core.advance_in_sequence hb, Core.advance_in_sequence (c := { c with loops := rest }) hb, hl, Core.goOn, hpc,
    loopEnd_pops hcount]
  simp only [Core.goOn]

/-- Settles O20: the three outcomes of a loop instruction, then the cases of the end of a body, and last the levels that a
taken branch leaves. -/
theorem loopBodiesRepeatByTheirCount : Obligations.LoopBodiesRepeatByTheirCount := by
  unfold Obligations.LoopBodiesRepeatByTheirCount
  refine ⟨fun s core stop count g => ⟨loopWith_outcomes rfl ?_, loopWith_outcomes rfl ?_⟩, fun c stop l hb hin => ?_,
    fun c l rest hb hl => ?_, fun c target hb hin => ?_⟩
  · show BitVec.zeroExtend 16 count = BitVec.ofNat 16 count.toNat
    bv_omega
  · rfl
  · rw [Core.advance_skip hb, Core.goOn_of_no_end hin]
    refine ⟨rfl, rfl, fun hstop => ?_⟩
    have hnew : ∀ k ∈ (l :: c.loops).head?, k.stop ≠ c.pc := by simpa using hstop
    rw [Core.advance_push hb, Core.goOn_of_no_end hnew]
    exact ⟨rfl, rfl⟩
  · refine ⟨fun hpc hcount => ?_, fun hpc hcount => ?_, fun hpc => ?_⟩
    · rw [Core.advance_at_body_end hb hl hpc hcount]
      exact ⟨rfl, rfl⟩
    · rw [Core.advance_at_last_body_end hb hl hpc hcount]
      exact ⟨rfl, rfl⟩
    · have hin : ∀ k ∈ c.loops.head?, k.stop ≠ c.pc := by simpa [hl] using Ne.symm hpc
      rw [Core.advance_in_sequence hb, Core.goOn_of_no_end hin]
      exact ⟨rfl, hl⟩
  · rw [Core.advance_second_delay_slot hb, loopEnd_of_no_end hin]
    obtain ⟨n, hdrop, hn⟩ := exists_loopsKept_eq_drop target c.loops
    exact ⟨rfl, n, hdrop, fun k hk => holds_of_mem_loopsKept hk, hn⟩

end Sys2Proof.Machine

/-! FAULT_N (R464): what a step leaves is a state with its outputs settled, and FAULT_N settled is low while a cause holds. -/

namespace Sys2Proof.Machine

open Sys2Proof

/-! ### What a step leaves -/

/-- Assumption log 8: each command, whichever it is, ends by settling the outputs. One direct call per arm of the dispatch, so
each case is an unfolding of the command's meaning. -/
theorem exec_eq_next (i : Instr) (s : State) : ∃ u : State, exec i s = u.next := by
  cases i <;> exact ⟨_, rfl⟩

theorem step_eq_next (s : State) : ∃ u : State, step s = u.next := by
  unfold step
  split
  case h_1 => exact ⟨s.tick, rfl⟩
  case h_2 c rest _ => exact exec_eq_next c { s with pending := rest }

/-- The inversion of a step: the state it leaves has its outputs settled. -/
theorem eq_settle_of_step {s t : State} (h : step s = .next t) : ∃ u : State, t = u.settle := by
  obtain ⟨u, hu⟩ := step_eq_next s
  exact ⟨u, (Host.Outcome.next.inj (hu.symm.trans h)).symm⟩

/-! ### FAULT_N and its causes -/

/-- FAULT_N is driven last, and no cause of it is an output, so settling leaves it as its causes then stand. -/
theorem State.settle_faultN (s : State) : s.settle.pins.faultN = !s.settle.faultCause := rfl

theorem faultN_of_step {s t : State} (h : step s = .next t) : t.pins.faultN = !t.faultCause := by
  obtain ⟨u, rfl⟩ := eq_settle_of_step h
  exact u.settle_faultN

theorem bit_field (n hi lo k : Nat) : bit (field n hi lo) k = (decide (k < hi + 1 - lo) && bit n (lo + k)) := by
  simp only [bit, field, Nat.testBit_mod_two_pow, Nat.testBit_div_two_pow, Nat.add_comm k lo]

/-- A field is not 0 exactly when some bit of it is set. -/
theorem field_ne_zero_iff (n hi lo : Nat) : field n hi lo ≠ 0 ↔ ∃ b, lo ≤ b ∧ b ≤ hi ∧ bit n b = true := by
  constructor
  · intro hne
    obtain ⟨k, hk : bit (field n hi lo) k = true⟩ := Nat.exists_testBit_of_ne_zero hne
    rw [bit_field, Bool.and_eq_true, decide_eq_true_iff] at hk
    obtain ⟨hwidth, hset⟩ := hk
    exact ⟨lo + k, by omega, by omega, hset⟩
  · rintro ⟨b, hlo, hhi, hb⟩ hzero
    have hclear : bit (field n hi lo) (b - lo) = false := by rw [hzero]; exact Nat.zero_testBit _
    rw [bit_field, Nat.add_sub_cancel' hlo, hb, Bool.and_true, decide_eq_false_iff_not] at hclear
    omega

/-- R464's causes, one by one; the match on bring-up says that it runs and has not reached step 3. -/
theorem State.faultCause_iff (s : State) :
    s.faultCause = true ↔
      (∃ k, s.power.bringUp = some k ∧ k < 3) ∨ s.mode = 7 ∨ s.power.dead = true ∨ s.integrity.scan = true ∨
      (s.on 0x1700 0x05 = true ∧
        ((∃ b, 9 ≤ b ∧ b ≤ 15 ∧ bit (s.num 0x1700 0x10) b = true) ∨ bit (s.num 0x2400 0x03) 31 = true)) := by
  unfold State.faultCause
  simp only [Bool.or_eq_true, Bool.and_eq_true, beq_iff_eq, bne_iff_ne, field_ne_zero_iff, or_assoc]
  cases s.power.bringUp with
  | none => simp
  | some k => simp

/-- Settles O4: a step leaves FAULT_N settled, and settled it is low exactly while `State.faultCause` holds. -/
theorem faultNIsLowWhileACauseHolds : Obligations.FaultNIsLowWhileACauseHolds := by
  unfold Obligations.FaultNIsLowWhileACauseHolds
  intro s t h
  rw [faultN_of_step h, Bool.not_eq_false', t.faultCause_iff]

end Sys2Proof.Machine

/-! The outputs follow their causes (R105, Table 3.9, R464): settling makes the safe subsets safe, and no later stage of it
undoes an earlier one. -/

namespace Sys2Proof.Machine

open Sys2Proof Sys2Proof.Safety

theorem safeOutputs_safePins (p : Pins) : SafeOutputs (safePins p) := by
  refine ⟨rfl, rfl, rfl, rfl, rfl, rfl, rfl, rfl, rfl, rfl, ?_, ?_, ?_⟩ <;>
    simp [safePins, vget_set]

theorem routeSafeOutputs_routeSafePins (r : Route) (p : Pins) : RouteSafeOutputs (routeSafePins r p) r := by
  cases r <;> exact ⟨rfl, rfl, rfl, rfl, by simp [routeSafePins, vget_set]⟩

/-- Making one route's subset safe leaves every safe output safe. -/
theorem safeOutputs_routeSafePins {p : Pins} (h : SafeOutputs p) (r : Route) : SafeOutputs (routeSafePins r p) := by
  obtain ⟨hopt, hedfaA, hedfaB, hmodA, hmodB, hdtspA, hdtspB, hclampA, hclampB, hclampR, hpumpA, hpumpB, hraman⟩ := h
  cases r <;> simp [SafeOutputs, routeSafePins, vget_set, *]

/-- The subsets of the two routes share no output. -/
theorem routeSafeOutputs_routeSafePins_other {p : Pins} {r : Route} (h : RouteSafeOutputs p r) :
    RouteSafeOutputs (routeSafePins (otherRoute r) p) r := by
  cases r <;> obtain ⟨hedfa, hmod, hdtsp, hclamp, hpump⟩ := h <;>
    exact ⟨hedfa, hmod, hdtsp, hclamp, by simpa [routeSafePins, otherRoute, vget_set] using hpump⟩

/-- The outputs with one route's subset safe where its cause holds. -/
def heldPins (held : Bool) (r : Route) (p : Pins) : Pins := if held then routeSafePins r p else p

theorem safeOutputs_heldPins {p : Pins} (h : SafeOutputs p) (held : Bool) (r : Route) : SafeOutputs (heldPins held r p) := by
  cases held
  · exact h
  · exact safeOutputs_routeSafePins h r

theorem routeSafeOutputs_heldPins_other {p : Pins} {r : Route} (h : RouteSafeOutputs p r) (held : Bool) :
    RouteSafeOutputs (heldPins held (otherRoute r) p) r := by
  cases held
  · exact h
  · exact routeSafeOutputs_routeSafePins_other h

/-- The outputs before the causes that hold one route alone: ramps, then the safe request. -/
def State.requestedPins (s : State) : Pins :=
  if s.power.safeRequest then safePins (s.rampPins .b (s.rampPins .a s.pins)) else s.rampPins .b (s.rampPins .a s.pins)

theorem State.settle_pins (s : State) :
    s.settle.pins = { heldPins (s.routeHeld .b) .b (heldPins (s.routeHeld .a) .a s.requestedPins) with faultN := !s.faultCause } := rfl

theorem State.routeHeld_settle (s : State) (r : Route) : s.settle.routeHeld r = s.routeHeld r := rfl

theorem safeOutputs_settle {s : State} (h : s.power.safeRequest = true) : SafeOutputs s.settle.pins := by
  have hsafe : SafeOutputs s.requestedPins := by
    rw [State.requestedPins, if_pos h]
    exact safeOutputs_safePins _
  rw [State.settle_pins]
  exact safeOutputs_heldPins (safeOutputs_heldPins hsafe _ .a) _ .b

theorem routeSafeOutputs_settle {s : State} {r : Route} (h : s.routeHeld r = true) : RouteSafeOutputs s.settle.pins r := by
  rw [State.settle_pins]
  cases r with
  | a =>
    have hown : RouteSafeOutputs (heldPins (s.routeHeld .a) .a s.requestedPins) .a := by
      rw [h]
      exact routeSafeOutputs_routeSafePins .a _
    exact routeSafeOutputs_heldPins_other hown (s.routeHeld .b)
  | b =>
    rw [h]
    exact routeSafeOutputs_routeSafePins .b _

theorem outputsFollowCauses_settle (s : State) : OutputsFollowCauses s.settle :=
  ⟨safeOutputs_settle (s := s), fun r h => routeSafeOutputs_settle (s.routeHeld_settle r ▸ h), s.settle_faultN⟩

/-- Settles O3: whatever a step does, it ends by settling the outputs. -/
theorem outputsFollowTheirCausesAfterEveryStep : Obligations.OutputsFollowTheirCausesAfterEveryStep := by
  unfold Obligations.OutputsFollowTheirCausesAfterEveryStep
  intro s t h
  obtain ⟨u, rfl⟩ := eq_settle_of_step h
  exact outputsFollowCauses_settle u

/-- Settles O1. -/
theorem stepRunsTheFrontCommand : Obligations.StepRunsTheFrontCommand := by
  unfold Obligations.StepRunsTheFrontCommand
  intro s c rest h
  simp only [step, h]

/-- Settles O5: each command's meaning answers a settled next state. -/
theorem everyCommandAnswersANextState : Obligations.EveryCommandAnswersANextState := by
  unfold Obligations.EveryCommandAnswersANextState
  intro c s
  obtain ⟨u, hu⟩ := exec_eq_next c s
  exact ⟨u.settle, hu⟩

end Sys2Proof.Machine

/-! Forager registers and results (R243 to R252): what a write of a register leaves, and each instruction as one issue with
its result. -/

namespace Sys2Proof.Machine

open Sys2Proof Sys2Proof.Safety

/-! ### General registers, status and accumulators -/

theorem Core.regIn_setRegIn (c : Core) (i j : Fin 16) (b b' : Bool) (v : W32) :
    (c.setRegIn i b v).regIn j b' =
      if i = j ∧ i ≠ 0 ∧ (gBanked i && b) = (gBanked j && b') then v else c.regIn j b' := by
  have hzero : ∀ k : Fin 16, k.val = 0 ↔ k = 0 := fun k => ⟨fun h => Fin.ext h, fun h => h ▸ rfl⟩
  simp only [Core.setRegIn, Core.regIn, hzero]
  by_cases hi : i = 0
  · simp [hi]
  · by_cases hj : j = 0
    · simp [hi, hj]
    · cases hb : gBanked i && b <;> cases hb' : gBanked j && b' <;>
        simp only [hi, hj, if_false, if_true, Bool.false_eq_true, ne_eq, not_false_eq_true, and_true, and_false,
          Bool.true_eq_false, vget_set, Fin.ext_iff]
      have hi8 : 8 ≤ i.val := by simpa [gBanked] using (Bool.and_eq_true_iff.1 hb).1
      have hj8 : 8 ≤ j.val := by simpa [gBanked] using (Bool.and_eq_true_iff.1 hb').1
      have heq : (Fin.ofNat 8 i.val).val = (Fin.ofNat 8 j.val).val ↔ i.val = j.val := by
        simp only [Fin.ofNat]
        omega
      simp only [heq]

/-- Settles O8, the cases of `Core.regIn_setRegIn`. -/
theorem generalRegistersReadWhatWasWritten : Obligations.GeneralRegistersReadWhatWasWritten := by
  unfold Obligations.GeneralRegistersReadWhatWasWritten
  intro c i j shadow v
  refine ⟨rfl, rfl, fun hi => ?_, fun hij => ?_⟩
  · rw [Core.regIn_setRegIn, if_pos ⟨rfl, hi, rfl⟩]
  · rw [Core.regIn_setRegIn, if_neg (fun h => hij h.1)]

@[simp] theorem Core.setRegIn_shadow (c : Core) (i : Fin 16) (b : Bool) (v : W32) : (c.setRegIn i b v).shadow = c.shadow := by
  unfold Core.setRegIn
  split
  · rfl
  · split <;> rfl

@[simp] theorem Core.setRegIn_stat (c : Core) (i : Fin 16) (b b' : Bool) (v : W32) : (c.setRegIn i b v).stat b' = c.stat b' := by
  unfold Core.setRegIn
  split
  · rfl
  · split <;> rfl

@[simp] theorem Core.setReg_shadow (c : Core) (i : Fin 16) (v : W32) : (c.setReg i v).shadow = c.shadow := c.setRegIn_shadow i _ v

@[simp] theorem Core.setReg_stat (c : Core) (i : Fin 16) (b : Bool) (v : W32) : (c.setReg i v).stat b = c.stat b :=
  c.setRegIn_stat i _ b v

@[simp] theorem Core.stat_setStat (c : Core) (b : Bool) (v : BitVec 16) : (c.setStat b v).stat b = v := by cases b <;> rfl

@[simp] theorem Core.setStat_acc (c : Core) (b b' : Bool) (v : BitVec 16) : (c.setStat b v).acc b' = c.acc b' := by
  cases b <;> rfl

@[simp] theorem Core.setStat_shadow (c : Core) (b : Bool) (v : BitVec 16) : (c.setStat b v).shadow = c.shadow := by
  cases b <;> rfl

theorem clampTo_bounds (w : Nat) (x : Int) : -(2 ^ (w - 1)) ≤ clampTo w x ∧ clampTo w x < 2 ^ (w - 1) := by
  have hpos : (0 : Int) < 2 ^ (w - 1) := Int.pow_pos (by decide)
  unfold clampTo
  omega

theorem toInt_ofInt_clampTo (x : Int) : (BitVec.ofInt 72 (clampTo 72 x)).toInt = clampTo 72 x := by
  obtain ⟨hlow, hhigh⟩ := clampTo_bounds 72 x
  exact BitVec.toInt_ofInt_eq_self (by decide) hlow hhigh

/-- An accumulator replaced by 72 bits, as the present bank shows it. -/
def Core.putAcc (c : Core) (b : Bool) (v : BitVec 72) : Core :=
  if b then (if c.shadow then { c with acbs := v } else { c with acb := v }) else { c with aca := v }

@[simp] theorem Core.putAcc_shadow (c : Core) (b : Bool) (v : BitVec 72) : (c.putAcc b v).shadow = c.shadow := by
  unfold Core.putAcc
  split
  · split <;> rfl
  · rfl

@[simp] theorem Core.putAcc_stat (c : Core) (b b' : Bool) (v : BitVec 72) : (c.putAcc b v).stat b' = c.stat b' := by
  unfold Core.putAcc
  split
  · split <;> rfl
  · rfl

@[simp] theorem Core.acc_putAcc (c : Core) (b : Bool) (v : BitVec 72) : (c.putAcc b v).acc b = v.toInt := by
  unfold Core.acc
  rw [Core.putAcc_shadow]
  cases b
  · rfl
  · cases h : c.shadow <;> simp [Core.putAcc, h]

@[simp] theorem Core.acc_putAcc_not (c : Core) (b : Bool) (v : BitVec 72) : (c.putAcc b v).acc (!b) = c.acc (!b) := by
  unfold Core.acc
  rw [Core.putAcc_shadow]
  cases b
  · rfl
  · cases h : c.shadow <;> simp [Core.putAcc, h]

theorem Core.setAcc_eq (c : Core) (b : Bool) (x : Int) :
    c.setAcc b x =
      if clampTo 72 x = x then c.putAcc b (BitVec.ofInt 72 (clampTo 72 x))
      else (c.putAcc b (BitVec.ofInt 72 (clampTo 72 x))).setStat c.shadow (c.stat c.shadow ||| 2) := by
  rw [← c.putAcc_stat b c.shadow (BitVec.ofInt 72 (clampTo 72 x)), ← c.putAcc_shadow b (BitVec.ofInt 72 (clampTo 72 x)), ← sat_clamp]
  rfl

/-- Settles O16: an accumulator written holds the clamped value, and only a clamped value marks the status. -/
theorem accumulatorsSaturateTo72Bits : Obligations.AccumulatorsSaturateTo72Bits := by
  unfold Obligations.AccumulatorsSaturateTo72Bits
  intro c b v
  rw [Core.setAcc_eq]
  by_cases h : clampTo 72 v = v
  · simp only [if_pos h, Core.acc_putAcc, toInt_ofInt_clampTo, Core.acc_putAcc_not, Core.putAcc_stat, and_self]
  · simp only [if_neg h, Core.setStat_acc, Core.acc_putAcc, toInt_ofInt_clampTo, Core.acc_putAcc_not, Core.stat_setStat, and_self]

/-! ### Instructions with a class A result -/

section
variable {i : Instr} {s : State} {core : Fin 8} {w free : W32}

/-- An instruction that writes by `f` at the end of its cycles and goes on in sequence. -/
theorem completes_of_write {F : Core → FgEff} {n : Nat} {f : Core → Core}
    (hx : exec i s = .next (issueWith core w free n F s).settle) (hF : F (s.cores.get core) = { write := f }) (hf : KeepsPlace f)
    (hm : MayIssue s core w free) : Completes i s core n [] f := by
  have hwrite : (F (s.cores.get core)).write = f := by rw [hF]
  exact completes_of hx hm (by rw [hF]) (congrFun hwrite _) hf (by rw [hF]) (by rw [hF]) (by rw [hF])

/-- An instruction of one cycle whose result goes to a general register. -/
theorem completes_effG {d : Fin 16} {v v' : W32} {F : Core → FgEff} (hx : exec i s = .next (issueWith core w free 1 F s).settle)
    (hF : F (s.cores.get core) = effG d v) (hv : v = v') (hm : MayIssue s core w free) :
    Completes i s core 1 [] (fun x => x.setReg d v') :=
  hv ▸ completes_of_write hx hF (keepsPlace_setReg d v) hm

end

theorem ofInt_ite_slt (a b : W32) : (if b.slt a then b else a) = BitVec.ofInt 32 (min a.toInt b.toInt) := by
  by_cases h : b.toInt < a.toInt
  · rw [if_pos (BitVec.slt_iff_toInt_lt.2 h), min_eq_right h.le, BitVec.ofInt_toInt]
  · rw [if_neg (fun hlt => h (BitVec.slt_iff_toInt_lt.1 hlt)), min_eq_left (not_lt.1 h), BitVec.ofInt_toInt]

theorem ofInt_ite_slt_max (a b : W32) : (if a.slt b then b else a) = BitVec.ofInt 32 (max a.toInt b.toInt) := by
  by_cases h : a.toInt < b.toInt
  · rw [if_pos (BitVec.slt_iff_toInt_lt.2 h), max_eq_right h.le, BitVec.ofInt_toInt]
  · rw [if_neg (fun hlt => h (BitVec.slt_iff_toInt_lt.1 hlt)), max_eq_left (not_lt.1 h), BitVec.ofInt_toInt]

theorem flag_slt (a b : W32) : flag (a.slt b) = if a.toInt < b.toInt then 1 else 0 := by
  simp only [flag, BitVec.slt_iff_toInt_lt]

theorem flag_ult (a b : W32) : flag (a.ult b) = if a.toNat < b.toNat then 1 else 0 := by
  simp only [flag, BitVec.ult, decide_eq_true_eq]

theorem append_lanes (a b : W32) :
    a.extractLsb' 0 16 ++ b.extractLsb' 0 16 = BitVec.ofNat 32 (a.toNat % 2 ^ 16 * 2 ^ 16 + b.toNat % 2 ^ 16) := by
  apply BitVec.eq_of_toNat_eq
  have hb := Nat.mod_lt b.toNat (Nat.two_pow_pos 16)
  have ha := Nat.mod_lt a.toNat (Nat.two_pow_pos 16)
  rw [BitVec.toNat_append, BitVec.extractLsb'_toNat, BitVec.extractLsb'_toNat, BitVec.toNat_ofNat, Nat.shiftRight_zero,
    Nat.shiftRight_zero, ← Nat.shiftLeft_add_eq_or_of_lt hb, Nat.shiftLeft_eq]
  omega

theorem laneHi_eq (a : W32) : laneHi a = (BitVec.ofNat 16 (a.toNat / 2 ^ 16)).toInt := by
  unfold laneHi
  congr 1
  apply BitVec.eq_of_toNat_eq
  rw [BitVec.extractLsb'_toNat, BitVec.toNat_ofNat, Nat.shiftRight_eq_div_pow]

theorem laneLo_eq (a : W32) : laneLo a = (BitVec.ofNat 16 a.toNat).toInt := rfl

/-- Settles O9: each is one issue whose result is the operation of the model in the form that the manual states. -/
theorem foragerRegisterFormResults : Obligations.ForagerRegisterFormResults := by
  unfold Obligations.ForagerRegisterFormResults
  intro s core d s1 s2
  refine ⟨completes_effG rfl rfl rfl, completes_effG rfl rfl rfl, completes_effG rfl rfl rfl, completes_effG rfl rfl rfl,
    completes_effG rfl rfl rfl, completes_effG rfl rfl rfl, completes_effG rfl rfl rfl, completes_effG rfl rfl rfl,
    completes_effG rfl rfl ?min, completes_effG rfl rfl ?max, completes_effG rfl rfl ?slt, completes_effG rfl rfl ?sltu,
    completes_effG rfl rfl ?pack, completes_effG rfl rfl ?hi, completes_effG rfl rfl ?lo⟩
  case min => exact ofInt_ite_slt _ _
  case max => exact ofInt_ite_slt_max _ _
  case slt => exact flag_slt _ _
  case sltu => exact flag_ult _ _
  case pack => exact append_lanes _ _
  case hi => exact congrArg (BitVec.ofInt 32) (laneHi_eq _)
  case lo => exact congrArg (BitVec.ofInt 32) (laneLo_eq _)

/-- A result that saturates to 32 bits, as R252 states it. -/
def satResult (d : Fin 16) (v : Int) (x : Core) : Core :=
  let y := x.setReg d (BitVec.ofInt 32 (clampTo 32 v))
  if clampTo 32 v = v then y else y.setStat x.shadow (x.stat x.shadow ||| 1)

theorem effSat_eq (d : Fin 16) (v : Int) : effSat d v = { write := satResult d v } := by
  unfold effSat
  congr 1
  funext x
  simp only [satResult, sat_clamp, Core.markSat, Core.setReg_shadow, Core.setReg_stat]

theorem keepsPlace_satResult (d : Fin 16) (v : Int) : KeepsPlace (satResult d v) := by
  intro x
  unfold satResult
  simp only
  split
  · exact keepsPlace_setReg _ _ x
  · exact (keepsPlace_setReg d (BitVec.ofInt 32 (clampTo 32 v))).comp (keepsPlace_setStat _ _) x

/-- Settles O10. -/
theorem foragerSaturatingResults : Obligations.ForagerSaturatingResults := by
  unfold Obligations.ForagerSaturatingResults
  intro s core d s1 s2
  exact ⟨completes_of_write rfl (effSat_eq d _) (keepsPlace_satResult d _), completes_of_write rfl (effSat_eq d _) (keepsPlace_satResult d _),
    completes_of_write rfl (effSat_eq d _) (keepsPlace_satResult d _)⟩

/-- MAXI and MINI alike: the pair is taken exactly when the comparison holds. -/
theorem completes_selectPair {i : Instr} {s : State} {core : Fin 8} {op : Nat} {d s1 s2 : Fin 16} {take : W32 → W32 → Bool} {p : Prop}
    [Decidable p] (hx : exec i s = .next (selectPair core op d s1 s2 take s).settle)
    (hp : take ((s.cores.get core).reg s1) ((s.cores.get core).reg d) = true ↔ p) (hm : MayIssue s core (encR op d s1 s2) 0) :
    Completes i s core 1 [] (fun x => if p then (x.setReg d ((s.cores.get core).reg s1)).setReg (Fin.ofNat 16 (d.val + 1))
      ((s.cores.get core).reg s2) else x) := by
  by_cases h : p
  · simp only [if_pos h]
    exact completes_of_write hx (if_pos (hp.2 h)) ((keepsPlace_setReg _ _).comp (keepsPlace_setReg _ _)) hm
  · simp only [if_neg h]
    exact completes_of_write hx (if_neg (fun ht => h (hp.1 ht))) keepsPlace_id hm

/-- Settles O11. -/
theorem foragerPairSelection : Obligations.ForagerPairSelection := by
  unfold Obligations.ForagerPairSelection
  intro s core d s1 s2
  exact ⟨completes_selectPair rfl BitVec.slt_iff_toInt_lt, completes_selectPair rfl BitVec.slt_iff_toInt_lt⟩

theorem toInt_signExtend (w : BitVec 16) : (w.signExtend 32).toInt = w.toInt := BitVec.toInt_signExtend_of_le (by decide)

theorem append_zero_half (w : BitVec 16) : w ++ (0 : BitVec 16) = BitVec.ofNat 32 (w.toNat * 2 ^ 16) := by
  apply BitVec.eq_of_toNat_eq
  rw [BitVec.toNat_append, BitVec.toNat_ofNat, ← Nat.shiftLeft_add_eq_or_of_lt (BitVec.isLt _), Nat.shiftLeft_eq]
  have hw := w.isLt
  show w.toNat * 2 ^ 16 + 0 = _
  omega

theorem zeroExtend_eq_ofNat {n : Nat} (w : BitVec n) : w.zeroExtend 32 = BitVec.ofNat 32 w.toNat := (BitVec.ofNat_toNat 32 w).symm

/-- Settles O12. -/
theorem foragerImmediateResults : Obligations.ForagerImmediateResults := by
  unfold Obligations.ForagerImmediateResults
  intro s core d s1 imm
  refine ⟨completes_effG rfl rfl rfl, completes_effG rfl rfl ?andi, completes_effG rfl rfl ?ori, completes_effG rfl rfl ?xori,
    completes_effG rfl rfl ?lui, completes_effG rfl rfl rfl, completes_effG rfl rfl rfl, completes_effG rfl rfl rfl,
    completes_effG rfl rfl ?slti⟩
  case andi => rw [zeroExtend_eq_ofNat]
  case ori => rw [zeroExtend_eq_ofNat]
  case xori => rw [zeroExtend_eq_ofNat]
  case lui => exact append_zero_half imm
  case slti => exact (flag_slt _ _).trans (by rw [toInt_signExtend])

/-- Settles O15. -/
theorem foragerAddressRegisters : Obligations.ForagerAddressRegisters := by
  unfold Obligations.ForagerAddressRegisters
  intro s core a g imm13 imm
  exact ⟨completes_of_write rfl rfl (keepsPlace_setAdr a _), completes_of_write rfl rfl (fun _ => ⟨rfl, rfl, rfl⟩),
    completes_of_write rfl rfl (keepsPlace_setAdr a _), completes_of_write rfl rfl (fun _ => ⟨rfl, rfl, rfl⟩),
    completes_effG rfl rfl (zeroExtend_eq_ofNat _), completes_effG rfl rfl rfl, completes_of_write rfl rfl (keepsPlace_setAdr a _)⟩

/-- Settles O17. -/
theorem foragerAccumulatorInstructions : Obligations.ForagerAccumulatorInstructions := by
  unfold Obligations.ForagerAccumulatorInstructions
  intro s core g acb sh
  exact ⟨completes_of_write rfl rfl (keepsPlace_setAcc acb _), completes_of_write rfl rfl (keepsPlace_setAcc acb _),
    completes_of_write rfl rfl (keepsPlace_setAcc acb _), completes_effG rfl rfl (zeroExtend_eq_ofNat _),
    completes_of_write rfl rfl (fun x => keepsPlace_setStat x.shadow 0 x)⟩

end Sys2Proof.Machine

/-! Forager loads, stores and parallel moves (R245, R246, R249, R251). -/

namespace Sys2Proof.Machine

open Sys2Proof Sys2Proof.Safety

/-! ### Instructions that read X and Y -/

section
variable {i : Instr} {s : State} {core : Fin 8} {w free : W32}

/-- Where the words that an instruction reads hold no error, it issues as one that reads none. -/
theorem issueReading_of_clean {n : Nat} {reads : Core → List (CoreMem × Nat)} {F : Core → FgEff} (hm : MayIssue s core w free)
    (hr : ∀ a ∈ reads (s.cores.get core), (s.cores.get core).flawAt a = none) :
    issueReading core w free n reads F s = issueWith core w free n F s := by
  rw [issueWith_of s core w free n F hm, issueReading, checked_of core w free _ _ s hm hr]
  rfl

/-- An instruction of one cycle with results that land one cycle later and writes of its own. -/
theorem completes_of_late {reads : Core → List (CoreMem × Nat)} {F : Core → FgEff} {late : List Landing} {f : Core → Core}
    (hx : exec i s = .next (issueReading core w free 1 reads F s).settle) (hF : F (s.cores.get core) = { late := late, write := f })
    (hf : KeepsPlace f) (hm : MayIssue s core w free)
    (hr : ∀ a ∈ reads (s.cores.get core), (s.cores.get core).flawAt a = none) : Completes i s core 1 late f := by
  rw [issueReading_of_clean hm hr] at hx
  have hwrite : (F (s.cores.get core)).write = f := by rw [hF]
  exact completes_of hx hm (by rw [hF]) (congrFun hwrite _) hf (by rw [hF]) (by rw [hF]) (by rw [hF])

end

/-! ### Places of X and Y -/

/-- a0 to a3 name words of X, a4 to a7 words of Y (R249). -/
theorem adrOf_lt_iff (y : Bool) (i : Fin 4) : (adrOf y i).val < 4 ↔ y = false := by
  revert y i
  decide

theorem Core.load_adrOf (c : Core) (y : Bool) (i : Fin 4) :
    c.load (adrOf y i) = memWord (if y then c.y else c.x) (c.adr (adrOf y i)).toNat := by
  unfold Core.load
  cases y
  · rw [if_pos ((adrOf_lt_iff false i).2 rfl)]; rfl
  · rw [if_neg (fun h => Bool.noConfusion ((adrOf_lt_iff true i).1 h))]; rfl

/-- Settles O13. -/
theorem foragerLateResults : Obligations.ForagerLateResults := by
  unfold Obligations.ForagerLateResults
  intro s core d s1 s2 i m y acb w16 addr sh
  refine ⟨fun hm => ?mul, fun hm => ?mulh, fun hm hclean => ?ld, fun hm hclean => ?lda, fun hm => ?rnd⟩
  case mul => exact completes_of_late rfl rfl keepsPlace_id hm (by simp)
  case mulh => exact completes_of_late rfl rfl keepsPlace_id hm (by simp)
  case ld =>
    refine completes_of_late rfl ?_ (keepsPlace_modAdr _ _) hm (by simpa using hclean)
    simp only [Core.late, Core.load_adrOf]
  case lda => exact completes_of_late rfl rfl keepsPlace_id hm (by simpa using hclean)
  case rnd =>
    refine completes_of_late rfl ?_ keepsPlace_id hm (by simp)
    simp only [Core.late, sat_clamp]

/-! ### Stores -/

theorem memWord_memPut_of_lt (m : WordMem) {p : Nat} (hp : p < 8192) (q : Nat) (v : W32) :
    memWord (memPut m p v) q = if q % 8192 = p then v else memWord m q := by
  rw [memWord_memPut, Nat.mod_eq_of_lt hp]
  simp only [eq_comm]

/-- A word written afresh holds no error, every other place what it held (R242). -/
theorem Core.flawAt_mend_one (c : Core) (k : CoreMem) (p : Nat) (q : CoreMem × Nat) :
    (c.mend k p 1).flawAt q = if q = (k, p) then none else c.flawAt q := by
  have hkeeps : ∀ e : CoreFlaw, (e.mem != k || decide (e.addr < p) || decide (p + 1 ≤ e.addr)) = !(e.mem == k && e.addr == p) := by
    intro e
    rw [Bool.eq_iff_iff]
    simp only [Bool.or_eq_true, bne_iff_ne, decide_eq_true_eq, Bool.not_eq_true', Bool.and_eq_false_iff, beq_eq_false_iff_ne]
    rw [or_assoc, Nat.succ_le_iff, lt_or_lt_iff_ne]
  unfold Core.flawAt Core.mend
  simp only [hkeeps, List.find?_filter]
  split
  · next h =>
    subst h
    rw [List.find?_eq_none.2 (by simp; tauto)]
    rfl
  · next h =>
    congr 2
    funext e
    rw [Bool.eq_iff_iff]
    simp only [Bool.and_eq_true, beq_iff_eq, Bool.not_eq_true', Bool.and_eq_false_iff, beq_eq_false_iff_ne, decide_eq_true_eq]
    refine ⟨fun h' => h'.2, fun ⟨hmem, haddr⟩ => ⟨?_, hmem, haddr⟩⟩
    by_contra hc
    push Not at hc
    exact h (Prod.ext (hmem ▸ hc.1) (haddr ▸ hc.2))

/-- What a store leaves of the core: one word of X or of Y, and the errors. -/
theorem Core.store_eq (c : Core) (y : Bool) {p : Nat} (hp : p < 8192) (v : W32) :
    c.store y p v = { c with
      x := if y then c.x else memPut c.x p v
      y := if y then memPut c.y p v else c.y
      flaws := (c.mend (if y then .y else .x) p 1).flaws } := by
  unfold Core.store
  rw [Nat.mod_eq_of_lt hp]
  cases y <;> rfl

/-- A state of a core that differs in what results land in: general registers and status (R245). -/
def LandsIn (c d : Core) : Prop := ∃ g gs status statuss, d = { c with g := g, gs := gs, status := status, statuss := statuss }

theorem landsIn_refl (c : Core) : LandsIn c c := ⟨c.g, c.gs, c.status, c.statuss, rfl⟩

theorem landsIn_trans {c d e : Core} (h : LandsIn c d) (h' : LandsIn d e) : LandsIn c e := by
  obtain ⟨_, _, _, _, rfl⟩ := h
  obtain ⟨g, gs, status, statuss, rfl⟩ := h'
  exact ⟨g, gs, status, statuss, rfl⟩

theorem landsIn_markSat (c : Core) (b : Bool) : LandsIn c (c.markSat b) := by
  cases b <;> exact ⟨_, _, _, _, rfl⟩

theorem landsIn_setRegIn (c : Core) (i : Fin 16) (b : Bool) (v : W32) : LandsIn c (c.setRegIn i b v) := by
  unfold Core.setRegIn
  split
  · exact landsIn_refl c
  · split <;> exact ⟨_, _, _, _, rfl⟩

theorem landsIn_land1 (c : Core) (l : Landing) : LandsIn c (c.land1 l) := by
  unfold Core.land1
  cases l.sat
  · exact landsIn_setRegIn c l.reg l.shadow l.value
  · exact landsIn_trans (landsIn_setRegIn c l.reg l.shadow l.value) (landsIn_markSat _ l.shadow)

theorem landsIn_foldl (l : List Landing) (c : Core) : LandsIn c (l.foldl Core.land1 c) := by
  induction l generalizing c with
  | nil => exact landsIn_refl c
  | cons e t ih => exact landsIn_trans (landsIn_land1 c e) (ih _)

/-- Landing changes the general registers and the status alone. -/
theorem Core.land_eq (c : Core) :
    c.land = { c with g := c.land.g, gs := c.land.gs, status := c.land.status, statuss := c.land.statuss, landing := [] } := by
  obtain ⟨g, gs, status, statuss, h⟩ := landsIn_foldl c.landing c
  unfold Core.land
  rw [h]

theorem Core.land_flaws (c : Core) : c.land.flaws = c.flaws := by rw [Core.land_eq]

theorem Core.land_slot (c : Core) : c.land.slot = c.slot := by rw [Core.land_eq]

theorem Core.modAdr_with (c : Core) (a : Fin 8) (m : Fin 4) (x y : WordMem) (fl : List CoreFlaw) :
    ({ c with x := x, y := y, flaws := fl } : Core).modAdr a m = { c.modAdr a m with x := x, y := y, flaws := fl } := by
  cases hb : (decide (4 ≤ a.val) && c.shadow)
  · have hb' : (decide (4 ≤ a.val) && Core.shadow { c with x := x, y := y, flaws := fl }) = false := hb
    simp only [Core.modAdr, Core.setAdr, Core.adr, hb, hb', Bool.false_eq_true, if_false]
  · have hb' : (decide (4 ≤ a.val) && Core.shadow { c with x := x, y := y, flaws := fl }) = true := hb
    simp only [Core.modAdr, Core.setAdr, Core.adr, hb, hb', if_true]

/-- An operation on a core that neither reads nor writes X, Y and the errors in them. -/
def IgnoresMemory (f : Core → Core) : Prop :=
  ∀ (c : Core) (x y : WordMem) (fl : List CoreFlaw), f { c with x := x, y := y, flaws := fl } = { f c with x := x, y := y, flaws := fl }

/-- An instruction that stores one word and goes on: ST and STA alike. -/
theorem stores_one_word {i : Instr} {s : State} {core : Fin 8} {w : W32} {F : Core → FgEff} {inY : Bool} {p : Nat} {v : W32}
    {f : Core → Core} (hx : exec i s = .next (issue1 core w F s).settle)
    (hF : F (s.cores.get core) = { write := fun x => f (x.store inY p v) }) (hp : p < 8192) (hf : IgnoresMemory f) (hk : KeepsPlace f)
    (hm : MayIssue s core w 0) :
    ∃ t, exec i s = .next t ∧ OnlyCore s t core ∧
      (let u := t.cores.get core
       let c := s.cores.get core
       (∀ q, memWord u.y q = if inY = true ∧ q % 8192 = p then v else memWord c.y q) ∧
       (∀ q, memWord u.x q = if inY = false ∧ q % 8192 = p then v else memWord c.x q) ∧
       (∀ q, u.flawAt q = if q = (if inY then .y else .x, p) then none else c.flawAt q) ∧
       SameRegisters { f c.land with x := u.x, y := u.y, flaws := u.flaws } u ∧ PlaceAfter {} c u ∧ u.landing = [] ∧
       u.cycles = c.cycles + 1) := by
  obtain ⟨t, ht, honly, hcore⟩ := issueWith_next (n := 1) hx hm
  obtain ⟨hlandx, hlandy, -⟩ := land_mem (s.cores.get core)
  have hissue : t.cores.get core = { (f ((s.cores.get core).land.store inY p v)).advance {} with
      landing := [], cycles := (s.cores.get core).cycles + 1 } := by
    rw [hcore, Core.issue, hF]
    congr 1
  rw [Core.store_eq _ _ hp, hf, hlandx, hlandy] at hissue
  refine ⟨t, ht, honly, ?_⟩
  generalize s.cores.get core = c at hissue
  have hmend : (c.land.mend (if inY then .y else .x) p 1).flaws = (c.mend (if inY then .y else .x) p 1).flaws := by
    simp only [Core.mend, Core.land_flaws]
  rw [Core.advance_eq] at hissue
  have hplace := Core.advance_place c { f c.land with
      x := if inY then c.x else memPut c.x p v
      y := if inY then memPut c.y p v else c.y
      flaws := (c.land.mend (if inY then .y else .x) p 1).flaws } {} {}
    ((keepsPlace_land.comp hk) c).1 ((keepsPlace_land.comp hk) c).2.1 ((keepsPlace_land.comp hk) c).2.2 rfl rfl rfl
  simp only
  refine ⟨fun q => ?_, fun q => ?_, fun q => ?_, ?_, ?_, ?_, ?_⟩
  · rw [hissue]
    cases inY <;> simp [memWord_memPut_of_lt _ hp]
  · rw [hissue]
    cases inY <;> simp [memWord_memPut_of_lt _ hp]
  · rw [← Core.flawAt_mend_one, hissue]
    simp only [Core.flawAt, hmend]
  · rw [hissue]
    rfl
  · rw [hissue]
    exact hplace
  · rw [hissue]
  · rw [hissue]

/-- Settles O14. -/
theorem foragerStoresOneWord : Obligations.ForagerStoresOneWord := by
  unfold Obligations.ForagerStoresOneWord
  intro s core g a m y addr
  exact ⟨stores_one_word rfl rfl (BitVec.isLt _) (fun c => c.modAdr_with a m) (keepsPlace_modAdr a m),
    stores_one_word rfl rfl (BitVec.isLt _) (fun _ _ _ _ => rfl) keepsPlace_id⟩

/-! ### Parallel moves -/

theorem Core.load_x (c : Core) (i : Fin 4) : c.load (Fin.ofNat 8 i.val) = memWord c.x (c.adr (Fin.ofNat 8 i.val)).toNat :=
  c.load_adrOf false i

theorem Core.load_y (c : Core) (i : Fin 4) : c.load (Fin.ofNat 8 (i.val + 4)) = memWord c.y (c.adr (Fin.ofNat 8 (i.val + 4))).toNat := by
  have h : (Fin.ofNat 8 (i.val + 4)) = adrOf true i := by simp only [adrOf, if_true, Nat.add_comm]
  rw [h]
  exact c.load_adrOf true i

/-- Both moves of an instruction: the words that land and the two modifiers, after a write of the instruction's own. -/
theorem Core.moves_eq (c : Core) (mv : Moves) (f : Core → Core) :
    c.moves mv f =
      { late := [⟨Fin.ofNat 16 mv.xd.val, c.shadow, memWord c.x (c.adr (Fin.ofNat 8 mv.xa.val)).toNat, false⟩,
                 ⟨Fin.ofNat 16 mv.yd.val, c.shadow, memWord c.y (c.adr (Fin.ofNat 8 (mv.ya.val + 4))).toNat, false⟩]
        write := fun x => ((f x).modAdr (Fin.ofNat 8 mv.xa.val) mv.xm).modAdr (Fin.ofNat 8 (mv.ya.val + 4)) mv.ym } := by
  simp only [Core.moves, Core.load_x, Core.load_y]

theorem keepsPlace_moves {f : Core → Core} (hf : KeepsPlace f) (mv : Moves) :
    KeepsPlace (fun x => ((f x).modAdr (Fin.ofNat 8 mv.xa.val) mv.xm).modAdr (Fin.ofNat 8 (mv.ya.val + 4)) mv.ym) :=
  (hf.comp (keepsPlace_modAdr _ _)).comp (keepsPlace_modAdr _ _)

theorem clean_movePlaces {c : Core} {mv : Moves} (hx : c.flawAt (c.place (Fin.ofNat 8 mv.xa.val)) = none)
    (hy : c.flawAt (c.place (Fin.ofNat 8 (mv.ya.val + 4))) = none) : ∀ a ∈ Core.movePlaces mv c, c.flawAt a = none := by
  intro a ha
  rcases List.mem_append.1 ha with ha | ha
  · split at ha
    · exact absurd ha List.not_mem_nil
    · rw [List.mem_singleton.1 ha, hx]
  · split at ha
    · exact absurd ha List.not_mem_nil
    · rw [List.mem_singleton.1 ha, hy]

/-- A parallel-move instruction with a MAC operation: its value in the form that the manual states. -/
theorem completes_macWith {i : Instr} {s : State} {core : Fin 8} {mop : Nat} {acb : Bool} {s1 s2 : Fin 8} {mv : Moves}
    {f : Int → W32 → W32 → Int} {v : Int} (hx : exec i s = .next (macWith core mop acb s1 s2 mv f s).settle)
    (hv : f ((s.cores.get core).acc acb) ((s.cores.get core).reg (Fin.ofNat 16 s1.val)) ((s.cores.get core).reg (Fin.ofNat 16 s2.val)) = v)
    (hm : MayIssue s core (encP mop acb s1 s2 mv) 0)
    (hcx : (s.cores.get core).flawAt ((s.cores.get core).place (Fin.ofNat 8 mv.xa.val)) = none)
    (hcy : (s.cores.get core).flawAt ((s.cores.get core).place (Fin.ofNat 8 (mv.ya.val + 4))) = none) :
    Completes i s core 1
      [⟨Fin.ofNat 16 mv.xd.val, (s.cores.get core).shadow, memWord (s.cores.get core).x ((s.cores.get core).adr (Fin.ofNat 8 mv.xa.val)).toNat, false⟩,
       ⟨Fin.ofNat 16 mv.yd.val, (s.cores.get core).shadow, memWord (s.cores.get core).y ((s.cores.get core).adr (Fin.ofNat 8 (mv.ya.val + 4))).toNat, false⟩]
      (fun x => ((x.setAcc acb v).modAdr (Fin.ofNat 8 mv.xa.val) mv.xm).modAdr (Fin.ofNat 8 (mv.ya.val + 4)) mv.ym) := by
  subst hv
  exact completes_of_late hx (Core.moves_eq _ mv _) (keepsPlace_moves (keepsPlace_setAcc _ _) mv) hm (clean_movePlaces hcx hcy)

/-- Settles O18. -/
theorem foragerParallelMoves : Obligations.ForagerParallelMoves := by
  unfold Obligations.ForagerParallelMoves
  intro s core acb s1 s2 mv
  refine ⟨fun hm hclean => ?moves, completes_macWith rfl ?mac, completes_macWith rfl rfl, completes_macWith rfl rfl,
    completes_macWith rfl rfl, completes_macWith rfl rfl, completes_macWith rfl ?macx, completes_macWith rfl ?cmaci⟩
  case moves =>
    obtain ⟨hcx, hcy⟩ := hclean
    exact completes_of_late rfl (Core.moves_eq _ mv id) (keepsPlace_moves keepsPlace_id mv) hm (clean_movePlaces hcx hcy)
  case mac => exact Int.add_assoc _ _ _
  case macx => exact Int.add_assoc _ _ _
  case cmaci => exact Int.add_sub_assoc _ _ _

end Sys2Proof.Machine

/-! Forager invocations (R257 to R265): how programs end, and how invocations are aborted. -/

namespace Sys2Proof.Machine

open Sys2Proof Sys2Proof.Safety

/-! ### Ends of programs -/

theorem doRete_of_handler {s : State} {core : Fin 8} {e : EventRec} {rest : List EventRec} (hm : MayIssue s core (opWord 0x5C) 0)
    (hrun : (s.cores.get core).run = .handler) (htaken : (s.cores.get core).taken = e :: rest) :
    doRete core s = (s.setCore core ({ (s.cores.get core).land with cycles := (s.cores.get core).cycles + 2, taken := rest }.modSlot
      (s.cores.get core).slot (fun y => { y with queue := y.queue.erase e })).enter).reportCore core := by
  rw [doRete, checked_of core _ 0 _ _ s hm (by simp)]
  simp only [hrun, htaken, Core.land_slot]
  rfl

theorem doRete_of_frame {s : State} {core : Fin 8} (hm : MayIssue s core (opWord 0x5C) 0) (hrun : (s.cores.get core).run = .frame) :
    doRete core s = s.programFault core 2 := by
  rw [doRete, checked_of core _ 0 _ _ s hm (by simp)]
  simp only [hrun]
  rfl

theorem doHalt_of_frame {s : State} {core : Fin 8} (hm : MayIssue s core (opWord 0x5D) 0) (hrun : (s.cores.get core).run = .frame) :
    doHalt core s = (s.setCore core { s.cores.get core with cycles := (s.cores.get core).cycles + 1 }).release core := by
  rw [doHalt, checked_of core _ 0 _ _ s hm (by simp)]
  simp only [hrun]
  rfl

theorem doHalt_of_handler {s : State} {core : Fin 8} (hm : MayIssue s core (opWord 0x5D) 0) (hrun : (s.cores.get core).run = .handler) :
    doHalt core s = s.programFault core 1 := by
  rw [doHalt, checked_of core _ 0 _ _ s hm (by simp)]
  simp only [hrun]
  rfl

/-- A command whose meaning comes to a state answers that state, settled. -/
theorem next_of_eq {i : Instr} {s u v : State} (hx : exec i s = .next u.settle) (h : u = v) : exec i s = .next v.settle := h ▸ hx

/-- Settles O22. -/
theorem foragerProgramEnds : Obligations.ForagerProgramEnds := by
  unfold Obligations.ForagerProgramEnds
  intro s core
  exact ⟨fun hm hrun e rest htaken => next_of_eq rfl (doRete_of_handler hm hrun htaken),
    fun hm hrun => next_of_eq rfl (doRete_of_frame hm hrun), fun hm hrun => next_of_eq rfl (doHalt_of_frame hm hrun),
    fun hm hrun => next_of_eq rfl (doHalt_of_handler hm hrun)⟩

/-! ### Aborts -/

theorem doCycleAbort_of_spent {s : State} {core : Fin 8} (hmode : s.mode = 4) (hrun : (s.cores.get core).run ≠ .gated)
    (hspent : (s.cores.get core).slotRec.w ≤ (s.cores.get core).cycles) :
    doCycleAbort core s = (s.bump (coreIdx core) 0x22 1).abortInvocation core false :=
  if_pos (by simp [hmode, hrun, hspent])

theorem doDeadlineAbort_of_running {s : State} {core : Fin 8} (hmode : s.mode = 4) (hrun : (s.cores.get core).run ≠ .gated) :
    doDeadlineAbort core (s.cores.get core).slot s =
      (((s.bump (coreIdx core) 0x23 1).bump 0x2980 0x11 1).bump 0x2000 0x18 1).abortInvocation core false := by
  simp [doDeadlineAbort, hmode, hrun]

theorem doDeadlineAbort_of_waiting {s : State} {core : Fin 8} {slot : Fin 4} (hmode : s.mode = 4) (hrun : (s.cores.get core).run = .gated)
    (hwait : ((s.cores.get core).fslot slot).waiting.isSome = true) : doDeadlineAbort core slot s = s.skipLate core slot := by
  simp [doDeadlineAbort, hmode, hrun, hwait]

/-- A word that reads uncorrectable loads the core, whichever it is of those that the instruction reads. -/
theorem checked_of_uncorrectable {core : Fin 8} {w free : W32} {reads : Core → List (CoreMem × Nat)} {go : State → State} {s : State}
    {a : CoreMem × Nat} (hmode : s.mode = 4) (hready : (s.cores.get core).ready w free = true)
    (ha : a ∈ (CoreMem.p, (s.cores.get core).pc.toNat) :: reads (s.cores.get core)) (hbad : (s.cores.get core).flawAt a = some true) :
    checked core w free reads go s = s.coreEcc core := by
  rw [checked_eq, if_pos ⟨hmode, hready⟩, if_pos]
  exact List.contains_iff_mem.2 (List.mem_filterMap.2 ⟨a, ha, hbad⟩)

/-- One corrected word of X or Y is counted, and the instruction goes on with it. -/
theorem checked_of_corrected {core : Fin 8} {w free : W32} {a : CoreMem × Nat} {go : State → State} {s : State}
    (hmode : s.mode = 4) (hready : (s.cores.get core).ready w free = true)
    (hp : (s.cores.get core).flawAt (.p, (s.cores.get core).pc.toNat) = none) (ha : (s.cores.get core).flawAt a = some false)
    {reads : Core → List (CoreMem × Nat)} (hr : reads (s.cores.get core) = [a]) :
    checked core w free reads go s = go (s.bump (coreIdx core) 0x29 1) := by
  rw [checked_eq, if_pos ⟨hmode, hready⟩, hr]
  simp [hp, ha]

/-- Settles O24. -/
theorem invocationsAreAborted : Obligations.InvocationsAreAborted := by
  unfold Obligations.InvocationsAreAborted
  intro s core slot g y n m
  refine ⟨fun hmode hrun hspent => next_of_eq rfl (doCycleAbort_of_spent hmode hrun hspent), ?running,
    fun hmode hrun hwait => next_of_eq rfl (doDeadlineAbort_of_waiting hmode hrun hwait), fun hmode hready => ⟨fun hbad => ?bad, fun hp ha => ?corrected⟩⟩
  case running =>
    rintro hmode hrun rfl
    exact next_of_eq rfl (doDeadlineAbort_of_running hmode hrun)
  case bad =>
    rcases hbad with hbad | hbad
    · exact next_of_eq rfl (checked_of_uncorrectable hmode hready (List.mem_cons_self ..) hbad)
    · exact next_of_eq rfl (checked_of_uncorrectable hmode hready (List.mem_cons_of_mem _ (List.mem_singleton.2 rfl)) hbad)
  case corrected =>
    refine ⟨_, next_of_eq rfl (checked_of_corrected hmode hready hp ha rfl), ?_, ?_⟩
    · rw [State.num_settle]
      show (State.setCore _ _ _).num _ _ = _
      rw [State.num_setCore, State.num_bump, if_pos rfl]
    · show (((s.bump (coreIdx core) 0x29 1).setCore core _).cores.get core).landing = _
      rw [State.setCore_get, ← Core.load_adrOf]
      rfl

/-! ### The start of an invocation -/

theorem doInvocationStart_of_ready {s : State} {core : Fin 8} {start : SlotStart} {f : InputFrame}
    (hwait : ((s.cores.get core).fslot start.slot).waiting = some f) (hruns : s.coreRuns core = true)
    (hgated : (s.cores.get core).run = .gated) (hnext : (s.cores.get core).nextSlot = some start.slot) (htime : s.cyc < f.lateFrom) :
    doInvocationStart core start s = s.beginInvocation core start.slot start.flaws f := by
  simp [doInvocationStart, hwait, hruns, hgated, hnext, not_le.2 htime]

/-- An invocation puts its core to use: its automatic gate has its next opportunity (R429). -/
theorem beginInvocation_gatesOpen (s : State) (core : Fin 8) (slot : Fin 4) (flaws : List CoreFlaw) (f : InputFrame) :
    (s.beginInvocation core slot flaws f).power.gatesOpen = s.power.gatesOpen.filter (fun x => x != .core core) := rfl

/-- An input frame whose transfer has completed. -/
def transferredInput : InputFrame :=
  { desc := [], block := [], transferred := true, order := 0, routeStart := false, routeCode := 0, fcount := 0, tstart := 0, period := 0,
    quality := 0, first := 0, count := 0, pitch := 0, pos := 0, cseq := 0, deadline := 200000, closing := 0 }

/-- A device in SENSE whose core 0 waits to begin on that input, with the automatic gate of the core left open by a failed
handshake. -/
def waitingCore : State :=
  { State.reset with
    od := [(objKey 0x1300 0x02, .num 4), (objKey 0x2700 0x01, .num 1)]
    cores := State.reset.cores.set 0 { Core.reset with
      slots := Core.reset.slots.set 0 { Core.reset.slots.get 0 with waiting := some transferredInput } }
    power := { State.reset.power with gatesOpen := [.core 0] } }

/-- Refutes O23: the core's gate does not stay among those left open, so more changes than the dictionary and the cores. -/
theorem not_invocationsBeginOnTheOldestInput : ¬ Obligations.InvocationsBeginOnTheOldestInput := by
  unfold Obligations.InvocationsBeginOnTheOldestInput
  intro h
  have hwait : ((waitingCore.cores.get 0).fslot 0).waiting = some transferredInput := by decide
  have hruns : waitingCore.coreRuns 0 = true := by decide
  have hgated : (waitingCore.cores.get 0).run = .gated := by decide
  have hnext : (waitingCore.cores.get 0).nextSlot = some 0 := by decide
  have htime : waitingCore.cyc < transferredInput.lateFrom := by decide
  obtain ⟨t, hx, ⟨od, cores, ht⟩, -⟩ := h waitingCore 0 0 [] transferredInput hwait hruns hgated hnext htime
  have hgates : t.power.gatesOpen = [] := by
    have hbegin : exec (.invocationStart 0 ⟨0, []⟩) waitingCore = .next (waitingCore.beginInvocation 0 0 [] transferredInput).settle :=
      next_of_eq rfl (doInvocationStart_of_ready (start := ⟨0, []⟩) hwait hruns hgated hnext htime)
    rw [hbegin] at hx
    rw [← Host.Outcome.next.inj hx]
    exact beginInvocation_gatesOpen waitingCore 0 0 [] transferredInput
  have hkept : t.power.gatesOpen = [.core 0] := by
    rw [ht]
    rfl
  rw [hkept] at hgates
  exact absurd hgates (by decide)

end Sys2Proof.Machine

/-! Reset (Tables 3.9, 16.8), the empty queue (R343) and sequence numbers (R327). -/

namespace Sys2Proof.Machine

open Sys2Proof Sys2Proof.Safety

/-! ### Reset -/

theorem coreMemories_reset : CoreMemories Core.reset := ⟨rfl, rfl, rfl⟩

/-- Settles O6. -/
theorem resetHoldsTheSafeOutputs : Obligations.ResetHoldsTheSafeOutputs := by
  unfold Obligations.ResetHoldsTheSafeOutputs
  have hsafe : SafeOutputs State.reset.pins := by unfold SafeOutputs; decide
  refine ⟨rfl, rfl, rfl, hsafe, rfl, ⟨fun _ => hsafe, fun r _ => ?_, rfl⟩, rfl, rfl, rfl, rfl, fun c => ?_⟩
  · cases r <;> exact ⟨rfl, rfl, rfl, rfl, rfl⟩
  · have hcore : State.reset.cores.get c = Core.reset := Vector.getElem_replicate ..
    rw [hcore]
    exact coreMemories_reset

/-! ### One cycle with nothing to do -/

theorem foldl_of_fixed {α β : Type} {f : β → α → β} {b : β} {l : List α} (h : ∀ a ∈ l, f b a = b) : l.foldl f b = b := by
  induction l with
  | nil => rfl
  | cons a l ih =>
    rw [List.foldl_cons, h a List.mem_cons_self]
    exact ih (fun a' ha' => h a' (List.mem_cons_of_mem _ ha'))

theorem State.nextStamp_of_empty {s : State} (h : ∀ i, (s.inputs.get i).queue = []) : s.nextStamp = none := by
  unfold State.nextStamp
  refine foldl_of_fixed (fun i _ => ?_)
  split
  · rfl
  · simp only [h i]

theorem State.mergeStamps_of_none {s : State} (h : s.nextStamp = none) (k : Nat) : State.mergeStamps k s = s := by
  cases k with
  | zero => rfl
  | succ k => simp only [State.mergeStamps, h]

theorem State.watchBlank_of_idle {s : State} (h : s.pins.blank = false ∨ s.pins.blankSeen = true) : s.watchBlank = s := by
  unfold State.watchBlank
  rcases h with h | h <;> simp [h]

theorem State.repayDebt_of_none {s : State} {ch rank : Fin 2} (h : (s.dram.get ch).debt.get rank = 0) : s.repayDebt ch rank = s := by
  simp [State.repayDebt, h]

theorem Dram.pick_of_empty {d : Dram} (h : d.queue = []) (now : Nat) : d.pick now = none := by
  simp [Dram.pick, Dram.ready, h]

theorem State.serveDram_of_empty {s : State} {ch : Fin 2} (h : (s.dram.get ch).queue = []) : s.serveDram ch = s := by
  simp [State.serveDram, Dram.pick_of_empty h]

theorem State.runDram_of_idle {s : State}
    (h : ∀ ch, (s.dram.get ch).queue = [] ∧ (s.dram.get ch).debt.get 0 = 0 ∧ (s.dram.get ch).debt.get 1 = 0) : s.runDram = s := by
  have hone : ∀ ch, ((s.repayDebt ch 0).repayDebt ch 1).serveDram ch = s := by
    intro ch
    obtain ⟨hqueue, h0, h1⟩ := h ch
    rw [State.repayDebt_of_none h0, State.repayDebt_of_none h1, State.serveDram_of_empty hqueue]
  show (((((s.repayDebt 0 0).repayDebt 0 1).serveDram 0).repayDebt 1 0).repayDebt 1 1).serveDram 1 = s
  rw [hone 0, hone 1]

theorem State.tick_of_stopped {s : State} (h : s.sampleClock = false) : s.tick = s := if_neg (by simp [h])

theorem State.ticks_inputs (s : State) (n : Nat) : (s.ticks n).inputs = s.inputs := State.modTime_inputs s _
theorem State.ticks_pins (s : State) (n : Nat) : (s.ticks n).pins = s.pins := State.modTime_pins s _
theorem State.ticks_dram (s : State) (n : Nat) : (s.ticks n).dram = s.dram := State.modTime_dram s _

/-- With nothing waiting a cycle of the sample clock advances device time and the count of cycles alone. -/
theorem State.tick_of_idle {s : State} (hclock : s.sampleClock = true) (hstamps : ∀ i, (s.inputs.get i).queue = [])
    (hblank : s.pins.blank = false ∨ s.pins.blankSeen = true)
    (hdram : ∀ ch, (s.dram.get ch).queue = [] ∧ (s.dram.get ch).debt.get 0 = 0 ∧ (s.dram.get ch).debt.get 1 = 0) :
    s.tick = s.ticks 1 := by
  have hmerge : (s.ticks 1).nextStamp = none := State.nextStamp_of_empty (by rwa [State.ticks_inputs])
  have hwatch : (s.ticks 1).watchBlank = s.ticks 1 := State.watchBlank_of_idle (by rwa [State.ticks_pins])
  have hrun : (s.ticks 1).runDram = s.ticks 1 := State.runDram_of_idle (by rwa [State.ticks_dram])
  rw [State.tick, if_pos hclock, State.mergeStamps_of_none hmerge 8192, hwatch, hrun]

/-- Settles O2. -/
theorem emptyQueuePassesOneSampleClockCycle : Obligations.EmptyQueuePassesOneSampleClockCycle := by
  unfold Obligations.EmptyQueuePassesOneSampleClockCycle
  intro s hempty
  refine ⟨s.tick.settle, ?_, fun hstopped => ?_, fun hclock hstamps hblank hdram => ?_⟩
  · simp only [step, hempty]
    rfl
  · rw [State.tick_of_stopped hstopped]
  · rw [State.tick_of_idle hclock hstamps hblank hdram, State.ticks, Nat.cast_one, Int.one_mul]
    rfl

/-! ### Sequence numbers -/

/-- A number is not new in its session: the highest, in the window, or below the window (R327). -/
def Session.Old (x : Session) (n : Nat) : Prop := n ≤ x.highest ∧ (n = x.highest ∨ n ∈ x.window ∨ n + 64 < x.highest)

theorem Session.seqCase_ne_fresh_iff (x : Session) (n : Nat) : x.seqCase n ≠ .fresh ↔ x.Old n := by
  unfold Session.seqCase Session.Old
  by_cases hlow : x.highest < n
  · simp [hlow, not_le.2 hlow]
  · by_cases hseen : n = x.highest ∨ n ∈ x.window
    · have hseen' : (n == x.highest || x.window.contains n) = true := by simpa using hseen
      simp only [hlow, if_false, hseen', if_true]
      simp [not_lt.1 hlow, ← or_assoc, hseen]
    · have hseen' : (n == x.highest || x.window.contains n) = false := by simpa using hseen
      simp only [hlow, if_false, hseen', Bool.false_eq_true]
      rw [← or_assoc, or_iff_right hseen]
      by_cases hwin : x.highest ≤ n + 64
      · simp [hwin, not_lt.2 hwin]
      · simp [hwin, not_lt.1 hlow, not_le.1 hwin]

theorem Session.mem_window_execute (x : Session) (m n : Nat) :
    n ∈ (x.execute m).window ↔ (n ∈ x.window ∨ n = x.highest ∨ n = m) ∧ n ≠ (x.execute m).highest ∧ (x.execute m).highest ≤ n + 64 := by
  simp [Session.execute, List.mem_eraseDups]

theorem Session.highest_execute (x : Session) (m : Nat) : (x.execute m).highest = max x.highest m := rfl

/-- A number that was the highest or in the window, or is executed now, is not new afterwards. -/
theorem Session.old_execute_of_seen {x : Session} {m n : Nat} (hle : n ≤ (x.execute m).highest)
    (hseen : n ∈ x.window ∨ n = x.highest ∨ n = m) : (x.execute m).Old n := by
  refine ⟨hle, ?_⟩
  rw [Session.mem_window_execute]
  have hsplit := Nat.lt_or_ge (n + 64) (x.execute m).highest
  tauto

theorem Session.old_execute_self (x : Session) (n : Nat) : (x.execute n).Old n :=
  Session.old_execute_of_seen (by rw [Session.highest_execute]; omega) (.inr (.inr rfl))

theorem Session.Old.execute {x : Session} {n : Nat} (h : x.Old n) (m : Nat) : (x.execute m).Old n := by
  obtain ⟨hle, hcase⟩ := h
  have hmono : x.highest ≤ (x.execute m).highest := by rw [Session.highest_execute]; omega
  rcases hcase with htop | hwin | hbelow
  · exact Session.old_execute_of_seen (by omega) (.inr (.inl htop))
  · exact Session.old_execute_of_seen (by omega) (.inl hwin)
  · exact ⟨by omega, .inr (.inr (by omega))⟩

theorem Session.Old.foldl_execute {x : Session} {n : Nat} (h : x.Old n) (later : List Nat) : (later.foldl Session.execute x).Old n := by
  induction later generalizing x with
  | nil => exact h
  | cons m later ih => exact ih (h.execute m)

/-- Settles O34: being no longer new is kept by every later execution. -/
theorem sequenceNumbersAreExecutedOnce : Obligations.SequenceNumbersAreExecutedOnce := by
  unfold Obligations.SequenceNumbersAreExecutedOnce
  intro x n later
  exact (Session.seqCase_ne_fresh_iff _ n).2 ((x.old_execute_self n).foldl_execute later)

end Sys2Proof.Machine

/-! The control protocol: sessions and requests (R316 to R327). -/

namespace Sys2Proof.Machine

open Sys2Proof Sys2Proof.Safety

/-! ### Opening a session (R323 to R325) -/

theorem length_beBytes (k n : Nat) : (beBytes k n).length = k := by
  induction k with
  | zero => rfl
  | succ k ih => simp [beBytes, ih]

theorem freshId_ne_zero (used : List W32) (v : Nat) : freshId used v ≠ 0 := by
  unfold freshId
  cases h : ((List.range (used.length + 1)).map (fun i => BitVec.ofNat 32 (1 + (v + i) % (2 ^ 32 - 1)))).find?
      (fun x => !used.contains x) with
  | none => simp
  | some a =>
    obtain ⟨i, -, rfl⟩ := List.mem_map.mp (List.mem_of_find?_eq_some h)
    have hlt : (v + i) % (2 ^ 32 - 1) < 2 ^ 32 - 1 := Nat.mod_lt _ (by decide)
    intro h0
    have := congrArg BitVec.toNat h0
    simp only [Option.getD_some, BitVec.toNat_ofNat, BitVec.ofNat_eq_ofNat] at this
    omega

theorem doOpenSession_challenges {s : State} {a : Peer} {seq : W32} {level : Byte} {nonce : Bytes} (hserves : s.bdpServes a.net = true)
    (hmode : s.mode ≠ 1) (hlevel : level.toNat ≤ 3) (hnonce : nonce.length = 16) (hlockout : s.control.lockout = false)
    (hotp : s.integrity.otpLocked = false) (hroom : s.control.sessions.length < 16) :
    ∃ (new : W32) (nd : Bytes), new ≠ 0 ∧ nd.length = 16 ∧
      doOpenSession a seq level nonce s = { s with
        free := s.free + 2
        control := { s.control with challenges := s.control.challenges ++ [⟨new, level.toNat, nonce, nd⟩] }
        out := s.out ++ [.bdp a (bdpMessage 0x11 128 0 new.toNat seq.toNat (beBytes 4 new.toNat ++ nd))] } := by
  refine ⟨_, _, freshId_ne_zero (s.control.sessions.map (·.id) ++ s.control.challenges.map (·.id)) s.draw.1,
    length_beBytes 16 (s.draw.2.draw.1 % 2 ^ 128), ?_⟩
  have hlevel' : ¬ 3 < level.toNat := by omega
  have hroom' : ¬ 16 ≤ s.control.sessions.length := by omega
  simp only [doOpenSession, hserves, hmode, hlevel', hnonce, hlockout, hotp, hroom', beq_iff_eq, Bool.not_true, Bool.false_eq_true, if_false,
    bne_self_eq_false, decide_false, Bool.or_self, State.draw, State.emit]

theorem doProof_right {s : State} {a : Peer} {seq id : W32} {p : Bytes} {ch : Challenge} (hserves : s.bdpServes a.net = true)
    (hmode : s.mode ≠ 1) (hch : s.control.challenges.find? (fun x => x.id == id) = some ch) (hlen : p.length = 32)
    (hp : p = proofOf (s.control.levelKey ch.level) "BDP-PROOF" id ch.hostNonce ch.deviceNonce ch.level)
    (hroom : s.control.sessions.length < 16) :
    doProof a seq id p s = { s with
      control := { s.control with
        challenges := s.control.challenges.filter (fun x => x.id != id)
        sessions := s.control.sessions ++
          [⟨id, ch.level, sessionKey (s.control.levelKey ch.level) id ch.hostNonce ch.deviceNonce, 0, [], none, none, 0⟩] }
      out := s.out ++ [.bdp a (sealed (sessionKey (s.control.levelKey ch.level) id ch.hostNonce ch.deviceNonce)
        (bdpMessage 0x13 128 0 id.toNat seq.toNat (beBytes 4 id.toNat ++
          proofOf (s.control.levelKey ch.level) "BDP-ACCEPT" id ch.hostNonce ch.deviceNonce ch.level)))] } := by
  have hroom' : ¬ 16 ≤ s.control.sessions.length := by omega
  simp only [doProof, hserves, hmode, hlen, hch, ← hp, hroom', beq_iff_eq, Bool.not_true, Bool.false_eq_true, if_false, bne_self_eq_false]
  rfl

theorem doProof_wrong {s : State} {a : Peer} {seq id : W32} {p : Bytes} {ch : Challenge} (hserves : s.bdpServes a.net = true)
    (hmode : s.mode ≠ 1) (hch : s.control.challenges.find? (fun x => x.id == id) = some ch) (hlen : p.length = 32)
    (hp : p ≠ proofOf (s.control.levelKey ch.level) "BDP-PROOF" id ch.hostNonce ch.deviceNonce ch.level) :
    doProof a seq id p s = State.bare (State.proofFailed { s with control := { s.control with
      challenges := s.control.challenges.filter (fun x => x.id != id) } }) a 0x12 11 id.toNat seq.toNat := by
  have hp' : (p != proofOf (s.control.levelKey ch.level) "BDP-PROOF" id ch.hostNonce ch.deviceNonce ch.level) = true := bne_iff_ne.mpr hp
  simp only [doProof, hserves, hmode, hlen, hch, hp', beq_iff_eq, Bool.not_true, Bool.false_eq_true, if_false, bne_self_eq_false, if_true]

theorem proofFailed_lockout {s : State}
    (h : 7 ≤ (s.control.proofFails.filter (fun t => decide (s.cyc < t + 10000000000))).length) : s.proofFailed.control.lockout = true := by
  have hcyc : (s.bump 0x1130 0x21 1).cyc = s.cyc := rfl
  have h8 : decide (8 ≤ (s.control.proofFails.filter (fun t => decide (s.cyc < t + 10000000000))).length + 1) = true :=
    decide_eq_true (by omega)
  simp only [State.proofFailed, State.bump_control, hcyc, List.length_append, List.length_singleton, h8, Bool.or_true]

/-- Settles O26. -/
theorem sessionsOpenByChallengeAndProof : Obligations.SessionsOpenByChallengeAndProof := by
  unfold Obligations.SessionsOpenByChallengeAndProof
  refine fun s a seq id level nonce p ch => ⟨?_, ?_, rfl, ?_⟩
  · intro hserves hmode hlevel hnonce hlockout hotp hroom
    obtain ⟨new, nd, hnew, hnd, h⟩ := doOpenSession_challenges (seq := seq) hserves hmode hlevel hnonce hlockout hotp hroom
    exact ⟨new, nd, hnew, hnd, next_of_eq rfl h⟩
  · intro hserves hmode hch
    refine ⟨fun hp hlen hroom => next_of_eq rfl (doProof_right hserves hmode hch hlen hp hroom), fun hp hlen => ?_⟩
    refine ⟨_, next_of_eq rfl (doProof_wrong hserves hmode hch hlen hp), rfl, rfl, rfl, rfl, fun h => ?_⟩
    exact proofFailed_lockout (s := { s with control := _ }) h
  · intro h
    exact next_of_eq rfl (show doAuthLockoutEnd s = _ by simp only [doAuthLockoutEnd, h, if_true])

/-! ### Ending a session (R314, R326) -/

theorem releaseDraft_control (s : State) : s.releaseDraft.control = { s.control with holder := none, draft := [] } := rfl

theorem endSession_control (s : State) (id : W32) :
    (s.endSession id).control.sessions = s.control.sessions.filter (fun x => x.id != id) ∧
    (s.endSession id).control.subs = s.control.subs.filter (fun x => x.session != id) ∧
    (s.endSession id).control.holder ≠ some (.session id) := by
  unfold State.endSession
  by_cases h : (s.control.holder == some (.session id)) = true
  · simp only [h, if_true, releaseDraft_control]
    exact ⟨trivial, trivial, by simp⟩
  · simp only [h, Bool.false_eq_true, if_false]
    exact ⟨trivial, trivial, by simpa using h⟩

/-- After its end a session is not open, and neither subscriptions nor the draft are left to it. -/
theorem endSession_settle_gone (s : State) (id : W32) :
    (s.endSession id).settle.session id = none ∧ (∀ b ∈ (s.endSession id).settle.control.subs, b.session ≠ id) ∧
    (s.endSession id).settle.control.holder ≠ some (.session id) := by
  obtain ⟨hsessions, hsubs, hholder⟩ := endSession_control s id
  rw [← State.settle_control] at hsessions hsubs hholder
  refine ⟨?_, ?_, hholder⟩
  · rw [State.session, hsessions]
    simp [List.find?_filter]
  · rw [hsubs]
    simp

theorem doCloseSession_of_authentic {s : State} {r : Req} {x : Session} (h : Authentic s r 0x14 0 [] x) :
    doCloseSession r s = (s.answer r.peer x.key x.id r.seq.toNat 0x14 0 0 []).endSession x.id := by
  rw [doCloseSession, request_authentic _ h]
  exact runRequest_some (f := closeOp) (p := fun t => t.endSession x.id) rfl

/-- Settles O27. -/
theorem sessionsEndWithTheirSubscriptions : Obligations.SessionsEndWithTheirSubscriptions := by
  unfold Obligations.SessionsEndWithTheirSubscriptions
  refine fun s r x id => ⟨fun h => ?_, fun h => ?_, fun h => ?_⟩
  · exact ⟨_, _, answer_answered .., next_of_eq rfl (doCloseSession_of_authentic h), rfl, endSession_settle_gone _ _⟩
  · exact ⟨_, next_of_eq rfl (show doSessionIdleTimeout id s = s.endSession id by simp only [doSessionIdleTimeout, h, if_true]), rfl,
      endSession_settle_gone _ _⟩
  · exact ⟨next_of_eq rfl (show doCanDraftIdleTimeout s = s.releaseDraft by simp [doCanDraftIdleTimeout, h]), rfl⟩

/-! ### Requests out of place (R316, R317, R325, R327) -/

section
variable {s : State} {r : Req} {op : Nat} {m : Bytes} (f : Session → State → Ans)

theorem requestRaw_bringUp (hserves : s.bdpServes r.peer.net = true) (hmode : s.mode = 1) :
    s.requestRaw r op m f = s.bare r.peer op 2 r.session.toNat r.seq.toNat := by
  simp [State.requestRaw, hserves, hmode]

theorem requestRaw_noSession (hserves : s.bdpServes r.peer.net = true) (hmode : s.mode ≠ 1) (hx : s.session r.session = none) :
    s.requestRaw r op m f = s.bare r.peer op 10 r.session.toNat r.seq.toNat := by
  simp [State.requestRaw, hserves, hmode, hx]

/-- A request whose MAC does not verify counts, and that alone. -/
theorem requestRaw_forged {x : Session} (hserves : s.bdpServes r.peer.net = true) (hmode : s.mode ≠ 1)
    (hx : s.session r.session = some x) (hmac : r.mac ≠ bdpMac x.key m) : s.requestRaw r op m f = s.bump 0x1130 0x21 1 := by
  simp [State.requestRaw, hserves, hmode, hx, hmac]

theorem requestRaw_fresh {x : Session} (hserves : s.bdpServes r.peer.net = true) (hmode : s.mode ≠ 1)
    (hx : s.session r.session = some x) (hmac : r.mac = bdpMac x.key m) (hseq : x.seqCase r.seq.toNat = .fresh) :
    s.requestRaw r op m f = s.runRequest r.peer x r.seq.toNat op f := by
  simp [State.requestRaw, hserves, hmode, hx, hmac, hseq]

theorem requestRaw_cached {x : Session} {c : Cached} (hserves : s.bdpServes r.peer.net = true) (hmode : s.mode ≠ 1)
    (hx : s.session r.session = some x) (hmac : r.mac = bdpMac x.key m) (hseq : x.seqCase r.seq.toNat = .executed)
    (hc : s.control.cache.find? (fun c => c.session == r.session && c.seq == r.seq.toNat) = some c) :
    s.requestRaw r op m f = (s.bump 0x1130 0x22 1).emit (.bdp r.peer c.bytes) := by
  simp only [State.requestRaw, hserves, hmode, hx, hmac, hseq, hc, beq_iff_eq, Bool.not_true, Bool.false_eq_true, if_false,
    bne_self_eq_false]

end

theorem doBdpInvalidRequest_malformed {s : State} {r : Req} {op : Byte} {raw : Bytes} (hlen : 16 ≤ raw.length)
    (hversion : beField raw 0 1 = 1) (hop : beField raw 1 1 = op.toNat) (hsession : beField raw 4 4 = r.session.toNat)
    (hseq : beField raw 8 4 = r.seq.toNat) (hmal : malformed raw = true) :
    doBdpInvalidRequest r op raw s =
      s.requestRaw r op.toNat raw (fun _ s => ⟨some (7, 0, s.refusedBody op.toNat), s, id⟩) := by
  have hlen' : ¬ raw.length < 16 := by omega
  simp [doBdpInvalidRequest, hlen', hversion, hop, hsession, hseq, hmal]

/-- Settles O33. -/
theorem requestsOutOfPlace : Obligations.RequestsOutOfPlace := by
  unfold Obligations.RequestsOutOfPlace
  intro s r x draft i sub op ty c raw b off interval max f errors hserves bare
  refine ⟨?_, ?_, ?_, ?_, ?_, ?_⟩
  · exact fun hmode => next_of_eq rfl (requestRaw_bringUp _ hserves hmode)
  · exact fun hmode hx => next_of_eq rfl (requestRaw_noSession _ hserves hmode hx)
  · exact fun hmode hx hseq hmac hc => next_of_eq rfl (requestRaw_cached _ hserves hmode hx hmac hseq hc)
  · intro hmode hx hseq hmac hlen hversion hop hsession hseq' hmal
    refine next_of_eq rfl ((doBdpInvalidRequest_malformed hlen hversion hop hsession hseq' hmal).trans ?_)
    rw [requestRaw_fresh _ hserves hmode hx hmac hseq]
    exact runRequest_id rfl
  · intro hmode hx hmac hlen hversion hop hsession hseq' hmal
    exact next_of_eq rfl ((doBdpInvalidRequest_malformed hlen hversion hop hsession hseq' hmal).trans
      (requestRaw_forged _ hserves hmode hx hmac))
  · intro hmode hx head fragment forged
    have hforged : ∀ (i : Instr) (op flags : Nat) (body : Bytes) (g : Session → State → Ans),
        exec i s = .next (s.request r op flags body g).settle → forged i op flags body :=
      fun i op flags body g h hmac => next_of_eq h (requestRaw_forged g hserves hmode hx hmac)
    exact ⟨hforged _ _ _ _ _ rfl, hforged _ _ _ _ _ rfl, hforged _ _ _ _ _ rfl, hforged _ _ _ _ _ rfl, hforged _ _ _ _ _ rfl,
      hforged _ _ _ _ _ rfl, hforged _ _ _ _ _ rfl, hforged _ _ _ _ _ rfl, hforged _ _ _ _ _ rfl, hforged _ _ _ _ _ rfl,
      hforged _ _ _ _ _ rfl, hforged _ _ _ _ _ rfl, hforged _ _ _ _ _ rfl⟩

end Sys2Proof.Machine

/-! Reads, writes and the draft over either transport (R313 to R322, R330). -/

namespace Sys2Proof.Machine

open Sys2Proof Sys2Proof.Safety

/-! ### The checks of a write (R313) -/

theorem State.draftBusy_eq_false {s : State} {c : Client} (h : ∀ h, s.control.holder = some h → h = c) : s.draftBusy c = false := by
  unfold State.draftBusy
  cases hh : s.control.holder with
  | none => rfl
  | some d => simpa using h d hh

theorem State.draftBusy_of_other {s : State} {c h : Client} (hh : s.control.holder = some h) (hne : h ≠ c) : s.draftBusy c = true := by
  simp [State.draftBusy, hh, hne]

/-- A write that its checks refuse is answered with the status, and nothing else happens. -/
theorem doWrite_refused {s : State} {r : Req} {x : Session} {i : BitVec 16} {sub ty : Byte} {b : Bytes} {n : Nat}
    (h : Authentic s r 0x02 0 (objHead i.toNat sub.toNat ty.toNat ++ b) x) (hn : n ≠ 0)
    (hw : s.writeObject (.session x.id) x.level (.bdp r) none i.toNat sub.toNat (some ty.toNat) false b = refuse n s) :
    exec (.write r i sub ty b) s = .next (s.answer r.peer x.key x.id r.seq.toNat 0x02 0 n []).settle := by
  refine next_of_eq rfl ?_
  rw [doWrite, State.bdpWrite, request_authentic _ h]
  refine runRequest_id ?_
  simp [writeOp, hw, refuse, Acted.touched, Acted.ans, hn]

section
variable {s : State} {c : Client} {level l idx sub : Nat} {v : Via} {bist : Option Bool} {ty : Option Nat} {block : Bool} {b : Bytes}
  {o : ObjRow}

theorem mayWrite_readOnly (h : o.wr = none) : s.mayWrite level idx sub o = 3 := by
  simp [State.mayWrite, h]

theorem mayWrite_lowLevel (h : o.wr = some l) (hl : level < l) : s.mayWrite level idx sub o = 3 := by
  simp [State.mayWrite, h, hl]

theorem mayWrite_level (h : o.wr = some l) (hl : l ≤ level) :
    s.mayWrite level idx sub o =
      if s.mode ≠ 7 ∨ (idx = 0x1300 ∧ sub = 0x01) ∨ (idx = 0x1700 ∧ sub = 0x02) then 0 else 9 := by
  have hl' : ¬ level < l := by omega
  simp only [State.mayWrite, h, hl', if_false]
  split_ifs with hrefused hallowed hallowed
  · simp only [Bool.and_eq_true, beq_iff_eq, Bool.not_eq_true', Bool.and_eq_false_iff, beq_eq_false_iff_ne] at hrefused
    tauto
  · rfl
  · rfl
  · simp only [Bool.and_eq_true, beq_iff_eq, Bool.not_eq_true', Bool.and_eq_false_iff, beq_eq_false_iff_ne] at hrefused
    tauto

theorem writeObject_denied {n : Nat} (hf : findObj idx sub = .row o) (hm : s.mayWrite level idx sub o = n) (hn : n ≠ 0) :
    s.writeObject c level v bist idx sub ty block b = refuse n s := by
  simp [State.writeObject, hf, hm, hn]

theorem writeObject_busy (hf : findObj idx sub = .row o) (hm : s.mayWrite level idx sub o = 0)
    (hd : s.draftRefused c idx sub o = true) : s.writeObject c level v bist idx sub ty block b = refuse 1 s := by
  simp [State.writeObject, hf, hm, hd]

theorem writeObject_badType {t : Nat} (hf : findObj idx sub = .row o) (hm : s.mayWrite level idx sub o = 0)
    (hd : s.draftRefused c idx sub o = false)
    (ht : ¬ (t = o.ty.code ∧ blockOnly o b.length = false ∧ lengthOk o.ty b.length = true)) :
    s.writeObject c level v bist idx sub (some t) false b = refuse 6 s := by
  have h6 : (blockOnly o b.length || t != o.ty.code || !lengthOk o.ty b.length) = true := by
    by_contra hne
    simp only [Bool.or_eq_true, not_or, Bool.not_eq_true, bne_eq_false_iff_eq, Bool.not_eq_false'] at hne
    exact ht ⟨hne.1.2, hne.1.1, hne.2⟩
  simp only [State.writeObject, hf, hm, hd, Bool.not_false, Bool.true_and, h6, if_true, bne_self_eq_false, Bool.false_eq_true, if_false]

theorem writeObject_outOfRange {t : Nat} (hf : findObj idx sub = .row o) (hm : s.mayWrite level idx sub o = 0)
    (hd : s.draftRefused c idx sub o = false)
    (ht : t = o.ty.code ∧ blockOnly o b.length = false ∧ lengthOk o.ty b.length = true) (hr : inRange o (ofWire o.ty b) = false) :
    s.writeObject c level v bist idx sub (some t) false b = refuse 7 s := by
  obtain ⟨hty, hblock, hlen⟩ := ht
  simp only [State.writeObject, hf, hm, hd, hty, hblock, hlen, hr, bne_self_eq_false, Bool.false_eq_true, if_false, Bool.and_false,
    Bool.or_self, Bool.not_true, Bool.not_false, if_true]

end

/-- Settles O30. -/
theorem writesAreCheckedInOrder : Obligations.WritesAreCheckedInOrder := by
  unfold Obligations.WritesAreCheckedInOrder
  intro s r x i sub ty b hauth fails
  have hfails : ∀ n, n ≠ 0 →
      s.writeObject (.session x.id) x.level (.bdp r) none i.toNat sub.toNat (some ty.toNat) false b = refuse n s → fails n :=
    fun n hn hw => doWrite_refused hauth hn hw
  refine ⟨fun hf => ?_, fun hf => ?_, fun n hf => ?_, fun o hf hwr => ?_, fun o l hf hwr => ⟨fun hl => ?_, fun hl => ?_⟩⟩
  · exact hfails 4 (by decide) (by simp [State.writeObject, hf])
  · exact hfails 5 (by decide) (by simp [State.writeObject, hf])
  · exact hfails 3 (by decide) (by simp [State.writeObject, hf])
  · exact hfails 3 (by decide) (writeObject_denied hf (mayWrite_readOnly hwr) (by decide))
  · exact hfails 3 (by decide) (writeObject_denied hf (mayWrite_lowLevel hwr hl) (by decide))
  · intro allowed held fits
    have hmay : allowed → s.mayWrite x.level i.toNat sub.toNat o = 0 := fun h => (mayWrite_level hwr hl).trans (if_pos h)
    have hfree : ¬ held → (i.toNat = 0x1200 → sub.toNat ≠ 0x11) → s.draftRefused (.session x.id) i.toNat sub.toNat o = false := by
      intro hheld hnot
      have hobj : (i.toNat == 0x1200 && sub.toNat == 0x11) = false := by
        by_contra hne
        simp only [Bool.not_eq_false, Bool.and_eq_true, beq_iff_eq] at hne
        exact hnot hne.1 hne.2
      cases hS : o.draft && !o.live with
      | false => simp [State.draftRefused, hobj, hS]
      | true =>
        simp only [Bool.and_eq_true, Bool.not_eq_true'] at hS
        have hbusy : s.draftBusy (.session x.id) = false :=
          State.draftBusy_eq_false (fun h hh => by_contra fun hne => hheld ⟨hS.1, hS.2, h, hh, hne⟩)
        simp [State.draftRefused, hbusy]
    refine ⟨fun hnot => ?_, fun hall hheld => ?_, fun hall hheld hnot hfit => ?_, fun hall hheld hnot hfit hr => ?_⟩
    · exact hfails 9 (by decide) (writeObject_denied hf ((mayWrite_level hwr hl).trans (if_neg hnot)) (by decide))
    · obtain ⟨hdraft, hlive, h, hh, hne⟩ := hheld
      refine hfails 1 (by decide) (writeObject_busy hf (hmay hall) ?_)
      simp [State.draftRefused, hdraft, hlive, State.draftBusy_of_other hh hne]
    · exact hfails 6 (by decide) (writeObject_badType hf (hmay hall) (hfree hheld hnot) hfit)
    · exact hfails 7 (by decide) (writeObject_outOfRange hf (hmay hall) (hfree hheld hnot) hfit hr)

/-! ### Writes into the draft (R314, R330) -/

theorem opened_control_holder (v : Via) (s : State) : (Opened v s).control.holder = s.control.holder := by cases v <;> rfl

/-- A write of an S object with its checks passed reaches the draft. -/
theorem writeObject_staged {s : State} {c : Client} {level l idx sub : Nat} {v : Via} {bist : Option Bool} {ty : Option Nat} {block : Bool}
    {b : Bytes} {o : ObjRow} (hf : findObj idx sub = .row o) (hdraft : o.draft = true) (hlive : o.live = false) (hwr : o.wr = some l)
    (hl : l ≤ level) (hm : s.mode ≠ 7) (hb : (!block && blockOnly o b.length) = false)
    (hty : ∀ t, ty = some t → t = o.ty.code) (hn : lengthOk o.ty b.length = true)
    (hi : inRange o (ofWire o.ty b) = true) (hh : ∀ h, s.control.holder = some h → h = c) :
    s.writeObject c level v bist idx sub ty block b = done ((s.takeDraft c).setDraft (objKey idx sub) (ofWire o.ty b)) := by
  have hmay : s.mayWrite level idx sub o = 0 := (mayWrite_level hwr hl).trans (if_pos (.inl hm))
  have hfree : s.draftRefused c idx sub o = false := by simp [State.draftRefused, State.draftBusy_eq_false hh]
  cases ty with
  | none => simp [State.writeObject, hf, hmay, hfree, hb, hn, hi, State.writeAct, hlive, hdraft]
  | some t => simp [State.writeObject, hf, hmay, hfree, hb, hty t rfl, hn, hi, State.writeAct, hlive, hdraft]

/-- A write that its client's checks pass and that is carried out as `done u` is answered over either transport. -/
theorem viaWrite_client_done {s u : State} {v : Via} {bist : Option Bool} {level idx sub : Nat} {b : Bytes}
    (hr : Reaches s v level idx sub b)
    (hw : ∀ ty block, ty = none ∨ ty = some (typeOf idx sub).code →
      (Opened v s).writeObject (viaClient v) level v bist idx sub ty block b = done u) :
    ∃ w, Answered u w ∧ s.viaWrite v bist idx sub b = w := by
  cases v with
  | bdp r =>
    obtain ⟨x, ha, rfl⟩ := hr
    obtain ⟨-, -, hx, -, -⟩ := id ha
    have hw' := hw (some (typeOf idx sub).code) false (.inr rfl)
    rw [show viaClient (.bdp r) = .session x.id by rw [session_id hx]; rfl, show Opened (.bdp r) s = s from rfl] at hw'
    refine ⟨(u.touch (objKey idx sub)).answer r.peer x.key x.id r.seq.toNat 0x02 0 0 (objHead idx sub (typeOf idx sub).code),
      answered_touch (k := objKey idx sub) (answer_answered ..), ?_⟩
    rw [State.viaWrite, State.bdpWrite, request_authentic _ ha]
    exact runRequest_id (by simp [writeOp, hw', done, Acted.touched, Acted.ans])
  | can =>
    obtain ⟨hserves, rfl⟩ := hr
    have hw' := hw none true (.inl rfl)
    refine ⟨(u.touch (objKey idx sub)).sdoSend (sdoFrame 0x60 idx sub [0, 0, 0, 0]),
      answered_touch (k := objKey idx sub) ⟨_, (u.touch (objKey idx sub)).control.sessions, u.control.cache, rfl⟩, ?_⟩
    have hl : (Opened .can s).canLevel = s.canLevel := rfl
    have hc : viaClient .can = .can := rfl
    have hx : ({ s with control := { s.control with sdo := none } } : State) = Opened .can s := rfl
    rw [hc] at hw'
    simp only [State.viaWrite, State.canDownload, hserves, Bool.not_true, Bool.false_eq_true, if_false, hx, State.canWrite,
      swapWire_swapWire, hl, hw', done, Acted.touched, beq_self_eq_true, if_true, id]

theorem code_ofNat (ty : Ty) : (BitVec.ofNat 8 ty.code).toNat = ty.code := by cases ty <;> rfl

theorem typeOf_row {idx sub : Nat} {o : ObjRow} (hf : findObj idx sub = .row o) : typeOf idx sub = o.ty := by
  simp [typeOf, hf]

/-- A WRITE with the type code of its object is the write of the object. -/
theorem exec_write {s : State} {r : Req} {i : BitVec 16} {sub : Byte} {b : Bytes} {o : ObjRow} (hf : findObj i.toNat sub.toNat = .row o) :
    exec (.write r i sub (BitVec.ofNat 8 o.ty.code) b) s = .next (s.viaWrite (.bdp r) none i.toNat sub.toNat b).settle := by
  refine next_of_eq rfl ?_
  rw [State.viaWrite, doWrite, code_ofNat, typeOf_row hf]

/-- An expedited SDO download is the write of the object. -/
theorem exec_sdoDownload {s : State} {i : BitVec 16} {sub : Byte} {b : Bytes} {o : ObjRow} (hf : findObj i.toNat sub.toNat = .row o)
    (hserves : s.canServes = true) :
    exec (.sdoDownload i sub false (swapWire o.ty b)) s = .next (s.viaWrite .can none i.toNat sub.toNat b).settle := by
  refine next_of_eq rfl ?_
  simp [State.viaWrite, doSdoDownload, hserves, typeOf_row hf]

/-! #### The draft that a write takes -/

theorem reportDraft_control (s : State) : s.reportDraft.control = s.control := rfl

theorem reportDraft_val {s : State} {k : Nat} (h1 : k ≠ objKey 0x1200 0x01) (h6 : k ≠ objKey 0x1200 0x06) (h7 : k ≠ objKey 0x1200 0x07) :
    s.reportDraft.val k = s.val k := by
  simp [State.reportDraft, State.put, h1.symm, h6.symm, h7.symm]

theorem takeDraft_holder {s : State} {c : Client} (h : ∀ h, s.control.holder = some h → h = c) :
    (s.takeDraft c).control.holder = some c := by
  unfold State.takeDraft
  cases hh : s.control.holder with
  | none => rfl
  | some d => simp [hh, h d hh]

theorem takeDraft_val {s : State} {c : Client} {k : Nat} (h1 : k ≠ objKey 0x1200 0x01) (h6 : k ≠ objKey 0x1200 0x06)
    (h7 : k ≠ objKey 0x1200 0x07) : (s.takeDraft c).val k = s.val k := by
  unfold State.takeDraft
  split
  · rfl
  · exact reportDraft_val h1 h6 h7

/-- Settles O29. -/
theorem writesOfStagedObjectsReachTheDraft : Obligations.WritesOfStagedObjectsReachTheDraft := by
  unfold Obligations.WritesOfStagedObjectsReachTheDraft
  intro s v level l i sub b o c hf hdraft hlive hwr hl hm hb hn hi hr hc hh
  subst hc
  have hh' : ∀ h, (Opened v s).control.holder = some h → h = viaClient v := by rwa [opened_control_holder]
  obtain ⟨w, hans, hw⟩ := viaWrite_client_done (bist := none) hr (fun ty block hty => writeObject_staged hf hdraft hlive hwr hl
    (by rwa [opened_mode]) (by simp [hb]) (by rintro t rfl; simpa [typeOf_row hf] using hty) hn hi hh')
  refine ⟨w, hans, ?_, ?_⟩
  · cases v with
    | bdp r => exact (exec_write hf).trans (by rw [hw])
    | can => exact (exec_sdoDownload hf hr.1).trans (by rw [hw])
  · obtain ⟨m, sessions, cache, rfl⟩ := hans
    refine ⟨takeDraft_holder hh', ?_, fun k h1 h6 h7 => ?_⟩
    · exact (dictGet_dictSet _ _ _ _).trans (if_pos rfl)
    · calc State.val _ k = ((Opened v s).takeDraft (viaClient v)).val k := rfl
        _ = (Opened v s).val k := takeDraft_val h1 h6 h7
        _ = s.val k := by rw [State.val, State.val, opened_od]

end Sys2Proof.Machine

/-! Reads and block transfers (R318 to R322, R339, R340). -/

namespace Sys2Proof.Machine

open Sys2Proof Sys2Proof.Safety

/-! ### Reads -/

section
variable {s : State} {idx sub l level : Nat} {o : ObjRow}

/-- What an object that the level may read is read as. -/
theorem readBytes_row (draft : Bool) (hf : findObj idx sub = .row o) (hrd : o.rd = some l) (hl : l ≤ level) :
    s.readBytes level idx sub draft =
      (0, o.ty, wireBytes o.ty (if draft && o.draft then dictGet s.draftNow (objKey idx sub) else s.readObj idx sub)) := by
  have hl' : ¬ level < l := by omega
  simp [State.readBytes, hf, hrd, hl']

theorem captureBusy_of_none (h : captureData idx sub = none) : s.captureBusy idx sub = false := by
  simp [State.captureBusy, h]

theorem captureRead_of_none (h : captureData idx sub = none) : s.captureRead idx sub = s := by
  simp [State.captureRead, h]

variable {x : Session}

theorem readOp_row {draft : Bool} (hf : findObj idx sub = .row o) (hrd : o.rd = some l) (hl : l ≤ x.level) (hdomain : o.ty ≠ .domain)
    (hstr : o.ty = .str →
      (wireBytes o.ty (if draft && o.draft then dictGet s.draftNow (objKey idx sub) else s.readObj idx sub)).length ≤ 1396) :
    readOp draft idx sub x s = ⟨some (0, 0, objHead idx sub o.ty.code ++
      wireBytes o.ty (if draft && o.draft then dictGet s.draftNow (objKey idx sub) else s.readObj idx sub)), s, id⟩ := by
  have hshort : (o.ty == .domain || (o.ty == .str && decide (1396 <
      (wireBytes o.ty (if draft && o.draft then dictGet s.draftNow (objKey idx sub) else s.readObj idx sub)).length))) = false := by
    by_cases hty : o.ty = .str
    · simpa [hdomain, hty] using hstr hty
    · simp [hdomain, hty]
  simp only [readOp, readBytes_row draft hf hrd hl, hshort, bne_self_eq_false, Bool.false_eq_true, if_false]

variable {off max : Nat} {errors : List BurstError}

/-- The fragment of a block read at offset 0: the object is copied for the fragments to come. -/
theorem readBlockOp_start (hf : findObj idx sub = .row o) (hrd : o.rd = some l) (hl : l ≤ x.level) (hdomain : o.ty = .domain)
    (hcapture : captureData idx sub = none) (hmin : 1 ≤ max) (hmax : max ≤ 1388) :
    let u := s.domainRead idx sub 0 max errors
    let value := wireBytes o.ty (u.readObj idx sub)
    readBlockOp idx sub 0 max errors x s =
      ⟨some (0, 0, objHead idx sub 0 ++ beBytes 4 value.length ++ beBytes 4 0 ++ (value.drop 0).take max),
        u.modSession x.id (fun y => { y with read := some ⟨objKey idx sub, value, false⟩ }), id⟩ := by
  have hmin' : max ≠ 0 := by omega
  have hmax' : ¬ 1388 < max := by omega
  simp only [readBlockOp, readBytes_row false hf hrd hl, captureBusy_of_none hcapture, captureRead_of_none hcapture]
  cases hread : x.read with
  | none => simp [hdomain, hmin', hmax', b2n]
  | some b => by_cases hk : b.key = objKey idx sub <;> simp [hdomain, hmin', hmax', b2n, hk]

/-- A later fragment of an object that no copy serves comes from the object as it is. -/
theorem readBlockOp_direct (hf : findObj idx sub = .row o) (hrd : o.rd = some l) (hl : l ≤ x.level) (hdomain : o.ty = .domain)
    (hcapture : captureData idx sub = none) (hmin : 1 ≤ max) (hmax : max ≤ 1388) (hoff : off ≠ 0) (hread : x.read = none)
    (hlen : off ≤ (wireBytes o.ty (s.readObj idx sub)).length) :
    let u := s.domainRead idx sub off max errors
    let value := wireBytes o.ty (u.readObj idx sub)
    readBlockOp idx sub off max errors x s =
      ⟨some (0, 0, objHead idx sub 0 ++ beBytes 4 value.length ++ beBytes 4 off ++ (value.drop off).take max), u, id⟩ := by
  have hmin' : max ≠ 0 := by omega
  have hmax' : ¬ 1388 < max := by omega
  have hlen' : ¬ (wireBytes .domain (s.readObj idx sub)).length < off := by rw [hdomain] at hlen; omega
  simp only [readBlockOp, readBytes_row false hf hrd hl, captureBusy_of_none hcapture, captureRead_of_none hcapture, hread]
  simp [hdomain, hmin', hmax', b2n, hoff, hlen']

/-- A later fragment comes from the copy where one of up to 65,536 bytes was taken. -/
theorem readBlockOp_copy {b : ReadBuf} (hf : findObj idx sub = .row o) (hrd : o.rd = some l) (hl : l ≤ x.level) (hdomain : o.ty = .domain)
    (hcapture : captureData idx sub = none) (hmin : 1 ≤ max) (hmax : max ≤ 1388) (hoff : off ≠ 0) (hread : x.read = some b)
    (hkey : b.key = objKey idx sub) (hsmall : b.copy.length ≤ 65536) (hlen : off ≤ b.copy.length) :
    readBlockOp idx sub off max errors x s =
      ⟨some (0, 0, objHead idx sub 0 ++ beBytes 4 b.copy.length ++ beBytes 4 off ++ (b.copy.drop off).take max), s, id⟩ := by
  have hmin' : max ≠ 0 := by omega
  have hmax' : ¬ 1388 < max := by omega
  have hlen' : ¬ b.copy.length < off := by omega
  have hsmall' : ¬ 65536 < b.copy.length := by omega
  simp only [readBlockOp, readBytes_row false hf hrd hl, captureBusy_of_none hcapture, captureRead_of_none hcapture, hread]
  simp [hdomain, hmin', hmax', b2n, hoff, hlen', hkey, hsmall, hsmall']

end

/-- Settles O28. -/
theorem readsAnswerTheValue : Obligations.ReadsAnswerTheValue := by
  unfold Obligations.ReadsAnswerTheValue
  intro s r x draft off i sub max errors o l hf hrd hl k value now u read asked part
  refine ⟨fun hauth hdomain hstr => ?_, fun hasked hdomain hcapture hmin hmax => ⟨?_, ?_, ?_⟩⟩
  · refine next_of_eq rfl ?_
    rw [doRead, request_authentic _ hauth]
    exact runRequest_id (readOp_row hf hrd hl hdomain hstr)
  · rintro rfl
    refine next_of_eq rfl ?_
    rw [doReadBlock, request_authentic _ hasked]
    exact runRequest_id (readBlockOp_start hf hrd hl hdomain hcapture hmin hmax)
  · intro hoff hread hlen
    refine next_of_eq rfl ?_
    rw [doReadBlock, request_authentic _ hasked]
    exact runRequest_id (readBlockOp_direct hf hrd hl hdomain hcapture hmin hmax (by simpa [← BitVec.toNat_inj] using hoff) hread hlen)
  · intro b hoff hread hkey hsmall hlen
    refine next_of_eq rfl ?_
    rw [doReadBlock, request_authentic _ hasked]
    exact runRequest_id (readBlockOp_copy hf hrd hl hdomain hcapture hmin hmax (by simpa [← BitVec.toNat_inj] using hoff) hread hkey hsmall
      hlen)

/-! ### Block writes (R322) -/

theorem touched_done_ans (u : State) (k : Nat) (body : Bytes) : ((done u).touched k).ans body = ⟨some (0, 0, body), u.touch k, id⟩ := rfl

theorem touched_refuse_ans {n : Nat} (hn : n ≠ 0) (u : State) (k : Nat) (body : Bytes) :
    ((refuse n u).touched k).ans body = ⟨some (n, 0, []), u, id⟩ := by
  simp [refuse, Acted.touched, Acted.ans, hn]

/-- A request that carries out a write is answered. -/
theorem request_done {s u : State} {r : Req} {op flags k : Nat} {body b : Bytes} {x : Session} {f : Session → State → Ans}
    (h : Authentic s r op flags body x) (hf : f x s = ((done u).touched k).ans b) :
    ∃ t, Answered u t ∧ s.request r op flags body f = t :=
  ⟨_, answered_touch (k := k) (answer_answered ..), (request_authentic f h).trans (runRequest_id (hf.trans (touched_done_ans u k b)))⟩

/-- A request whose write is refused is answered too. -/
theorem request_refuse {s u : State} {r : Req} {op flags k n : Nat} {body b : Bytes} {x : Session} {f : Session → State → Ans}
    (h : Authentic s r op flags body x) (hn : n ≠ 0) (hf : f x s = ((refuse n u).touched k).ans b) :
    ∃ t, Answered u t ∧ s.request r op flags body f = t :=
  ⟨_, answer_answered .., (request_authentic f h).trans (runRequest_id (hf.trans (touched_refuse_ans hn u k b)))⟩

section
variable {s : State} {v : Via} {f : Fragment} {idx sub l : Nat} {x : Session} {w : BlockWrite} {o : ObjRow}

/-- The first fragment of an object with S opens the block write and takes the draft. -/
theorem writeBlockOp_first (hmode : s.mode ≠ 7) (hsent : 1 ≤ f.data.length ∧ f.data.length ≤ 1388) (hf : findObj idx sub = .row o)
    (hdraft : o.draft = true) (hfirst : f.first = true) (hlast : f.last = false)
    (hoff : f.off = 0) (htotal : f.data.length ≤ f.total.toNat) (hrange : inRange o (.blob (List.replicate f.total.toNat 0)) = true)
    (hheld : ∀ h, s.control.holder = some h → h = .session x.id) (hblock : x.block = none) :
    writeBlockOp v f idx sub x s = ⟨some (0, 0, objHead idx sub 0 ++ beBytes 4 f.data.length),
      ((s.takeDraft (.session x.id)).modSession x.id (fun y => { y with block := some ⟨objKey idx sub, f.total.toNat, []⟩ })).modSession x.id
        (fun y => { y with block := some ⟨objKey idx sub, f.total.toNat, f.data⟩ }), id⟩ := by
  have hmin : f.data ≠ [] := by rintro h; simp [h] at hsent
  have hmax : ¬ 1388 < f.data.length := by omega
  have hfree : s.draftRefused (.session x.id) idx sub o = false := by simp [State.draftRefused, State.draftBusy_eq_false hheld]
  have hopens : s.firstFragment (.session x.id) f idx sub = 0 := by
    simpa [State.firstFragment, hf, hfree, hoff] using fun _ => hrange
  simp [writeBlockOp, blockAppend, fragmentFits, takesDraft, hmode, hmin, hmax, hblock, hfirst, hopens, hoff, htotal, hlast, hf, hdraft]

section
variable (hmode : s.mode ≠ 7) (hsent : 1 ≤ f.data.length ∧ f.data.length ≤ 1388) (hblock : x.block = some w)
include hmode hsent hblock

/-- A fragment in sequence goes on with its block write. -/
theorem writeBlockOp_middle (hkey : w.key = objKey idx sub) (hfirst : f.first = false) (hlast : f.last = false)
    (hoff : f.off.toNat = w.data.length) (htotal : (w.data ++ f.data).length ≤ w.total) :
    writeBlockOp v f idx sub x s = ⟨some (0, 0, objHead idx sub 0 ++ beBytes 4 (w.data ++ f.data).length),
      s.modSession x.id (fun y => { y with block := some { w with data := w.data ++ f.data } }), id⟩ := by
  have hmin : f.data ≠ [] := by rintro h; simp [h] at hsent
  have hmax : ¬ 1388 < f.data.length := by omega
  rw [List.length_append] at htotal
  simp [writeBlockOp, blockAppend, fragmentFits, hmode, hmin, hmax, hblock, hkey, hfirst, hlast, hoff, htotal]

/-- The last fragment closes the block write and writes the object as a whole. -/
theorem writeBlockOp_last (hkey : w.key = objKey idx sub) (hfirst : f.first = false) (hlast : f.last = true)
    (hoff : f.off.toNat = w.data.length) (htotal : (w.data ++ f.data).length = w.total) :
    writeBlockOp v f idx sub x s = (((s.modSession x.id (fun y => { y with block := none })).writeObject (.session x.id) x.level v none idx sub
      (blockType idx sub (w.data ++ f.data).length) true (w.data ++ f.data)).touched (objKey idx sub)).ans
      (objHead idx sub 0 ++ beBytes 4 (w.data ++ f.data).length) := by
  have hmin : f.data ≠ [] := by rintro h; simp [h] at hsent
  have hmax : ¬ 1388 < f.data.length := by omega
  rw [List.length_append] at htotal
  simp [writeBlockOp, blockAppend, fragmentFits, hmode, hmin, hmax, hblock, hkey, hfirst, hlast, hoff, htotal]

theorem writeBlockOp_other (hkey : w.key ≠ objKey idx sub) : writeBlockOp v f idx sub x s = ⟨some (1, 0, []), s, id⟩ := by
  have hmin : f.data ≠ [] := by rintro h; simp [h] at hsent
  have hmax : ¬ 1388 < f.data.length := by omega
  simp [writeBlockOp, failAns, hmode, hmin, hmax, hblock, hkey]

end

theorem blockType_domain (hf : findObj idx sub = .row o) (hty : o.ty = .domain) (n : Nat) : blockType idx sub n = none := by
  simp [blockType, hf, blockOnly, hty]

/-- A DOMAIN whose length its row allows is in range. -/
theorem inRange_len {hi : Nat} {b : Bytes} (hty : o.ty = .domain) (hr : o.rng = .len 0 hi 1) (hb : b.length ≤ hi) :
    inRange o (ofWire o.ty b) = true := by
  simp [inRange, hty, hr, ofWire, Ty.isBlob, Val.toBytes, hb, Nat.mod_one]

end

theorem imageRow : ∃ o, findObj 0x1200 0x11 = .row o ∧ o.ty = .domain ∧ o.draft = false ∧ o.live = false ∧ o.wr = some 2 ∧
    o.rng = .len 0 8388608 1 := ⟨_, rfl, by decide⟩

theorem firmwareRow : ∃ o, findObj 0x1210 0x10 = .row o ∧ o.ty = .domain ∧ o.draft = false ∧ o.live = false ∧ o.wr = some 2 ∧
    o.rng = .len 0 4194304 1 := ⟨_, rfl, by decide⟩

/-- A block write that passes its checks does what its object does. -/
theorem writeObject_block {s : State} {c : Client} {level l idx sub : Nat} {v : Via} {bist : Option Bool} {b : Bytes} {o : ObjRow}
    (hf : findObj idx sub = .row o) (hwr : o.wr = some l) (hl : l ≤ level) (hm : s.mode ≠ 7) (hd : s.draftRefused c idx sub o = false)
    (hn : lengthOk o.ty b.length = true) (hi : inRange o (ofWire o.ty b) = true) :
    s.writeObject c level v bist idx sub none true b = s.writeAct c level v bist idx sub o (ofWire o.ty b) := by
  have hmay : s.mayWrite level idx sub o = 0 := (mayWrite_level hwr hl).trans (if_pos (.inl hm))
  simp [State.writeObject, hf, hmay, hd, hn, hi]

/-- The import of an image by the holder of the draft replaces the draft. -/
theorem writeObject_import {s : State} {c : Client} {level : Nat} {v : Via} {b : Bytes} (hlevel : 2 ≤ level) (hmode : s.mode ≠ 7)
    (hheld : s.control.holder = some c) (hlen : b.length ≤ 8388608) (hok : (importImage s.control.signKey b).1 = 0) :
    s.writeObject c level v none 0x1200 0x11 none true b =
      done { s with control := { s.control with draft := (importImage s.control.signKey b).2 } } := by
  obtain ⟨o, hf, hty, hdraft, hlive, hwr, hrng⟩ := imageRow
  have hfree : s.draftBusy c = false := State.draftBusy_eq_false (by simp [hheld])
  have hlenOk : lengthOk o.ty b.length = true := by simp [hty, lengthOk, Ty.width]
  have hbytes : (ofWire o.ty b).toBytes = b := by simp [ofWire, hty, Ty.isBlob, Val.toBytes]
  rw [writeObject_block hf hwr hlevel hmode (by simp [State.draftRefused, hfree]) hlenOk (inRange_len hty hrng hlen)]
  simp [State.writeAct, hlive, hdraft, State.controlWrite, hbytes, State.importAct, hfree, hok, State.takeDraft, hheld]

/-- A firmware image goes into the slot that does not run, when it verifies. -/
theorem writeObject_firmware {s : State} {c : Client} {level : Nat} {v : Via} {b : Bytes} (hlevel : 2 ≤ level) (hmode : s.mode = 6)
    (hlen : b.length ≤ 4194304) :
    let m := parseFirmware Config.firmwareKey Config.minFirmware b
    s.writeObject c level v none 0x1210 0x10 none true b =
      if m.1 ≠ 0 then refuse m.1 s
      else done { s with control := if s.control.fwRunning then { s.control with fwA := m.2 } else { s.control with fwB := m.2 } } := by
  obtain ⟨o, hf, hty, hdraft, hlive, hwr, hrng⟩ := firmwareRow
  have hlenOk : lengthOk o.ty b.length = true := by simp [hty, lengthOk, Ty.width]
  have hbytes : (ofWire o.ty b).toBytes = b := by simp [ofWire, hty, Ty.isBlob, Val.toBytes]
  rw [writeObject_block hf hwr hlevel (by rw [hmode]; decide) (by simp [State.draftRefused, hdraft]) hlenOk (inRange_len hty hrng hlen)]
  simp [State.writeAct, hlive, hdraft, State.controlWrite, hbytes, State.firmwareAct, hmode]

/-- Settles O31. -/
theorem blockWritesCollectTheirFragments : Obligations.BlockWritesCollectTheirFragments := by
  unfold Obligations.BlockWritesCollectTheirFragments
  intro s r f x i sub o w l body k open' whole sent fits
  refine ⟨fun hauth hmode hsent => ⟨?_, ?_, ?_, ?_⟩, ?_, ?_, ?_⟩
  · intro hf hty hdraft hlive hfirst hlast hoff htotal hrange hheld hblock
    refine ⟨_, next_of_eq rfl ?_, rfl⟩
    rw [doWriteBlock, State.bdpWriteBlock, request_authentic _ hauth]
    exact runRequest_id (writeBlockOp_first hmode hsent hf hdraft hfirst hlast hoff htotal hrange hheld hblock)
  · intro hblock hkey hfirst hlast hoff htotal
    refine next_of_eq rfl ?_
    rw [doWriteBlock, State.bdpWriteBlock, request_authentic _ hauth]
    exact runRequest_id (writeBlockOp_middle hmode hsent hblock hkey hfirst hlast hoff htotal)
  · rintro hblock hkey ⟨-, hfirst, hlast, hoff, htotal⟩ hf hty hdraft hlive hwr hl hn hi hheld
    have hop := writeBlockOp_last (v := .bdp r) hmode hsent hblock hkey hfirst hlast hoff htotal
    rw [blockType_domain hf hty, writeObject_staged (s := open' s none) (ty := none) hf hdraft hlive hwr hl hmode rfl (by simp) hn hi
      hheld] at hop
    obtain ⟨t, hans, ht⟩ := request_done hauth hop
    exact ⟨t, hans, next_of_eq rfl ht⟩
  · intro hblock hkey
    refine next_of_eq rfl ?_
    rw [doWriteBlock, State.bdpWriteBlock, request_authentic _ hauth]
    exact runRequest_id (writeBlockOp_other hmode hsent hblock hkey)
  · intro hauth
    refine next_of_eq rfl ?_
    rw [doAbortBlockWrite, request_authentic _ hauth]
    exact runRequest_id rfl
  · rintro hauth hmode hblock hkey ⟨hsent, hfirst, hlast, hoff, htotal⟩ hlevel hheld hlen hok
    obtain ⟨o', hf, hty, -⟩ := imageRow
    have hop := writeBlockOp_last (v := .bdp r) hmode hsent hblock hkey hfirst hlast hoff htotal
    rw [blockType_domain hf hty, writeObject_import (s := open' s none) hlevel hmode hheld hlen hok] at hop
    obtain ⟨t, hans, ht⟩ := request_done hauth hop
    exact ⟨_, t, hans, next_of_eq rfl ht, rfl⟩
  · rintro hauth hmode hblock hkey ⟨hsent, hfirst, hlast, hoff, htotal⟩ hlevel hlen
    obtain ⟨o', hf, hty, -⟩ := firmwareRow
    have hmode7 : s.mode ≠ 7 := by rw [hmode]; decide
    have hop := writeBlockOp_last (v := .bdp r) hmode7 hsent hblock hkey hfirst hlast hoff htotal
    rw [blockType_domain hf hty, writeObject_firmware (s := open' s none) hlevel hmode hlen] at hop
    by_cases hm : (parseFirmware Config.firmwareKey Config.minFirmware whole).1 = 0
    · rw [if_neg (not_not.mpr hm)] at hop
      obtain ⟨t, hans, ht⟩ := request_done hauth hop
      exact ⟨_, t, hans, next_of_eq rfl ht, fun h => absurd hm h, fun _ => rfl⟩
    · rw [if_pos hm] at hop
      obtain ⟨t, hans, ht⟩ := request_refuse hauth hm hop
      exact ⟨_, t, hans, next_of_eq rfl ht, fun _ => rfl, fun h => absurd h hm⟩

end Sys2Proof.Machine

/-! Subscriptions (R329), the SDO server (R330 to R333) and the ends of admission (R36, R60, R334, R336). -/

namespace Sys2Proof.Machine

open Sys2Proof Sys2Proof.Safety

/-! ### Subscriptions -/

section
variable {s : State} {x : Session} {a : Peer} {idx sub mode interval : Nat}

theorem unsubscribeOp_ok (hv : (s.readBytes x.level idx sub false).1 = 0) :
    unsubscribeOp idx sub x s = ⟨some (0, 0, objHead idx sub 0), { s with control := { s.control with
      subs := s.control.subs.filter (fun b => !(b.session == x.id && b.key == objKey idx sub)) } }, id⟩ := by
  simp [unsubscribeOp, hv]

theorem subscribeOp_ok (hv : (s.readBytes x.level idx sub false).1 = 0) (hdomain : (s.readBytes x.level idx sub false).2.1 ≠ .domain)
    (hmin : 10 ≤ interval) (hmax : interval ≤ 60000)
    (hroom : (s.control.subs.filter (fun b => !(b.session == x.id && b.key == objKey idx sub))).length < 64) :
    let b : Subscription := ⟨x.id, objKey idx sub, mode, interval, a, none⟩
    subscribeOp a mode idx sub interval x s = ⟨some (0, 0, objHead idx sub mode), { s with control := { s.control with
        subs := s.control.subs.filter (fun b => !(b.session == x.id && b.key == objKey idx sub)) ++ [b] } },
      fun t => if mode = 1 then
        t.notify b (s.readBytes x.level idx sub false).2.1 (s.readBytes x.level idx sub false).2.2 else t⟩ := by
  have hroom' : ¬ 64 ≤ (s.control.subs.filter (fun b => !(b.session == x.id && b.key == objKey idx sub))).length := by omega
  have hinterval : (decide (interval < 10) || decide (60000 < interval)) = false := by simp; omega
  have hdomain' : ((s.readBytes x.level idx sub false).2.1 == .domain) = false := by simpa using hdomain
  simp only [subscribeOp, hv, hdomain', hinterval, hroom', bne_self_eq_false, Bool.false_eq_true, if_false]

end

/-- What the subscription found for a session and an object names. -/
theorem subscription_session {s : State} {id : W32} {k : Nat} {b : Subscription} (h : s.subscription id k = some b) : b.session = id := by
  have := List.find?_some h
  simp only [Bool.and_eq_true, beq_iff_eq] at this
  exact this.1

theorem notify_some {s : State} {b : Subscription} {x : Session} {ty : Ty} {v : Bytes} (h : s.session b.session = some x) :
    (s.notify b ty v).od = s.od ∧
    (s.notify b ty v).out = s.out ++ [.bdp b.peer (sealed x.key (bdpMessage 0x08 0 0 b.session.toNat (x.notifySeq + 1)
      (objHead (b.key / 256) (b.key % 256) ty.code ++ v)))] := by
  simp only [State.notify, h]
  exact ⟨rfl, rfl⟩

section
variable {s : State} {x : Session} {i : BitVec 16} {sub : Byte} {b : Subscription}
  (hb : s.subscription x.id (objKey i.toNat sub.toNat) = some b) (hx : s.session x.id = some x)
  (hv : (s.readBytes x.level i.toNat sub.toNat false).1 = 0) (hserves : s.bdpServes b.peer.net = true) (hmode : s.mode ≠ 1)
include hb hx hv hserves hmode

theorem doSubscriptionInterval_notify (h : b.mode = 2 ∨ b.last ≠ some (.blob (s.readBytes x.level i.toNat sub.toNat false).2.2)) :
    doSubscriptionInterval x.id i sub s = s.notify b (s.readBytes x.level i.toNat sub.toNat false).2.1
      (s.readBytes x.level i.toNat sub.toNat false).2.2 := by
  have hdue : (b.mode == 2 || b.last != some (.blob (s.readBytes x.level i.toNat sub.toNat false).2.2)) = true := by simpa using h
  simp [doSubscriptionInterval, hb, hx, hv, hserves, hmode, hdue]

theorem doSubscriptionInterval_same (h2 : b.mode ≠ 2) (h : b.last = some (.blob (s.readBytes x.level i.toNat sub.toNat false).2.2)) :
    doSubscriptionInterval x.id i sub s = s := by
  simp [doSubscriptionInterval, hb, hx, hv, hserves, hmode, h2, h]

end

/-- Settles O32. -/
theorem subscriptionsNotify : Obligations.SubscriptionsNotify := by
  unfold Obligations.SubscriptionsNotify
  intro s r x i sub interval b k v others asked new after ok
  refine ⟨?_, ?_, ?_, fun hb hx hv hserves hmode => ⟨fun h => ?_, fun h2 h => ?_⟩⟩
  · rintro ⟨hauth, hv⟩
    refine ⟨_, answer_answered .., next_of_eq rfl ((request_authentic _ hauth).trans (runRequest_id (unsubscribeOp_ok hv)))⟩
  · rintro ⟨hauth, hv⟩ ⟨hdomain, hmin, hmax, hroom⟩
    refine ⟨_, answer_answered _ r.peer x.key x.id r.seq.toNat 0x07 0 0 (objHead i.toNat sub.toNat 1),
      next_of_eq rfl ((request_authentic _ hauth).trans ?_)⟩
    exact runRequest_some (subscribeOp_ok hv hdomain hmin hmax hroom)
  · rintro ⟨hauth, hv⟩ ⟨hdomain, hmin, hmax, hroom⟩
    refine ⟨_, answer_answered _ r.peer x.key x.id r.seq.toNat 0x07 0 0 (objHead i.toNat sub.toNat 2),
      next_of_eq rfl ((request_authentic _ hauth).trans ?_)⟩
    exact runRequest_some (subscribeOp_ok hv hdomain hmin hmax hroom)
  · have hx' : s.session b.session = some x := by rw [subscription_session hb, hx]
    refine ⟨_, next_of_eq rfl (doSubscriptionInterval_notify hb hx hv hserves hmode h), ?_, ?_⟩
    · exact (notify_some hx').1
    · exact (notify_some hx').2
  · exact next_of_eq rfl (doSubscriptionInterval_same hb hx hv hserves hmode h2 h)

/-! ### The SDO server -/

section
variable {s : State} {i : BitVec 16} {sub : Byte} {t : SdoTransfer}

theorem doSdoUpload_short (hserves : s.canServes = true) (hv : (s.readBytes s.canLevel i.toNat sub.toNat false).1 = 0)
    (hcapture : captureData i.toNat sub.toNat = none) :
    let v := s.readBytes s.canLevel i.toNat sub.toNat false
    let w := swapWire v.2.1 v.2.2
    1 ≤ w.length → w.length ≤ 4 → doSdoUpload i sub s = ({ s with control := { s.control with sdo := none } } : State).sdoSend
      (sdoFrame (0x43 + 4 * (4 - w.length)) i.toNat sub.toNat (w ++ List.replicate (4 - w.length) 0)) := by
  intro v w hmin hmax
  have hfits : (decide (1 ≤ w.length) && decide (w.length ≤ 4)) = true := by simp [hmin, hmax]
  simp only [doSdoUpload, hserves, hv, captureBusy_of_none hcapture, Bool.not_true, Bool.false_eq_true, if_false, bne_self_eq_false]
  exact if_pos hfits

theorem doSdoUpload_long (hserves : s.canServes = true) (hv : (s.readBytes s.canLevel i.toNat sub.toNat false).1 = 0)
    (hcapture : captureData i.toNat sub.toNat = none) :
    let v := s.readBytes s.canLevel i.toNat sub.toNat false
    let w := swapWire v.2.1 v.2.2
    w.length = 0 ∨ 4 < w.length → doSdoUpload i sub s =
      ({ s with control := { s.control with sdo := some ⟨objKey i.toNat sub.toNat, true, w, false⟩ } } : State).sdoSend
        (sdoFrame 0x41 i.toNat sub.toNat (leBytes 4 w.length)) := by
  intro v w hlen
  have hfits : ¬ (decide (1 ≤ w.length) && decide (w.length ≤ 4)) = true := by simp; omega
  simp only [doSdoUpload, hserves, hv, captureBusy_of_none hcapture, Bool.not_true, Bool.false_eq_true, if_false, bne_self_eq_false]
  exact if_neg hfits

section
variable (hserves : s.canServes = true) (ht : s.control.sdo = some t)
include hserves ht

/-- A segment of an upload with more to come. -/
theorem doSdoSegment_uploadMore {b : Bytes} (hup : t.upload = true) (hlen : 7 < t.data.length) :
    doSdoSegment t.toggle false b s =
      ({ s with control := { s.control with sdo := some { t with data := t.data.drop 7, toggle := !t.toggle } } } : State).sdoSend
        (byteOf (b2n t.toggle * 16) :: t.data.take 7) := by
  have hrest : (t.data.drop 7).isEmpty = false := by
    rw [List.isEmpty_eq_false_iff, ← List.length_pos_iff, List.length_drop]
    omega
  have htake : min 7 t.data.length = 7 := by omega
  simp [doSdoSegment, hserves, ht, hup, hrest, htake, b2n]

/-- The last segment of an upload. -/
theorem doSdoSegment_uploadEnd {b : Bytes} (hup : t.upload = true) (hlen : t.data.length ≤ 7)
    (hquiet : captureData (t.key / 256) (t.key % 256) = none) :
    doSdoSegment t.toggle false b s = ({ s with control := { s.control with sdo := none } } : State).sdoSend
      (byteOf (b2n t.toggle * 16 + (7 - t.data.length) * 2 + 1) :: t.data ++ List.replicate (7 - t.data.length) 0) := by
  have hrest : t.data.drop 7 = [] := List.drop_of_length_le hlen
  have htake : t.data.take 7 = t.data := List.take_of_length_le hlen
  simp [doSdoSegment, hserves, ht, hup, hrest, htake, captureRead_of_none hquiet, b2n]

theorem doSdoSegment_downloadMore {b : Bytes} (hup : t.upload = false) :
    doSdoSegment t.toggle false b s =
      ({ s with control := { s.control with sdo := some { t with data := t.data ++ b, toggle := !t.toggle } } } : State).sdoSend
        [byteOf (0x20 + b2n t.toggle * 16), 0, 0, 0, 0, 0, 0, 0] := by
  simp [doSdoSegment, hserves, ht, hup]

theorem doSdoSegment_downloadEnd {b : Bytes} (hup : t.upload = false) :
    doSdoSegment t.toggle true b s = ({ s with control := { s.control with sdo := none } } : State).canWrite none (t.key / 256)
      (t.key % 256) (t.data ++ b) [byteOf (0x20 + b2n t.toggle * 16), 0, 0, 0, 0, 0, 0, 0] := by
  simp [doSdoSegment, hserves, ht, hup]

theorem doSdoSegmentTimeout_aborts :
    doSdoSegmentTimeout s = ({ s with control := { s.control with sdo := none } } : State).sdoAbort (t.key / 256) (t.key % 256) 0x05040000 := by
  simp only [doSdoSegmentTimeout, hserves, ht, if_true]

end

theorem doSdoDownload_segmented {b : Bytes} (hserves : s.canServes = true) :
    doSdoDownload i sub true b s =
      ({ s with control := { s.control with sdo := some ⟨objKey i.toNat sub.toNat, false, [], false⟩ } } : State).sdoSend
        (sdoFrame 0x60 i.toNat sub.toNat [0, 0, 0, 0]) := by
  simp only [doSdoDownload, hserves, Bool.not_true, Bool.false_eq_true, if_false, if_true]

theorem doCanHeartbeat_of_on (hserves : s.canServes = true) (hon : s.num 0x1140 0x04 ≠ 0) :
    doCanHeartbeat s =
      s.canSend (0x700 + s.num 0x1140 0x01) [if s.mode = 3 ∨ s.mode = 4 ∨ s.mode = 5 then 0x05 else 0x7F] := by
  simp [doCanHeartbeat, hserves, hon, State.sensing, or_assoc]

end

/-- Settles O35. -/
theorem sdoTransfersRun : Obligations.SdoTransfersRun := by
  unfold Obligations.SdoTransfersRun
  intro s i sub b t hserves close hold v w k frame sends quiet
  refine ⟨fun hv hcapture hmin hmax => ?_, fun hv hcapture hlen => ?_, ?_, fun ht hup hlen => ?_, fun ht hup hlen hquiet => ?_,
    fun ht hup => ?_, fun ht hup => ?_, fun ht => ?_, fun hon => ?_, fun _ _ _ => rfl⟩
  · exact next_of_eq rfl (doSdoUpload_short hserves hv hcapture hmin hmax)
  · exact next_of_eq rfl (doSdoUpload_long hserves hv hcapture hlen)
  · exact next_of_eq rfl (doSdoDownload_segmented hserves)
  · exact next_of_eq rfl (doSdoSegment_uploadMore hserves ht hup hlen)
  · exact next_of_eq rfl (doSdoSegment_uploadEnd hserves ht hup hlen hquiet)
  · exact next_of_eq rfl (doSdoSegment_downloadMore hserves ht hup)
  · exact next_of_eq rfl (doSdoSegment_downloadEnd hserves ht hup)
  · exact next_of_eq rfl (doSdoSegmentTimeout_aborts hserves ht)
  · exact next_of_eq rfl (doCanHeartbeat_of_on hserves hon)

/-! ### The ends of admission and of an image write -/

/-- Setting a list of values leaves all of the state but the dictionary, and of it the other values. -/
theorem foldl_setVal (f : Nat → Val) (keys : List Nat) (s : State) :
    ∃ od, keys.foldl (fun (s : State) k => s.setVal k (f k)) s = { s with od := od } ∧ ∀ k, k ∉ keys → dictGet od k = s.val k := by
  induction keys generalizing s with
  | nil => exact ⟨s.od, rfl, fun _ _ => rfl⟩
  | cons j keys ih =>
    obtain ⟨od, h, hval⟩ := ih (s.setVal j (f j))
    refine ⟨od, h, fun k hk => ?_⟩
    rw [List.mem_cons, not_or] at hk
    rw [hval k hk.2, State.val_setVal, if_neg (Ne.symm hk.1)]

/-- A report of an attempt leaves all but the objects that it reports. -/
theorem reportAttempt_od (s : State) (figs : List (Nat × Nat)) (f : Option Failure) (trial counted : Bool) :
    ∃ od, s.reportAttempt figs f trial counted = { s with od := od } ∧
      ∀ k, k ∉ figureKeys → k ≠ objKey 0x2000 0x01 → dictGet od k = s.val k := by
  obtain ⟨od, h, hval⟩ := foldl_setVal (fun k => .num (Nat.min ((mapGet figs k).getD 0) (2 ^ 32 - 1))) figureKeys s
  simp only [State.reportAttempt, h]
  refine ⟨_, rfl, fun k hk h1 => ?_⟩
  rw [dictGet_dictSet, if_neg (Ne.symm h1), hval k hk]

theorem doAdmissionComplete_trial {s : State} {d : Dict} {rest : List Admission} (hdead : s.power.dead = false)
    (h : s.control.admission = .trial d :: rest) : doAdmissionComplete s =
      ({ s with control := { s.control with admission := rest } } : State).reportAttempt (s.admitRun d).1 (s.admitRun d).2 true true := by
  simp only [doAdmissionComplete, hdead, h, Bool.false_eq_true, if_false]

theorem doAdmissionComplete_commit {s : State} {v : Via} {w : Bool} {d : Dict} {rest : List Admission} (hdead : s.power.dead = false)
    (h : s.control.admission = .commit v w d :: rest) : doAdmissionComplete s = s.commitEnds v w d := by
  simp only [doAdmissionComplete, hdead, h, Bool.false_eq_true, if_false]

/-- The slot that an image write takes is marked invalid, and the write is under way. -/
theorem beginImageWrite_control (s : State) (values : Dict) (seq : Nat) : ∃ b : Bool, (s.beginImageWrite values seq).control =
    { (if b then { s.control with slotB := none } else { s.control with slotA := none }) with
      writing := some (b, ⟨seq, values, false, List.replicate 64 0⟩) } := ⟨_, rfl⟩

/-- What the pending commit, its image write and the converters change of control memory. -/
theorem pendCommit_control (s : State) (values : Dict) :
    let seq := (s.num 0x1200 0x03 + 1) % 2 ^ 32
    let c := (s.pendCommit values).control
    c.holder = s.control.holder ∧ c.draft = s.control.draft ∧ c.admission = s.control.admission ∧
      c.pending = some ⟨values, seq, s.cyc + 2000000, true, true⟩ ∧
      ∃ b, c.writing = some (b, ⟨seq, values, false, List.replicate 64 0⟩) := by
  intro seq c
  let s' : State := { s with control := { s.control with pending := some ⟨values, seq, s.cyc + 2000000, true, true⟩ } }
  obtain ⟨b, hb⟩ := beginImageWrite_control s'.reportDraft values seq
  have hc : c = (s'.reportDraft.beginImageWrite values seq).control := rfl
  rw [hc, hb]
  cases b <;> exact ⟨rfl, rfl, rfl, rfl, _, rfl⟩

theorem pendCommit_out (s : State) (values : Dict) : (s.pendCommit values).out = s.out := rfl

section
variable {s : State} {v : Via} {w : Bool} {d : Dict} {rest : List Admission} (hmode : s.mode ≠ 7)
  (hadm : s.control.admission = .commit v w d :: rest)
include hmode hadm

/-- A refused commit is answered ADMISSION_FAILED; draft and holder stay. -/
theorem commitEnds_refused (hfail : (s.admitRun d).2.isSome = true) :
    ∃ u : State, s.commitEnds v w d = u.answerCommit v w 8 ∧ u.control = { s.control with admission := rest } ∧ u.out = s.out := by
  obtain ⟨od, hreport, hkept⟩ := reportAttempt_od { s with control := { s.control with admission := s.control.admission.drop 1 } }
    (s.admitRun d).1 (s.admitRun d).2 false true
  obtain ⟨e, he⟩ := Option.isSome_iff_exists.mp hfail
  have hmode' : State.mode { s with control := { s.control with admission := s.control.admission.drop 1 }, od := od } ≠ 7 := by
    rwa [show State.mode _ = s.mode from congrArg Val.toNat (hkept (objKey 0x1300 0x02) (by decide) (by decide))]
  refine ⟨State.reportDraft { s with od := od, control := { s.control with admission := s.control.admission.drop 1 } }, ?_, ?_, ?_⟩
  · rw [he] at hreport
    simp only [State.commitEnds, he, hreport, beq_iff_eq, hmode', if_false]
  · simp only [reportDraft_control, hadm, List.drop_succ_cons, List.drop_zero]
  · rfl

/-- An admitted commit takes the sequence N + 1, its draft is released, and it is answered OK. -/
theorem commitEnds_admitted (hok : (s.admitRun d).2 = none) (hheld : s.control.holder = some (viaClient v)) :
    ∃ (u : State) (b : Bool), s.commitEnds v w d = (u.answerCommit v w 0).takeOrWait ∧
      u.control.holder = none ∧ u.control.draft = [] ∧ u.control.admission = rest ∧ u.out = s.out ∧
      u.control.pending = some ⟨d, (s.num 0x1200 0x03 + 1) % 2 ^ 32, s.cyc + 2000000, true, true⟩ ∧
      u.control.writing = some (b, ⟨(s.num 0x1200 0x03 + 1) % 2 ^ 32, d, false, List.replicate 64 0⟩) := by
  obtain ⟨od, hreport, hkept⟩ := reportAttempt_od { s with control := { s.control with admission := s.control.admission.drop 1 } }
    (s.admitRun d).1 (s.admitRun d).2 false true
  have hmode' : State.mode { s with control := { s.control with admission := s.control.admission.drop 1 }, od := od } ≠ 7 := by
    rwa [show State.mode _ = s.mode from congrArg Val.toNat (hkept (objKey 0x1300 0x02) (by decide) (by decide))]
  let s' : State := { s with od := od, control := { s.control with admission := s.control.admission.drop 1, holder := none, draft := [] } }
  have hseq : s'.num 0x1200 0x03 = s.num 0x1200 0x03 :=
    congrArg Val.toNat (hkept (objKey 0x1200 0x03) (by decide) (by decide))
  obtain ⟨hholder, hdraft, hadm', hpending, b, hwriting⟩ := pendCommit_control s' d
  rw [hseq] at hpending hwriting
  refine ⟨s'.pendCommit d, b, ?_, hholder, hdraft, ?_, rfl, hpending, hwriting⟩
  · rw [hok] at hreport
    simp only [State.commitEnds, hok, hreport]
    refine (if_neg fun h => hmode' (beq_iff_eq.mp h)).trans ?_
    simp only [hheld, beq_self_eq_true, if_true]
    rfl
  · rw [hadm']
    simp only [s', hadm, List.drop_succ_cons, List.drop_zero]

end

theorem doImageWriteComplete_failed {s : State} {m : Bool × Image} (hdead : s.power.dead = false) (hw : s.control.writing = some m) :
    doImageWriteComplete false s =
      (({ s with control := { s.control with writing := none } } : State).put 0x1200 0x05 2).issueOpen 0x3B 0x27 0 := by
  simp only [doImageWriteComplete, hdead, hw, Bool.false_eq_true, if_false]

/-- A written image stands valid in its slot, which is in force. -/
theorem doImageWriteComplete_valid {s : State} {m : Bool × Image} (hdead : s.power.dead = false) (hw : s.control.writing = some m) :
    ∃ u : State, doImageWriteComplete true s = u.put 0x1200 0x05 0 ∧ u.control.writing = none ∧ u.control.inForceSlot = some m.1 ∧
      (if m.1 then u.control.slotB else u.control.slotA) = some m.2 := by
  obtain ⟨slot, image⟩ := m
  refine ⟨_, by simp only [doImageWriteComplete, hdead, hw, Bool.false_eq_true, if_false, if_true]; rfl, ?_⟩
  cases slot <;> exact ⟨rfl, rfl, rfl⟩

theorem activateRow : ∃ o, findObj 0x1210 0x11 = .row o ∧ o.wr = some 2 ∧ (o.draft || (0x1210 == 0x1200 && 0x11 == 0x11)) = false ∧
    blockOnly o [(1 : Byte)].length = false ∧ lengthOk o.ty [(1 : Byte)].length = true ∧ inRange o (ofWire o.ty [1]) = true ∧
    o.live = false := ⟨_, rfl, by decide⟩

/-- Settles O37. -/
theorem admissionAndImagesEnd : Obligations.AdmissionAndImagesEnd := by
  unfold Obligations.AdmissionAndImagesEnd
  intro s v level w d rest m c hdead
  refine ⟨fun hadm => ?_, fun hadm hmode hfail => ?_, fun hadm hmode hok hheld => ?_, fun hw => ⟨?_, ?_⟩, fun hr hlevel hmode => ?_⟩
  · obtain ⟨od, hreport, -⟩ := reportAttempt_od { s with control := { s.control with admission := rest } } (s.admitRun d).1
      (s.admitRun d).2 true true
    exact ⟨_, next_of_eq rfl ((doAdmissionComplete_trial hdead hadm).trans hreport), rfl, rfl⟩
  · obtain ⟨u, hends, hcontrol, hout⟩ := commitEnds_refused hmode hadm hfail
    exact ⟨u, _, next_of_eq rfl ((doAdmissionComplete_commit hdead hadm).trans hends), rfl, hcontrol, hout⟩
  · obtain ⟨u, b, hends, h⟩ := commitEnds_admitted hmode hadm hok hheld
    obtain ⟨hholder, hdraft, hadm', hout, hpending, hwriting⟩ := h
    exact ⟨u, _, b, next_of_eq rfl ((doAdmissionComplete_commit hdead hadm).trans hends), rfl, hholder, hdraft, hadm', hout, hpending, hwriting⟩
  · obtain ⟨u, hvalid, hwriting, hslot, himage⟩ := doImageWriteComplete_valid hdead hw
    exact ⟨_, next_of_eq rfl hvalid, (State.num_put u 0x1200 0x05 0 0x1200 0x05).trans (if_pos rfl), hwriting, hslot, himage⟩
  · let u : State := { s with control := { s.control with writing := none } }
    obtain ⟨hrec, -⟩ := records_issueOpen (u.put 0x1200 0x05 2) 0x3B 0x27 0 (by decide)
    refine ⟨_, next_of_eq rfl (doImageWriteComplete_failed hdead hw), ?_, ?_⟩
    · exact (recorded_num hrec 0x1200 0x05 (by decide)).trans (by simp)
    · rw [State.settle_control]
      obtain ⟨free, streams, od, dram, ht, -⟩ := hrec
      rw [ht]
      exact ⟨rfl, rfl, rfl⟩
  · obtain ⟨o, hf, hwr, hdraft, hblock, hn, hi, hlive⟩ := activateRow
    refine does_write (o := o) (l := 2) rfl hr hf hwr hlevel (.inl hmode) hdraft hblock hn hi (fun c => ?_)
    have hdraft' : o.draft = false := by simpa using hdraft
    simp only [State.writeAct, hlive, hdraft', Bool.false_eq_true, if_false]
    rfl

end Sys2Proof.Machine

/-! What the operations of routes, captures, cores and memory leave alone (support), and the entry into SAFE (R422, R462). -/

namespace Sys2Proof.Machine

open Sys2Proof Sys2Proof.Safety

/-! ### The frame -/

/-- The objects below OD 1600, among them those of the mode, the core supply and the clocks, and the fault objects of OD 1700. -/
@[reducible] def statusKey (k : Nat) : Prop := k < objKey 0x1600 0 ∨ k / 256 = 0x1700

/-- State t keeps what left the ports, the outputs, control memory, the power state but for the blocks whose gates stay open, the
launches of both routes and the status objects of s. -/
def Quiet (s t : State) : Prop :=
  t.out = s.out ∧ t.pins = s.pins ∧ t.control = s.control ∧ t.power = { s.power with gatesOpen := t.power.gatesOpen } ∧
  (∀ r, (t.route r).optics.launching = (s.route r).optics.launching) ∧ ∀ k, statusKey k → t.val k = s.val k

theorem quiet_refl (s : State) : Quiet s s := ⟨rfl, rfl, rfl, rfl, fun _ => rfl, fun _ _ => rfl⟩

theorem quiet_trans {s t u : State} (h : Quiet s t) (h' : Quiet t u) : Quiet s u := by
  obtain ⟨hout, hpins, hcontrol, hpower, hlaunch, hval⟩ := h
  obtain ⟨hout', hpins', hcontrol', hpower', hlaunch', hval'⟩ := h'
  refine ⟨hout'.trans hout, hpins'.trans hpins, hcontrol'.trans hcontrol, ?_, fun r => (hlaunch' r).trans (hlaunch r),
    fun k hk => (hval' k hk).trans (hval k hk)⟩
  rw [hpower] at hpower'
  exact hpower'

theorem quiet_foldl {α : Type} {f : State → α → State} (h : ∀ s x, Quiet s (f s x)) (l : List α) (s : State) : Quiet s (l.foldl f s) := by
  induction l generalizing s with
  | nil => exact quiet_refl s
  | cons x l ih => exact quiet_trans (h s x) (ih (f s x))

theorem quiet_ite {s t u : State} {c : Prop} [Decidable c] (ht : Quiet s t) (hu : Quiet s u) : Quiet s (if c then t else u) := by
  split
  · exact ht
  · exact hu

theorem quiet_setVal (s : State) {k : Nat} (v : Val) (h : ¬ statusKey k) : Quiet s (s.setVal k v) := by
  refine ⟨rfl, rfl, rfl, rfl, fun r => by cases r <;> rfl, fun j hj => ?_⟩
  rw [State.val_setVal, if_neg]
  rintro rfl
  exact h hj

theorem quiet_put (s : State) {i j : Nat} (n : Nat) (h : ¬ statusKey (objKey i j)) : Quiet s (s.put i j n) := quiet_setVal s _ h

theorem quiet_bump (s : State) {i j : Nat} (n : Nat) (h : ¬ statusKey (objKey i j)) : Quiet s (s.bump i j n) := quiet_put s _ h

theorem quiet_modRoute (s : State) (r : Route) {f : RouteState → RouteState} (h : ∀ x, (f x).optics.launching = x.optics.launching) :
    Quiet s (s.modRoute r f) := by
  refine ⟨by cases r <;> rfl, by cases r <;> rfl, by cases r <;> rfl, by cases r <;> rfl, fun q => ?_, fun k _ => by cases r <;> rfl⟩
  cases r <;> cases q <;> first | exact h _ | rfl

/-- Records change nothing of this. -/
theorem quiet_recorded {s t : State} (h : Recorded s t) : Quiet s t := by
  obtain ⟨free, streams, od, dram, rfl, hod, -⟩ := h
  refine ⟨rfl, rfl, rfl, rfl, fun r => by cases r <;> rfl, fun k hk => hod k (fun hrec => ?_)⟩
  revert hk
  revert k
  simp only [recordKeys, List.forall_mem_cons, statusKey]
  decide

theorem quiet_requested {s t : State} (h : Requested s t) : Quiet s t := quiet_recorded (recorded_requested h)

theorem val_put_of_ne {s : State} {i j n k : Nat} (h : objKey i j ≠ k) : (s.put i j n).val k = s.val k :=
  (State.val_setVal ..).trans (if_neg h)

/-! ### Records of any type -/

theorem recorded_logRecord_any (s : State) (e : EventRec) : Recorded s (s.logRecord e) := by
  cases h : isLogged e.type with
  | true => exact (recorded_logRecord s e h).1
  | false =>
    simp only [State.logRecord, h, Bool.false_eq_true, if_false]
    exact recorded_refl s

theorem recorded_issueRec (s : State) (e : EventRec) : Recorded s (s.issueRec e) :=
  recorded_trans (recorded_logRecord_any s _) (recorded_gather _ _).1

theorem recorded_issueAt (s : State) (type source route position : Nat) (value aux : Int) (cmask : Nat) :
    Recorded s (s.issueAt type source route position value aux cmask) := by
  unfold State.issueAt
  split
  · exact recorded_streams s _
  · exact recorded_issueRec s _

theorem recorded_issue (s : State) (type source : Nat) (value aux : Int) : Recorded s (s.issue type source value aux) :=
  recorded_issueAt ..

theorem recorded_issueOpen (s : State) (type source : Nat) (aux : Int) : Recorded s (s.issueOpen type source aux) :=
  recorded_trans (recorded_draw s) (recorded_issue ..)

theorem recorded_issueOpenAt (s : State) (type source route position : Nat) : Recorded s (s.issueOpenAt type source route position) :=
  recorded_trans (recorded_trans (recorded_draw s) (recorded_draw _)) (recorded_issueAt ..)

/-! ### Captures -/

theorem capKey_quiet (k : Fin 8) {sub : Nat} (h : sub < 256) : ¬ statusKey (objKey (capIdx k) sub) := by
  simp only [statusKey, objKey, capIdx]
  omega

theorem quiet_setSlot (s : State) (k : Fin 8) (x : CapSlot) : Quiet s (s.setSlot k x) :=
  ⟨rfl, rfl, rfl, rfl, fun r => by cases r <;> rfl, fun _ _ => rfl⟩

theorem quiet_slotState (s : State) (k : Fin 8) (n : Nat) : Quiet s (s.slotState k n) := quiet_put s n (capKey_quiet k (by decide))

theorem quiet_requestLineCopy (s : State) (k : Fin 8) (c : Capture) : Quiet s (s.requestLineCopy k c) := by
  unfold State.requestLineCopy
  have hcopy : ∀ a b n, Quiet s (s.requestCopy k c.route a b n) := fun _ _ _ => quiet_requested (requested_requestSpan ..)
  exact quiet_ite (quiet_trans (hcopy ..) (quiet_requested (requested_requestLocal ..))) (hcopy ..)

theorem quiet_readLine (s : State) (c : Capture) (n : Nat) : Quiet s (s.readLine c n).2 := by
  unfold State.readLine
  cases mapGet (s.route c.route).comb.lines n with
  | none => exact quiet_refl s
  | some l =>
    simp only
    split
    · exact quiet_refl s
    · exact ⟨rfl, rfl, rfl, rfl, fun r => by cases r <;> rfl, fun _ _ => rfl⟩

theorem quiet_readLines (k : Fin 8) (n : Nat) (s : State) (c : Capture) : Quiet s (s.readLines k n c).2 := by
  induction n generalizing s c with
  | zero => exact quiet_refl s
  | succ n ih =>
    unfold State.readLines
    split
    · exact quiet_refl s
    · exact quiet_trans (quiet_trans (quiet_requestLineCopy s k c) (quiet_readLine ..)) (ih ..)

theorem quiet_catchUp (s : State) (k : Fin 8) : Quiet s (s.catchUp k) := by
  unfold State.catchUp
  cases (s.capture.get k).copying with
  | none => exact quiet_refl s
  | some c =>
    exact quiet_ite (quiet_refl s) (quiet_trans (quiet_readLines ..) (quiet_setSlot ..))

theorem streamKey_quiet {n sub : Nat} (h : n < 16) (hs : sub < 256) : ¬ statusKey (objKey (streamIdx n) sub) := by
  simp only [statusKey, objKey, streamIdx]
  omega

theorem quiet_streams (s : State) (x : Streams) : Quiet s { s with streams := x } :=
  ⟨rfl, rfl, rfl, rfl, fun r => by cases r <;> rfl, fun _ _ => rfl⟩

theorem quiet_handOver (s : State) (d : FrameDesc) (h : d.stream < 16) : Quiet s (s.handOver d).2 := by
  have hcount : ∀ (s : State) (j n : Nat), j < 256 → Quiet s (s.bump (streamIdx d.stream) j n) :=
    fun s j n hj => quiet_bump s n (streamKey_quiet h hj)
  cases hl : (s.streamLinks d.stream).isEmpty with
  | true =>
    simp only [State.handOver, hl, if_true]
    exact quiet_refl s
  | false =>
    simp only [State.handOver, hl, Bool.false_eq_true, if_false]
    refine quiet_trans (quiet_trans ?_ (quiet_streams _ _)) (quiet_requested (requested_requestFrame ..))
    exact quiet_ite (hcount _ _ _ (by decide)) (quiet_trans (quiet_trans (hcount s 0x13 _ (by decide)) (hcount _ 0x11 1 (by decide)))
      (quiet_bump _ 1 (by decide)))

theorem quiet_sendCapture (s : State) (c : Capture) (head data : Bytes) (q : Nat) : Quiet s (s.sendCapture c head data q) := by
  have hcode : ∀ plane cols, Quiet s (s.codePayload 9 plane cols data).2.2 := by
    intro plane cols
    unfold State.codePayload
    split
    · exact quiet_put s _ (streamKey_quiet (by decide) (by decide))
    · exact quiet_refl s
  unfold State.sendCapture
  have hcount : ∀ u : State, Quiet u (u.nextCount c.route 9).2 := fun u => quiet_modRoute _ _ (fun _ => rfl)
  have hcarry : ∀ u : State, Quiet u (u.takeCarry c.route 9).2 := fun u => quiet_modRoute _ _ (fun _ => rfl)
  exact quiet_trans (quiet_trans (quiet_trans (hcode _ _) (hcount _)) (hcarry _)) (quiet_handOver _ _ (show 9 < 16 by decide))

theorem quiet_endCapture (s : State) (k : Fin 8) (cut : Bool) : Quiet s (s.endCapture k cut) := by
  unfold State.endCapture
  refine quiet_trans (quiet_catchUp s k) ?_
  cases hx : ((s.catchUp k).capture.get k).copying with
  | none =>
    simp only [hx]
    exact quiet_refl _
  | some c =>
    have hcount : ∀ (s : State) (j : Nat), j < 256 → Quiet s (s.bump (capIdx k) j 1) := fun s j hj => quiet_bump s 1 (capKey_quiet k hj)
    have hdone : ∀ (p : Prop) [Decidable p] (x : CapSlot) (n : Nat) (e : EventRec),
        let u := ((s.catchUp k).draw.2.setSlot k x).bump (capIdx k) 0x22 1
        Quiet (s.catchUp k) (((if p then u else u.bump (capIdx k) 0x23 1).slotState k n).issueRec e) := fun p _ x n e =>
      quiet_trans (quiet_trans (quiet_trans (quiet_trans (quiet_trans (quiet_recorded (recorded_draw _)) (quiet_setSlot ..))
        (hcount _ 0x22 (by decide))) (quiet_ite (quiet_refl _) (hcount _ 0x23 (by decide)))) (quiet_slotState ..))
        (quiet_recorded (recorded_issueRec ..))
    simp only [hx]
    exact quiet_ite (quiet_trans (hdone _ _ _ _) (quiet_sendCapture ..)) (hdone _ _ _ _)

theorem quiet_endCaptures (s : State) (p : Capture → Bool) : Quiet s (s.endCaptures p) := by
  refine quiet_foldl (fun s k => ?_) _ s
  cases (s.capture.get k).copying with
  | none => exact quiet_refl s
  | some c => exact quiet_ite (quiet_endCapture ..) (quiet_refl s)

/-! ### Cores -/

theorem coreKey_quiet (c : Fin 8) {sub : Nat} (h : sub < 256) : ¬ statusKey (objKey (coreIdx c) sub) := by
  simp only [statusKey, objKey, coreIdx]
  omega

theorem quiet_modCore (s : State) (c : Fin 8) (f : Core → Core) : Quiet s (s.modCore c f) :=
  ⟨rfl, rfl, rfl, rfl, fun r => by cases r <;> rfl, fun _ _ => rfl⟩

theorem quiet_loadCore (s : State) (c : Fin 8) : Quiet s (s.loadCore c) := by
  have hput : ∀ (s : State) (j n : Nat), j < 256 → Quiet s (s.put (coreIdx c) j n) := fun s j n hj => quiet_put s n (coreKey_quiet c hj)
  unfold State.loadCore
  refine quiet_ite (quiet_modCore ..) ?_
  refine quiet_trans (quiet_trans (quiet_trans (quiet_trans ?_ (quiet_modCore ..)) (hput _ 0x21 0 (by decide))) (hput _ 0x2A 0 (by decide)))
    (hput _ 0x20 8 (by decide))
  exact quiet_bump s _ (coreKey_quiet c (by decide))

theorem quiet_gateCores (s : State) : Quiet s s.gateCores := by
  refine quiet_foldl (fun s c => ?_) _ s
  have hgate : Quiet s ((s.modCore c (fun x => { x with run := .gated })).put (coreIdx c) 0x20 (s.num (coreIdx c) 0x20 / 8 * 8)) :=
    quiet_trans (quiet_modCore ..) (quiet_put _ _ (coreKey_quiet c (by decide)))
  exact quiet_ite (quiet_trans hgate (quiet_loadCore ..)) hgate

/-! ### Memory channels -/

theorem quiet_modThermal (s : State) (r : Route) (f : Thermal → Thermal) : Quiet s (s.modThermal r f) := quiet_modRoute _ _ (fun _ => rfl)

theorem chKey_quiet (ch : Fin 2) {sub : Nat} (h : sub < 256) : ¬ statusKey (objKey (chIdx ch) sub) := by
  simp only [statusKey, objKey, chIdx]
  omega

theorem quiet_modDram (s : State) (ch : Fin 2) (f : Dram → Dram) : Quiet s (s.modDram ch f) :=
  ⟨rfl, rfl, rfl, rfl, fun r => by cases r <;> rfl, fun _ _ => rfl⟩

theorem quiet_loseSlot (s : State) (k : Fin 8) : Quiet s (s.loseSlot k) := by
  unfold State.loseSlot
  refine quiet_ite (quiet_refl s) ?_
  exact quiet_trans (quiet_trans (quiet_trans (quiet_setSlot ..) (quiet_slotState ..)) (quiet_bump _ _ (by decide)))
    (quiet_recorded (recorded_issueOpenAt ..))

theorem combKey_quiet (r : Route) : ¬ statusKey (objKey (at10 0x2810 r) 0x13) := by
  cases r <;> simp [statusKey, objKey, at10, routeNum]

theorem quiet_restartComb (s : State) (r : Route) (halved : Bool) : Quiet s (s.restartComb r halved) := by
  unfold State.restartComb
  refine quiet_trans (quiet_trans (quiet_trans (quiet_endCaptures ..) (quiet_foldl (fun s k => ?_) _ _)) (quiet_put _ 0 (combKey_quiet r)))
    (quiet_modRoute _ _ (fun _ => rfl))
  exact quiet_ite (quiet_setSlot ..) (quiet_refl s)

theorem quiet_rewriteCopy (s : State) (i : Fin 2) : Quiet s (s.rewriteCopy i) := by
  unfold State.rewriteCopy
  exact quiet_ite (quiet_refl s) ⟨rfl, rfl, rfl, rfl, fun r => by cases r <;> rfl, fun _ _ => rfl⟩

theorem quiet_retireChannel (s : State) (ch : Fin 2) : Quiet s (s.retireChannel ch) := by
  unfold State.retireChannel
  exact quiet_trans (quiet_trans (quiet_trans (quiet_trans (quiet_trans (quiet_trans (quiet_trans (quiet_trans (quiet_trans
    (quiet_put s 4 (chKey_quiet ch (sub := 0x10) (by decide))) (quiet_modDram ..)) (quiet_recorded (recorded_issue ..)))
    (quiet_foldl quiet_loseSlot _ _)) (quiet_restartComb ..)) (quiet_restartComb ..)) (quiet_modThermal ..))
    (quiet_modThermal ..)) (quiet_rewriteCopy ..)) (quiet_streams ..)

theorem quiet_startRetrain (s : State) : Quiet s s.startRetrain := by
  have hone : ∀ ch : Fin 2, Quiet s (((s.rewritePatterns ch).modDram ch (fun d => { d with retrainDue := false })).put (0x1610 + ch.val) 0x10 3) :=
    fun ch => quiet_trans (quiet_trans (quiet_modDram ..) (quiet_modDram ..)) (quiet_put _ 3 (chKey_quiet ch (by decide)))
  unfold State.startRetrain
  exact quiet_ite (quiet_refl s) (quiet_ite (hone 0) (quiet_ite (hone 1) (quiet_refl s)))

theorem quiet_idleRetrain (s : State) : Quiet s s.idleRetrain := by
  have hone : ∀ (s : State) (ch : Fin 2),
      Quiet s (if (s.dram.get ch).retiring && (s.dram.get ch).copied then s.retireChannel ch else s) :=
    fun s ch => quiet_ite (quiet_retireChannel ..) (quiet_refl s)
  exact quiet_ite (quiet_trans (quiet_trans (hone s 0) (hone _ 1)) (quiet_startRetrain _)) (quiet_refl s)

/-! ### Modes and tests -/

/-- The end of a BIST moves the BIST objects alone. -/
theorem endBist_kept (s : State) : s.endBist.control = s.control ∧ s.endBist.val (objKey 0x1700 0x10) = s.val (objKey 0x1700 0x10) := by
  have hput : ∀ (u : State) (j n : Nat), j ≠ 0x10 → (u.put 0x1700 j n).val (objKey 0x1700 0x10) = u.val (objKey 0x1700 0x10) :=
    fun u j n hj => val_put_of_ne (by simp only [objKey]; omega)
  unfold State.endBist
  split
  · cases s.integrity.bistLeft with
    | nil => exact ⟨rfl, hput s 0x21 2 (by decide)⟩
    | cons b _ => exact ⟨rfl, (hput _ 0x21 2 (by decide)).trans (hput s (0x30 + b) 3 (by omega))⟩
  · exact ⟨rfl, rfl⟩

theorem quiet_clearFrames (s : State) (r : Route) : Quiet s (s.clearFrames r) := quiet_modRoute _ _ (fun _ => rfl)

theorem quiet_useBlock (s : State) (g : AutoGate) : Quiet s (s.useBlock g) :=
  ⟨rfl, rfl, rfl, rfl, fun r => by cases r <;> rfl, fun _ _ => rfl⟩

theorem quiet_switchIslands (s : State) (m : Nat) : Quiet s (s.switchIslands m) := by
  have hone : ∀ (s : State) (r : Route), Quiet s
      (let s := if islandPower m .engines == .off then
          s.modRoute r (fun x => { x with fdc := Fdc.reset, ready := [], ray := { x.ray with handoff := none, updates := [] } })
        else s
      if islandPower m .drx == .off then s.modThermal r (fun t => { t with pulse := none }) else s) := by
    intro s r
    have hfirst := quiet_ite (c := (islandPower m .engines == .off) = true) (quiet_modRoute s r (f := fun x =>
      { x with fdc := Fdc.reset, ready := [], ray := { x.ray with handoff := none, updates := [] } }) (fun _ => rfl)) (quiet_refl s)
    exact quiet_ite (quiet_trans hfirst (quiet_modRoute _ _ (fun _ => rfl))) hfirst
  unfold State.switchIslands
  exact quiet_trans (quiet_trans (quiet_ite (quiet_refl s) (quiet_trans (quiet_useBlock ..) (quiet_useBlock ..))) (hone _ .a)) (hone _ .b)

/-- A change of the mode code changes, of this, the code alone. -/
theorem setMode_quiet (s : State) (m : Nat) : ∃ u, Quiet s u ∧ s.setMode m = u.put 0x1300 0x02 m :=
  ⟨_, quiet_trans (quiet_ite (quiet_endCaptures ..) (quiet_refl s)) (quiet_switchIslands ..), rfl⟩

/-! ### The entry into SAFE -/

theorem quiet_endAprPhase (s : State) (r : Route) : Quiet s (s.endAprPhase r) := by
  unfold State.endAprPhase
  exact quiet_ite (quiet_modRoute _ _ (fun _ => rfl)) (quiet_refl s)

theorem quiet_survey (s : State) (x : Survey) : Quiet s { s with survey := x } :=
  ⟨rfl, rfl, rfl, rfl, fun r => by cases r <;> rfl, fun _ _ => rfl⟩

theorem quiet_surveyFail (s : State) (cause : Nat) : Quiet s (s.surveyFail cause) := by
  unfold State.surveyFail
  refine quiet_ite ?_ (quiet_ite (quiet_refl s) (quiet_survey ..))
  exact quiet_trans (quiet_trans (quiet_trans (quiet_trans (quiet_endAprPhase s .a) (quiet_endAprPhase _ .b))
    (quiet_put _ 3 (by decide))) (quiet_put _ cause (by decide))) (quiet_survey ..)

/-- The end of the launches of a route leaves of the frame only that route's DTSP and its launches. -/
theorem dropRoute_kept (s : State) (r : Route) :
    (s.dropRoute r).control = s.control ∧ (s.dropRoute r).power = s.power ∧ (∀ k, (s.dropRoute r).val k = s.val k) ∧
      ((s.dropRoute r).route r).optics.launching = false ∧
      ∀ q, (s.route q).optics.launching = false → ((s.dropRoute r).route q).optics.launching = false := by
  refine ⟨by cases r <;> rfl, by cases r <;> rfl, fun k => by cases r <;> rfl, by cases r <;> rfl, fun q h => ?_⟩
  cases r <;> cases q <;> first | rfl | exact h

/-- Where the launches of both routes end, both are over. -/
theorem stopSensing_kept (s : State) :
    s.stopSensing.control = s.control ∧ (∀ k, statusKey k → s.stopSensing.val k = s.val k) ∧
      ∀ r, (s.stopSensing.route r).optics.launching = false := by
  obtain ⟨hcontrolA, -, hvalA, hlaunchA, -⟩ := dropRoute_kept s .a
  obtain ⟨hcontrolB, -, hvalB, hlaunchB, hotherB⟩ := dropRoute_kept (s.dropRoute .a) .b
  obtain ⟨-, -, hcontrol, -, hlaunch, hval⟩ := quiet_surveyFail ((s.dropRoute .a).dropRoute .b) 1
  refine ⟨hcontrol.trans (hcontrolB.trans hcontrolA), fun k hk => (hval k hk).trans ((hvalB k).trans (hvalA k)), fun r => (hlaunch r).trans ?_⟩
  cases r with
  | a => exact hotherB .a hlaunchA
  | b => exact hlaunchB

theorem bit_latch (bits : List Nat) (s : State) (b : Nat) (h : b ∈ bits ∨ bit (s.num 0x1700 0x10) b = true) :
    bit ((s.latch bits).num 0x1700 0x10) b = true := by
  show bit ((bits.foldl (fun s b => s.putBit 0x1700 0x10 b true) s).num 0x1700 0x10) b = true
  induction bits generalizing s with
  | nil => exact h.resolve_left List.not_mem_nil
  | cons c bits ih =>
    refine ih _ ?_
    rw [State.num_putBit, if_pos rfl, bit_setBit]
    rcases h with h | h
    · rcases List.mem_cons.mp h with rfl | h
      · exact .inr (if_pos rfl)
      · exact .inl h
    · exact .inr (by simp [h])

theorem latch_control (bits : List Nat) (s : State) : (s.latch bits).control = s.control := by
  show (bits.foldl (fun s b => s.putBit 0x1700 0x10 b true) s).control = s.control
  induction bits generalizing s with
  | nil => rfl
  | cons c bits ih => exact ih _

/-- The entry into SAFE from a mode above BRING-UP: the launches end with the causes latched, the outputs become safe, and the mode
code follows. -/
theorem enterSafe_steps (s : State) (bits : List Nat) (h : 2 ≤ s.mode) :
    ∃ u w, Quiet (s.latch bits).endBist.stopSensing u ∧
      Quiet { u.assertSafe with power := { u.assertSafe.power with transition := none, fromSentinel := false, awaited := none } } w ∧
      Quiet ((w.put 0x1300 0x02 7).put 0x1300 0x10 0).driveFault (s.enterSafe bits) := by
  have h0 : (s.mode == 0) = false := beq_false_of_ne (by omega)
  have h1 : (s.mode == 1) = false := beq_false_of_ne (by omega)
  simp only [State.enterSafe, h0, h1, Bool.false_eq_true, if_false]
  refine ⟨_, _, quiet_trans (quiet_trans (quiet_gateCores _) (quiet_clearFrames _ .a)) (quiet_clearFrames _ .b), ?_, quiet_idleRetrain _⟩
  exact quiet_trans (quiet_streams _ _) (quiet_trans (quiet_ite (quiet_endCaptures ..) (quiet_refl _)) (quiet_switchIslands ..))

theorem driveFault_val (s : State) (k : Nat) : s.driveFault.val k = s.val k := rfl

theorem safeOutputs_driveFault {s : State} (h : SafeOutputs s.pins) : SafeOutputs s.driveFault.pins := h

/-- Settles O42. -/
theorem safeEntryEndsLaunches : Obligations.SafeEntryEndsLaunches := by
  unfold Obligations.SafeEntryEndsLaunches
  intro s bits hmode t
  obtain ⟨u, w, hu, hw, ht⟩ := enterSafe_steps s bits hmode
  obtain ⟨hcontrolB, hvalB⟩ := endBist_kept (s.latch bits)
  obtain ⟨hcontrolS, hvalS, hlaunchS⟩ := stopSensing_kept (s.latch bits).endBist
  obtain ⟨-, -, hcontrolU, -, hlaunchU, hvalU⟩ := hu
  obtain ⟨-, hpinsW, hcontrolW, hpowerW, hlaunchW, hvalW⟩ := hw
  obtain ⟨-, hpinsT, hcontrolT, hpowerT, hlaunchT, hvalT⟩ := ht
  have hlaunch : ∀ r, (t.route r).optics.launching = false := fun r =>
    calc (t.route r).optics.launching = (w.route r).optics.launching := (hlaunchT r).trans (by cases r <;> rfl)
      _ = (u.route r).optics.launching := (hlaunchW r).trans (by cases r <;> rfl)
      _ = false := (hlaunchU r).trans (hlaunchS r)
  refine ⟨?_, ?_, ?_, ?_, hlaunch .a, hlaunch .b, ?_, fun b hb => ?_⟩
  · calc t.mode = ((w.put 0x1300 0x02 7).put 0x1300 0x10 0).driveFault.num 0x1300 0x02 :=
          congrArg Val.toNat (hvalT (objKey 0x1300 0x02) (by decide))
      _ = ((w.put 0x1300 0x02 7).put 0x1300 0x10 0).num 0x1300 0x02 := rfl
      _ = 7 := by simp [objKey]
  · exact (congrArg Power.safeRequest hpowerT).trans (congrArg Power.safeRequest hpowerW)
  · have hpins : w.pins = safePins u.pins := hpinsW
    have hsafe : SafeOutputs ((w.put 0x1300 0x02 7).put 0x1300 0x10 0).pins := by
      rw [State.put_pins, State.put_pins, hpins]
      exact safeOutputs_safePins u.pins
    rw [hpinsT]
    exact safeOutputs_driveFault hsafe
  · exact (congrArg Power.transition hpowerT).trans (congrArg Power.transition hpowerW)
  · calc t.control = w.control := hcontrolT
      _ = u.control := hcontrolW
      _ = s.control := hcontrolU.trans (hcontrolS.trans (hcontrolB.trans (latch_control bits s)))
  · have hk : statusKey (objKey 0x1700 0x10) := by decide
    have hlatch : t.num 0x1700 0x10 = (s.latch bits).num 0x1700 0x10 :=
      calc t.num 0x1700 0x10 = w.num 0x1700 0x10 := congrArg Val.toNat ((hvalT _ hk).trans
            ((driveFault_val _ _).trans ((val_put_of_ne (by decide)).trans (val_put_of_ne (by decide)))))
        _ = u.num 0x1700 0x10 := congrArg Val.toNat (hvalW _ hk)
        _ = (s.latch bits).num 0x1700 0x10 := congrArg Val.toNat ((hvalU _ hk).trans ((hvalS _ hk).trans hvalB))
    rw [hlatch]
    exact bit_latch bits s b (.inl hb)

end Sys2Proof.Machine

/-! Resets, HIBERNATE and wakes (R435, R442, R472). -/

namespace Sys2Proof.Machine

open Sys2Proof Sys2Proof.Safety

/-! ### What a reset leaves -/

/-- Putting a channel into self-refresh is a mark of the channel and a message. -/
theorem refreshSelf_eq (t before : State) (ch : Fin 2) : t.refreshSelf before ch =
    { t with
      dram := if before.chState ch == 2 || before.chState ch == 3 then
        t.dram.set ch { t.dram.get ch with selfRefresh := true } else t.dram
      out := t.out ++ if before.chState ch == 2 || before.chState ch == 3 then [.selfRefresh ch true] else [] } := by
  unfold State.refreshSelf
  split
  · rfl
  · simp

theorem resetTo_control (s : State) (warm : Bool) (cause : Nat) :
    (s.resetTo warm cause).control = { State.reset.control with
      keyO := s.control.keyO, keyP := s.control.keyP, keyE := s.control.keyE, signKey := s.control.signKey
      slotA := s.control.slotA, slotB := s.control.slotB, fwA := s.control.fwA, fwB := s.control.fwB
      fwRunning := s.control.fwRunning, fwActivate := s.control.fwActivate, geometry := s.control.nextGeometry } := by
  simp only [State.resetTo, refreshSelf_eq]
  split_ifs <;> rfl

theorem resetTo_power (s : State) (warm : Bool) (cause : Nat) :
    (s.resetTo warm cause).power = { State.reset.power with
      vaon := s.power.vaon, supplyOk := s.power.supplyOk, resetLow := s.power.resetLow, warm := warm
      rtcSec := s.power.rtcSec, rtcSub := s.power.rtcSub, bringUpNs := s.time.cycles } := by
  simp only [State.resetTo, refreshSelf_eq]
  split_ifs <;> rfl

theorem resetTo_pins (s : State) (warm : Bool) (cause : Nat) : (s.resetTo warm cause).pins = State.reset.pins := by
  simp only [State.resetTo, refreshSelf_eq]
  split_ifs <;> rfl

theorem resetTo_cores (s : State) (warm : Bool) (cause : Nat) : (s.resetTo warm cause).cores = State.reset.cores := by
  simp only [State.resetTo, refreshSelf_eq]
  split_ifs <;> rfl

theorem resetTo_authority (s : State) (warm : Bool) (cause : Nat) :
    (s.resetTo warm cause).arbiter.holder = s.arbiter.holder ∧ (s.resetTo warm cause).arbiter.epoch = s.arbiter.epoch := by
  simp only [State.resetTo, refreshSelf_eq]
  split_ifs <;> exact ⟨rfl, rfl⟩

/-- The channels that were in service. -/
def State.served (s : State) : List (Fin 2) := ([0, 1] : List (Fin 2)).filter (fun ch => s.chState ch == 2 || s.chState ch == 3)

theorem served_messages (s : State) : s.served.map (fun ch => OutMsg.selfRefresh ch true) =
    (if s.chState 0 == 2 || s.chState 0 == 3 then [.selfRefresh 0 true] else []) ++
      if s.chState 1 == 2 || s.chState 1 == 3 then [.selfRefresh 1 true] else [] := by
  unfold State.served
  cases h0 : (s.chState 0 == 2 || s.chState 0 == 3) <;> cases h1 : (s.chState 1 == 2 || s.chState 1 == 3) <;>
    simp only [List.filter_cons, h0, h1, Bool.false_eq_true, if_true, if_false] <;> rfl

/-- A warm reset with the memory geometry unchanged puts the channels in service into self-refresh. -/
theorem resetTo_out (s : State) (warm : Bool) (cause : Nat) :
    (s.resetTo warm cause).out = s.out ++
      (if warm && s.control.nextGeometry == s.control.geometry then s.served.map (fun ch => .selfRefresh ch true) else []) := by
  rw [served_messages]
  simp only [State.resetTo, refreshSelf_eq]
  split_ifs <;> simp

theorem resetTo_warm_kept (s : State) (cause : Nat) (h : s.control.nextGeometry = s.control.geometry) :
    (s.resetTo true cause).streams.log = s.streams.log ∧
      ∀ ch, ((s.resetTo true cause).dram.get ch).training = (s.dram.get ch).training := by
  have hmark : ∀ (d : Vector Dram 2) (c ch : Fin 2) (p : Prop) [Decidable p],
      ((if p then d.set c { d.get c with selfRefresh := true } else d).get ch).training = (d.get ch).training := by
    intro d c ch p _
    split
    · rw [vget_set]
      split
      · next h => rw [show c = ch from Fin.ext h]
      · rfl
    · rfl
  have hkept : ∀ ch, ((s.dram.map keptDram).get ch).training = (s.dram.get ch).training := by
    intro ch
    have hmap : (s.dram.map keptDram).get ch = keptDram (s.dram.get ch) := Vector.getElem_map ..
    rw [hmap]
    rfl
  simp only [State.resetTo, refreshSelf_eq, Bool.true_and, h, beq_self_eq_true, if_true]
  refine ⟨by split_ifs <;> rfl, fun ch => ?_⟩
  exact (hmark _ 1 ch _).trans ((hmark _ 0 ch _).trans (hkept ch))

theorem resetTo_cold_log (s : State) (cause : Nat) : (s.resetTo false cause).streams.log = [] := by
  simp only [State.resetTo, Bool.false_and, Bool.false_eq_true, if_false]
  split_ifs <;> rfl

/-- The objects that a reset sets beside those it keeps. -/
def resetKeys : List Nat := [objKey 0x1700 0x51, objKey 0x2800 0x11, objKey 0x5000 0x01, objKey 0x5000 0x02]

theorem resetTo_val (s : State) (warm : Bool) (cause : Nat) {k : Nat} (hk : k ∉ resetKeys) :
    (s.resetTo warm cause).val k = dictGet (keptObjects s cause) k := by
  simp only [resetKeys, List.mem_cons, List.not_mem_nil, or_false, not_or] at hk
  obtain ⟨hotp, hlost, hcount, hfirst⟩ := hk
  simp only [State.resetTo, refreshSelf_eq]
  split_ifs <;> simp [State.val, State.bump, State.put, State.setVal, Ne.symm hotp, Ne.symm hlost, Ne.symm hcount, Ne.symm hfirst]

theorem keptObjects_cause (s : State) (cause : Nat) : dictGet (keptObjects s cause) (objKey 0x1300 0x11) = .num cause := by
  simp [keptObjects]

theorem keptObjects_mode (s : State) (cause : Nat) : dictGet (keptObjects s cause) (objKey 0x1300 0x02) = .num 1 := by
  have hreset : dictGet State.reset.od (objKey 0x1300 0x02) = .num 1 := by decide
  simp only [keptObjects, List.foldl_cons, List.foldl_nil]
  split_ifs <;> simpa [objKey] using hreset

theorem resetTo_num_cause (s : State) (warm : Bool) (cause : Nat) : (s.resetTo warm cause).num 0x1300 0x11 = cause :=
  congrArg Val.toNat ((resetTo_val s warm cause (by decide)).trans (keptObjects_cause s cause))

theorem resetTo_mode (s : State) (warm : Bool) (cause : Nat) : (s.resetTo warm cause).mode = 1 :=
  congrArg Val.toNat ((resetTo_val s warm cause (by decide)).trans (keptObjects_mode s cause))

theorem safeOutputs_reset : SafeOutputs State.reset.pins := by
  unfold SafeOutputs
  decide

/-! ### The outputs that no cause drives -/

theorem safePins_pwrEn (p : Pins) : (safePins p).pwrEn = p.pwrEn := rfl

theorem routeSafePins_pwrEn (r : Route) (p : Pins) : (routeSafePins r p).pwrEn = p.pwrEn := by cases r <;> rfl

theorem rampPins_pwrEn (s : State) (r : Route) (p : Pins) : (s.rampPins r p).pwrEn = p.pwrEn := by
  simp only [State.rampPins]
  split <;> rfl

theorem settle_pwrEn (s : State) : s.settle.pins.pwrEn = s.pins.pwrEn := by
  simp only [State.settle]
  split_ifs <;> simp only [routeSafePins_pwrEn, safePins_pwrEn, rampPins_pwrEn]

/-! ### Wakes (R442) -/

/-- A wake starts a cold bring-up with its source in OD 1300.12. -/
theorem wakeUp_woken (s : State) (c : Nat) :
    (s.wakeUp c).mode = 1 ∧ (s.wakeUp c).num 0x1300 0x11 = 4 ∧ (s.wakeUp c).num 0x1300 0x12 = c ∧ (s.wakeUp c).power.fromWake = true ∧
      (s.wakeUp c).power.bringUp = some 0 ∧ (s.wakeUp c).pins.pwrEn = true := by
  have hval : ∀ k, k ≠ objKey 0x1300 0x12 → (s.wakeUp c).val k = (s.resetTo false 4).val k := fun k hk => val_put_of_ne (Ne.symm hk)
  refine ⟨?_, ?_, ?_, rfl, ?_, ?_⟩
  · exact (congrArg Val.toNat (hval (objKey 0x1300 0x02) (by decide))).trans (resetTo_mode s false 4)
  · exact (congrArg Val.toNat (hval (objKey 0x1300 0x11) (by decide))).trans (resetTo_num_cause s false 4)
  · exact (State.num_put (s.resetTo false 4) 0x1300 0x12 c 0x1300 0x12).trans (if_pos rfl)
  · show (s.resetTo false 4).power.bringUp = some 0
    rw [resetTo_power]
    rfl
  · show (s.resetTo false 4).pins.pwrEn = true
    rw [resetTo_pins]
    rfl

theorem wakeIf_hibernate {s : State} {b : Nat} (hmode : s.mode = 0) (hvaon : s.power.vaon = true) (hb : bit (s.num 0x1300 0x05) b = true) :
    s.wakeIf b = s.wakeUp (2 ^ b) := by
  simp [State.wakeIf, hmode, hvaon, hb]

theorem doWakeEdge_of_polarity {s : State} {rising : Bool} (h : rising = true ↔ s.num 0x1300 0x06 = 0) : doWakeEdge rising s = s.wakeIf 0 := by
  have hedge : (rising == (s.num 0x1300 0x06 == 0)) = true := by
    cases rising <;> simpa using h
  simp only [doWakeEdge, hedge, if_true]

theorem doRtcAlarm_hibernate {s : State} (hmode : s.mode = 0) (hvaon : s.power.vaon = true) (hb : bit (s.num 0x1300 0x05) 2 = true)
    (halarm : s.num 0x1300 0x07 ≠ 0) : doRtcAlarm s = ((s.put 0x1300 0x07 0).wakeUp 4).put 0x1300 0x07 0 := by
  have hkeep : ∀ j, j ≠ 0x07 → (s.put 0x1300 0x07 0).num 0x1300 j = s.num 0x1300 j := by
    intro j hj
    rw [State.num_put, if_neg (by simp only [objKey]; omega)]
  have hmode' : (s.put 0x1300 0x07 0).mode = 0 := (hkeep 0x02 (by decide)).trans hmode
  have hwake : (s.put 0x1300 0x07 0).wakeIf 2 = (s.put 0x1300 0x07 0).wakeUp 4 :=
    wakeIf_hibernate hmode' hvaon (by rwa [hkeep 0x05 (by decide)])
  simp [doRtcAlarm, halarm, hmode, hb, hwake]

/-! ### HIBERNATE (R442) -/

theorem hibernate_off {s : State} (h : s.power.wakeKept = 0) :
    s.hibernate.mode = 0 ∧ s.hibernate.pins.pwrEn = false ∧ s.hibernate.control.sessions = [] := by
  have hkept : (s.power.wakeKept != 0) = false := by simp [h]
  simp only [State.hibernate, hkept, Bool.false_eq_true, if_false, List.foldl_cons, List.foldl_nil]
  refine ⟨?_, rfl, ?_⟩
  · exact congrArg Val.toNat ((driveFault_val _ _).trans ((val_put_of_ne (by decide)).trans ((State.val_setVal ..).trans (if_pos rfl))))
  · refine (congrArg Control.sessions (resetTo_control { s with power := _ } false _)).trans rfl

/-! ### Power -/

theorem doPowerOn_num_cause (s : State) : (doPowerOn s).num 0x1300 0x11 = 0 := by
  show (dictGet (dictSet State.reset.od (objKey 0x1300 0x11) (.num 0)) (objKey 0x1300 0x11)).toNat = 0
  rw [dictGet_dictSet, if_pos rfl]
  rfl

/-- The keys and the stored images are those of flash and the key store. -/
theorem resetTo_stored (s : State) (warm : Bool) (cause : Nat) :
    (s.resetTo warm cause).control.keyE = s.control.keyE ∧ (s.resetTo warm cause).control.slotA = s.control.slotA := by
  rw [resetTo_control]
  exact ⟨rfl, rfl⟩

theorem resetRow : ∃ o, findObj 0x1300 0x09 = .row o ∧ o.wr = some 2 ∧ (o.draft || (0x1300 == 0x1200 && 0x09 == 0x11)) = false ∧
    o.live = false ∧ (∀ b : Byte, blockOnly o [b].length = false) ∧ (∀ b : Byte, lengthOk o.ty [b].length = true) ∧
    (∀ b ∈ [(1 : Byte), 2], inRange o (ofWire o.ty [b]) = true) ∧ ∀ b ∈ [(1 : Byte), 2], (ofWire o.ty [b]).toNat = b.toNat :=
  ⟨_, rfl, by decide, by decide, by decide, fun _ => rfl, fun _ => rfl, by decide, by decide⟩

/-- A write of OD 1300.09 is answered, then the reset follows. -/
theorem does_resetRequest {i : Instr} {s : State} {v : Via} {level : Nat} {b : Byte} (hb : b ∈ [(1 : Byte), 2])
    (hx : exec i s = .next (s.viaWrite v none 0x1300 0x09 [b]).settle) (hr : Reaches s v level 0x1300 0x09 [b]) (hl : 2 ≤ level)
    (hm : s.mode ≠ 7) : Does i s (Opened v s) (fun t => t.resetTo (b.toNat == 1) (if b.toNat == 1 then 3 else 2)) := by
  obtain ⟨o, hf, hwr, hdraft, hlive, hblock, hlen, hrange, hval⟩ := resetRow
  refine does_write hx hr hf hwr hl (.inl hm) hdraft (hblock b) (hlen b) (hrange b hb) (fun c => ?_)
  have hdraft' : o.draft = false := by simpa using hdraft
  simp only [State.writeAct, hlive, hdraft', Bool.false_eq_true, if_false, State.unitWrite, resetRequest, Reply.acted, hval b hb]
  rfl

/-- Settles O39. -/
theorem resetsKeepWhatTheirKindKeeps : Obligations.ResetsKeepWhatTheirKindKeeps := by
  unfold Obligations.ResetsKeepWhatTheirKindKeeps
  intro s v level cause warm rising
  refine ⟨fun hr hl hm => ?_, fun hr hl hm => ?_, ?_, fun hvaon => ?_, ?_, ?_, hibernate_off, ?_⟩
  · exact does_resetRequest (b := 1) (by decide) rfl hr hl hm
  · exact does_resetRequest (b := 2) (by decide) rfl hr hl hm
  · obtain ⟨hholder, hepoch⟩ := resetTo_authority s warm cause
    have hcontrol := resetTo_control s warm cause
    have hpower := resetTo_power s warm cause
    have hpins := resetTo_pins s warm cause
    refine ⟨resetTo_mode s warm cause, resetTo_num_cause s warm cause, by rw [hpins]; exact safeOutputs_reset, by rw [hpins]; rfl,
      by rw [hpower]; rfl, by rw [hpower]; rfl, by rw [hcontrol]; rfl, by rw [hcontrol]; rfl, by rw [hcontrol], by rw [hcontrol],
      by rw [hcontrol], by rw [hcontrol], hholder, hepoch, by rw [hpower], resetTo_cores s warm cause, resetTo_out s warm cause, ?_, ?_⟩
    · rintro rfl hgeometry
      exact resetTo_warm_kept s cause hgeometry
    · rintro rfl
      exact resetTo_cold_log s cause
  · have hdo : doResetN s = { s.resetTo false (if s.power.supplyOk then 1 else 5) with
        power := { (s.resetTo false (if s.power.supplyOk then 1 else 5)).power with resetLow := true } } := by
      simp only [doResetN, hvaon, Bool.not_true, Bool.false_eq_true, if_false]
    refine ⟨_, next_of_eq rfl hdo, rfl, ?_, ?_, ?_, ?_⟩
    · exact resetTo_mode s false _
    · exact resetTo_num_cause s false _
    · exact (resetTo_stored s false _).2
    · exact (resetTo_authority s false _).1
  · refine ⟨_, rfl, rfl, rfl, ?_, ?_, ?_, ?_⟩
    · exact doPowerOn_num_cause s
    · exact (resetTo_stored s false 0).1
    · exact (resetTo_stored s false 0).2
    · exact resetTo_cold_log s 0
  · exact ⟨_, rfl, rfl, rfl, rfl, settle_pwrEn _⟩
  · intro hmode hvaon woken
    refine ⟨?_, ?_, ?_⟩
    · intro hb hedge
      obtain ⟨h1, h2, h3, h4, h5, h6⟩ := wakeUp_woken s 1
      exact ⟨_, next_of_eq rfl ((doWakeEdge_of_polarity hedge).trans (wakeIf_hibernate hmode hvaon hb)), h1, h2, h3, h4, h5,
        (settle_pwrEn _).trans h6⟩
    · intro hb
      obtain ⟨h1, h2, h3, h4, h5, h6⟩ := wakeUp_woken s 2
      exact ⟨_, next_of_eq rfl (show doCanWake s = s.wakeUp 2 from wakeIf_hibernate hmode hvaon hb), h1, h2, h3, h4, h5,
        (settle_pwrEn _).trans h6⟩
    · intro hb halarm
      obtain ⟨h1, h2, h3, h4, h5, h6⟩ := wakeUp_woken (s.put 0x1300 0x07 0) 4
      have hkeep : ∀ (u : State) (j : Nat), j ≠ 0x07 → (u.put 0x1300 0x07 0).num 0x1300 j = u.num 0x1300 j := by
        intro u j hj
        rw [State.num_put, if_neg (by simp only [objKey]; omega)]
      exact ⟨_, next_of_eq rfl (doRtcAlarm_hibernate hmode hvaon hb halarm), (hkeep _ 0x02 (by decide)).trans h1,
        (hkeep _ 0x11 (by decide)).trans h2, (hkeep _ 0x12 (by decide)).trans h3, h4, h5, (settle_pwrEn _).trans h6⟩

end Sys2Proof.Machine

/-! Writes of the objects that act (support). Clocks: losses, locks regained and switches (R418 to R428); gates and the core supply (R429 to R434). -/

namespace Sys2Proof.Machine

open Sys2Proof Sys2Proof.Safety

/-! ### Writes of the objects that act -/

/-- The row of an object without S and L that a client of level l may write, and that the value b fits. -/
def actRow (idx sub l : Nat) (b : Bytes) : Bool :=
  match findObj idx sub with
  | .row o => o.wr == some l && !(o.draft || (idx == 0x1200 && sub == 0x11)) && !o.live && !blockOnly o b.length && lengthOk o.ty b.length &&
      inRange o (ofWire o.ty b)
  | _ => false

/-- A write is answered whatever the status that it ends with; what follows the answer follows one that was OK. -/
theorem viaWrite_acted {s u : State} {v : Via} {bist : Option Bool} {level idx sub n : Nat} {b : Bytes} {p : State → State}
    (hr : Reaches s v level idx sub b) (hp : n = 0 ∨ p = id)
    (hw : ∀ c ty block, ty = none ∨ ty = some (typeOf idx sub).code → (v = .can → block = true) →
      (Opened v s).writeObject c level v bist idx sub ty block b = ⟨some n, u, p⟩) :
    ∃ w, Answered u w ∧ s.viaWrite v bist idx sub b = p w := by
  by_cases hn : n = 0
  · subst hn
    exact viaWrite_done hr hw
  obtain rfl : p = id := hp.resolve_left hn
  cases v with
  | bdp r =>
    obtain ⟨x, ha, rfl⟩ := hr
    have hw' := hw (.session x.id) (some (typeOf idx sub).code) false (.inr rfl) (fun h => by cases h)
    refine request_refuse (op := 0x02) (k := objKey idx sub) (b := objHead idx sub (typeOf idx sub).code) (n := n) (u := u) ha hn ?_
    exact congrArg (fun a : Acted => (a.touched (objKey idx sub)).ans (objHead idx sub (typeOf idx sub).code)) hw'
  | can =>
    obtain ⟨hserves, rfl⟩ := hr
    have hw' := hw .can none true (.inl rfl) (fun _ => rfl)
    refine ⟨u.sdoAbort idx sub (abortCode n false (noAccess idx sub true)), ⟨_, u.control.sessions, u.control.cache, rfl⟩, ?_⟩
    have hl : (Opened .can s).canLevel = s.canLevel := rfl
    have hx : ({ s with control := { s.control with sdo := none } } : State) = Opened .can s := rfl
    simp only [State.viaWrite, State.canDownload, hserves, Bool.not_true, Bool.false_eq_true, if_false, hx, State.canWrite,
      swapWire_swapWire, hl, hw', Acted.touched]
    simp [hn]

/-- A write that is judged by its row and reaches the act of its object. -/
theorem does_act {i : Instr} {s u : State} {v : Via} {bist : Option Bool} {level idx sub l n : Nat} {b : Bytes} {p : State → State}
    (hx : exec i s = .next (s.viaWrite v bist idx sub b).settle) (hr : Reaches s v level idx sub b) (hrow : actRow idx sub l b = true)
    (hl : l ≤ level) (hm : s.mode ≠ 7 ∨ (idx = 0x1300 ∧ sub = 0x01) ∨ (idx = 0x1700 ∧ sub = 0x02)) (hp : n = 0 ∨ p = id)
    (ha : ∀ c, (let x := ofWire (typeOf idx sub) b
      if idx < 0x1300 then (Opened v s).controlWrite c level v idx sub x
      else if idx < 0x2000 then (Opened v s).unitWrite level bist idx sub x
      else (Opened v s).routeWrite c idx sub x) = ⟨some n, u, p⟩) : Does i s u p := by
  cases hf : findObj idx sub with
  | noObject => simp [actRow, hf] at hrow
  | noSubindex => simp [actRow, hf] at hrow
  | count k => simp [actRow, hf] at hrow
  | row o =>
    simp only [actRow, hf, Bool.and_eq_true, Bool.not_eq_true', beq_iff_eq] at hrow
    obtain ⟨⟨⟨⟨⟨hwr, hdraft⟩, hlive⟩, hblock⟩, hlen⟩, hrange⟩ := hrow
    have hplain : o.draft = false := (Bool.or_eq_false_iff.mp hdraft).1
    obtain ⟨w, hw, he⟩ := viaWrite_acted (bist := bist) (n := n) (u := u) (p := p) hr hp (by
      intro c ty block hty _
      rw [Bool.or_eq_false_iff] at hdraft
      rw [writeObject_act hf hwr hl (by rw [opened_mode]; exact hm) (by simp [State.draftRefused, hdraft.1, hdraft.2]) hblock hty hlen hrange]
      refine Eq.trans ?_ (ha c)
      simp only [State.writeAct, hlive, hplain, Bool.false_eq_true, if_false, typeOf_row hf])
    exact ⟨w, hw, by rw [hx, he]⟩

/-- A write of an acting object of the unit. -/
theorem does_unitWrite {i : Instr} {s u : State} {v : Via} {bist : Option Bool} {level idx sub l n : Nat} {b : Bytes} {p : State → State}
    (hx : exec i s = .next (s.viaWrite v bist idx sub b).settle) (hr : Reaches s v level idx sub b) (hrow : actRow idx sub l b = true)
    (hl : l ≤ level) (hm : s.mode ≠ 7 ∨ (idx = 0x1300 ∧ sub = 0x01) ∨ (idx = 0x1700 ∧ sub = 0x02)) (h1 : 0x1300 ≤ idx) (h2 : idx < 0x2000)
    (hp : n = 0 ∨ p = id)
    (ha : (Opened v s).unitWrite level bist idx sub (ofWire (typeOf idx sub) b) = ⟨some n, u, p⟩) : Does i s u p :=
  does_act hx hr hrow hl hm hp (fun _ => (if_neg (Nat.not_lt.mpr h1)).trans ((if_pos h2).trans ha))

/-- A write of an acting object of the routes, the captures, the survey or the log. -/
theorem does_routeWrite {i : Instr} {s u : State} {v : Via} {bist : Option Bool} {level idx sub l n : Nat} {b : Bytes} {p : State → State}
    (hx : exec i s = .next (s.viaWrite v bist idx sub b).settle) (hr : Reaches s v level idx sub b) (hrow : actRow idx sub l b = true)
    (hl : l ≤ level) (hm : s.mode ≠ 7) (h1 : 0x2000 ≤ idx) (hp : n = 0 ∨ p = id)
    (ha : ∀ c, (Opened v s).routeWrite c idx sub (ofWire (typeOf idx sub) b) = ⟨some n, u, p⟩) : Does i s u p :=
  does_act hx hr hrow hl (.inl hm) hp (fun c => (if_neg (by omega)).trans ((if_neg (by omega)).trans (ha c)))

/-! ### Clock losses -/

theorem ite_not_true {α : Type} {b : Bool} {x y : α} (h : b = true) : (if !b then x else y) = y := if_neg (by simp [h])

theorem ite_not_false {α : Type} {b : Bool} {x y : α} (h : b = false) : (if !b then x else y) = x := if_pos (by simp [h])

theorem monitors_clk (s : State) (k : Nat) (v : Bool) : (s.clk k v).monitors = s.monitors := by
  have hmode : (s.clk k v).mode = s.mode := (State.num_putBit ..).trans (if_neg (by decide))
  unfold State.monitors
  rw [hmode]
  rfl

/-- The always-on domain loses XT2 where the monitors are armed and it runs on it. -/
theorem doXt2Loss_eq (s : State) :
    doXt2Loss s = if s.monitors && s.clkBit 11
      then ((((s.clk 4 false).clk 10 false).clk 11 false).put 0x1500 0x01 0).issueOpen 0x34 0x27 0
      else (s.clk 4 false).clk 10 false := by
  have hguard : (((s.clk 4 false).clk 10 false).monitors && ((s.clk 4 false).clk 10 false).clkBit 11) = (s.monitors && s.clkBit 11) := by
    rw [monitors_clk, monitors_clk, clkBit_clk, if_neg (by decide), clkBit_clk, if_neg (by decide)]
  unfold doXt2Loss
  simp only [hguard]

/-- Settles O41. -/
theorem clockLossesAreHandled : Obligations.ClockLossesAreHandled := by
  unfold Obligations.ClockLossesAreHandled
  intro s fails off
  have hfails : ∀ (i : Instr) (v u : State) (post : State → State), exec i s = .next v.settle → v = post (u.issueOpen 0x34 0x27 0) → fails i u post :=
    fun i v u post hx h => ⟨_, records_issueOpen u 0x34 0x27 0 (by decide), next_of_eq hx h⟩
  refine ⟨fun hm => ⟨?_, ?_, ?_, ?_, ?_, ?_⟩, fun hm h11 => ?_, fun h => ?_, fun hm i hi => ?_⟩
  · exact hfails _ (doXt1Stop s) _ _ rfl (ite_not_true hm)
  · exact hfails _ (doPllaLoss s) _ _ rfl (ite_not_true hm)
  · exact hfails _ (doPllsLoss s) _ _ rfl (ite_not_true hm)
  · exact hfails _ (doPllmLoss s) _ _ rfl (ite_not_true hm)
  · exact hfails _ (doPlllLoss s) _ _ rfl (ite_not_true hm)
  · exact hfails _ (doPlltLoss s) _ _ rfl (ite_not_true hm)
  · exact hfails _ (doXt2Loss s) _ _ rfl ((doXt2Loss_eq s).trans (if_pos (by simp [hm, h11])))
  · refine next_of_eq (u := doXt2Loss s) rfl ((doXt2Loss_eq s).trans (if_neg ?_))
    rcases h with h | h <;> simp [h]
  · simp only [List.mem_cons, List.not_mem_nil, or_false] at hi
    rcases hi with rfl | rfl | rfl | rfl | rfl | rfl
    · exact next_of_eq (u := doXt1Stop s) rfl (ite_not_false hm)
    · exact next_of_eq (u := doPllaLoss s) rfl (ite_not_false hm)
    · exact next_of_eq (u := doPllsLoss s) rfl (ite_not_false hm)
    · exact next_of_eq (u := doPllmLoss s) rfl (ite_not_false hm)
    · exact next_of_eq (u := doPlllLoss s) rfl (ite_not_false hm)
    · exact next_of_eq (u := doPlltLoss s) rfl (ite_not_false hm)

/-! ### Locks regained and switches -/

theorem dom_modDom (s : State) (d : Fin 4) (f : Domain → Domain) : (s.modDom d f).dom d = f (s.dom d) := Vector.getElem_set_self ..

theorem domainOn_dom (s : State) (d : Fin 4) (pll : Bool) :
    (s.domainOn d pll).dom d = { s.dom d with onPll := pll, target := none, localReset := false } :=
  dom_modDom s d (fun x => { x with onPll := pll, target := none, localReset := false })

theorem domainOn_source (s : State) (d : Fin 4) (pll : Bool) : (s.domainOn d pll).num 0x1510 (0x11 + d.val) = b2n pll :=
  (State.num_put ..).trans (if_pos rfl)

theorem clkBit_putBit_of_ne (s : State) {i j k : Nat} (b : Bool) (n : Nat) (h : objKey i j ≠ objKey 0x1500 0x03) :
    (s.putBit i j k b).clkBit n = s.clkBit n :=
  congrArg (bit · n) ((State.num_putBit ..).trans (if_neg h))

/-- A return of XT1 while the monitors are armed and its trip stands. -/
theorem doXt1Return_eq {s : State} (hm : s.monitors = true) (hheld : s.power.xt1Held = false) :
    doXt1Return s = { ((((((((s.clk 3 true).clk 5 true).clk 6 true).clk 7 true).clk 8 true).clk 9 true).clk 10 false).putBit 0x1438 0x10 10 false)
      with power := { s.power with xt1Held := true, pllsSince := some s.cyc, pllmSince := some s.cyc } } := by
  simp only [doXt1Return, hm, hheld, Bool.not_true, Bool.or_self, Bool.false_eq_true, if_false]
  rfl

theorem num_clk_of_ne (s : State) {i j : Nat} (k : Nat) (v : Bool) (h : objKey 0x1500 0x03 ≠ objKey i j) :
    (s.clk k v).num i j = s.num i j := (State.num_putBit ..).trans (if_neg h)

/-- What a return of XT1 leaves where it is taken. -/
theorem doXt1Return_locks {s : State} (hm : s.monitors = true) (hheld : s.power.xt1Held = false) :
    (∀ b ∈ [3, 5, 6, 7, 8, 9], (doXt1Return s).clkBit b = true) ∧ (doXt1Return s).clkBit 10 = false ∧
      (doXt1Return s).mode = s.mode ∧ (doXt1Return s).num 0x1700 0x10 = s.num 0x1700 0x10 := by
  rw [doXt1Return_eq hm hheld]
  refine ⟨fun b hb => (clkBit_putBit_of_ne _ _ _ (by decide)).trans ?_, (clkBit_putBit_of_ne _ _ _ (by decide)).trans ?_, ?_, ?_⟩
  · simp only [List.mem_cons, List.not_mem_nil, or_false] at hb
    rcases hb with rfl | rfl | rfl | rfl | rfl | rfl <;> simp [clkBit_clk]
  · simp [clkBit_clk]
  · refine ((State.num_putBit ..).trans (if_neg (by decide))).trans ?_
    simp only [num_clk_of_ne _ _ _ (show objKey 0x1500 0x03 ≠ objKey 0x1300 0x02 by decide)]
    rfl
  · refine ((State.num_putBit ..).trans (if_neg (by decide))).trans ?_
    simp only [num_clk_of_ne _ _ _ (show objKey 0x1500 0x03 ≠ objKey 0x1700 0x10 by decide)]

/-- A lock that begins now is held after 100 ms, and not before. -/
theorem causeEnded_of_since {t : State} {m : Bool} {c : Nat} (h : (if m then t.power.pllmSince else t.power.pllsSince) = some c) :
    t.causeEnded (if m then 3 else 2) = decide (c + 100000000 ≤ t.cyc) := by
  cases m with
  | true => exact congrArg t.heldLock h
  | false => exact congrArg t.heldLock h

theorem doPllLockRegained_of_lost {s : State} {m : Bool} (h : s.clkBit (if m then 7 else 6) = false) :
    (doPllLockRegained m s).clkBit (if m then 7 else 6) = true ∧
      (if m then (doPllLockRegained m s).power.pllmSince else (doPllLockRegained m s).power.pllsSince) = some s.cyc ∧
      (doPllLockRegained m s).cyc = s.cyc := by
  cases m with
  | true =>
    have hdo : doPllLockRegained true s = { s.clk 7 true with power := { s.power with pllmSince := some s.cyc } } :=
      if_neg (ne_true_of_eq_false h)
    rw [hdo]
    exact ⟨(clkBit_clk s 7 7 true).trans (if_pos rfl), rfl, rfl⟩
  | false =>
    have hdo : doPllLockRegained false s = { s.clk 6 true with power := { s.power with pllsSince := some s.cyc } } :=
      if_neg (ne_true_of_eq_false h)
    rw [hdo]
    exact ⟨(clkBit_clk s 6 6 true).trans (if_pos rfl), rfl, rfl⟩

theorem sources_rows (d : Fin 4) (b : Byte) (h : b.toNat ≤ 1) :
    actRow 0x1500 0x01 2 [b] = true ∧ actRow 0x1510 (0x11 + d.val) 2 [b] = true ∧
      (ofWire (typeOf 0x1500 0x01) [b]).toNat = b.toNat ∧ (ofWire (typeOf 0x1510 (0x11 + d.val)) [b]).toNat = b.toNat := by
  have hb : b = 0 ∨ b = 1 := by
    rcases Nat.le_one_iff_eq_zero_or_eq_one.mp h with h | h
    · exact .inl (BitVec.eq_of_toNat_eq h)
    · exact .inr (BitVec.eq_of_toNat_eq h)
  rcases hb with rfl | rfl
  · revert d; decide
  · revert d; decide

theorem opened_dom (v : Via) (s : State) (d : Fin 4) : (Opened v s).dom d = s.dom d := by cases v <;> rfl

theorem opened_clkBit (v : Via) (s : State) (b : Nat) : (Opened v s).clkBit b = s.clkBit b := by cases v <;> rfl

theorem opened_readyCheck (v : Via) (s : State) (d : Fin 4) : (Opened v s).readyCheck d = s.readyCheck d := by cases v <;> rfl

theorem opened_sourceReady (v : Via) (s : State) (p : Bool) : (Opened v s).sourceReady p = s.sourceReady p := by cases v <;> rfl

/-- A write of a domain's source in MAINTENANCE that its source is ready for begins the switch. -/
theorem domainWrite_begins {s : State} {d : Fin 4} {src : Nat} (hmode : s.mode = 6) (htarget : (s.dom d).target = none)
    (hready : s.readyCheck d = true → s.sourceReady (src == 1) = true) (hon : (s.dom d).onPll ≠ (src == 1)) :
    domainWrite d src s = ⟨0, (s.put 0x1510 (0x11 + d.val) src).beginSwitch d (src == 1), id⟩ := by
  have h1 : ¬ (s.mode != 6) = true := by simp [hmode]
  have h2 : ¬ (s.dom d).target.isSome = true := by simp [htarget]
  have h3 : ¬ (s.readyCheck d && !s.sourceReady (src == 1)) = true := by
    cases hcheck : s.readyCheck d with
    | true => simp [hready hcheck]
    | false => simp
  have h4 : ¬ ((s.dom d).onPll == (src == 1)) = true := by simpa using hon
  exact (if_neg h1).trans ((if_neg h2).trans ((if_neg h3).trans (if_neg h4)))

theorem unitWrite_domain (s : State) (level : Nat) (bist : Option Bool) (d : Fin 4) (x : Val) :
    s.unitWrite level bist 0x1510 (0x11 + d.val) x = (domainWrite d x.toNat s).acted := by
  match d with
  | 0 => rfl
  | 1 => rfl
  | 2 => rfl
  | 3 => rfl

/-- Settles O43. -/
theorem clockSwitchesComplete : Obligations.ClockSwitchesComplete := by
  unfold Obligations.ClockSwitchesComplete
  intro s v level d src pll m x u on
  refine ⟨fun h3 => ?_, fun h5 => ?_, fun hm hheld => ?_, fun h => ?_, rfl, fun hmode h3 h4 => ?_, fun hlock => ?_, fun hlock => ?_,
    fun hr hl hmode hsrc h4 => ?_, fun hr hl hmode hsrc htarget hready hon => ?_, fun htarget => ?_, fun href htarget => ?_⟩
  · exact next_of_eq (u := doPllRelockAttempt false true s) rfl (by simp [doPllRelockAttempt, h3])
  · exact next_of_eq (u := doPllRelockAttempt true true s) rfl (by simp [doPllRelockAttempt, h5])
  · obtain ⟨hlocks, h10, hmode, hfault⟩ := doXt1Return_locks hm hheld
    have hpower := congrArg State.power (doXt1Return_eq hm hheld)
    exact ⟨_, rfl, hlocks, h10, congrArg Power.xt1Held hpower, congrArg Power.pllsSince hpower, congrArg Power.pllmSince hpower, hmode, hfault⟩
  · refine next_of_eq (u := doXt1Return s) rfl (if_pos ?_)
    rcases h with h | h <;> simp [h]
  · exact next_of_eq (u := doCanTrim s) rfl (by simp [doCanTrim, h3, h4, (bne_iff_ne ..).mpr hmode])
  · obtain ⟨hbit, hsince, hcyc⟩ := doPllLockRegained_of_lost hlock
    refine ⟨_, rfl, hbit, hsince, ?_, fun n => ?_⟩
    · refine (causeEnded_of_since (t := (doPllLockRegained m s).settle) hsince).trans (decide_eq_false ?_)
      show ¬ s.cyc + 100000000 ≤ (doPllLockRegained m s).cyc
      omega
    · rw [causeEnded_of_since (t := { (doPllLockRegained m s).settle with time := { (doPllLockRegained m s).settle.time with cycles := n } }) hsince]
      exact decide_eq_true_iff
  · exact next_of_eq (u := doPllLockRegained m s) rfl (if_pos hlock)
  · obtain ⟨hrow, -, hval, -⟩ := sources_rows d src hsrc
    refine does_unitWrite (n := 0) rfl hr hrow hl (.inl hmode) (by decide) (by decide) (.inl rfl) ?_
    show (alwaysOnWrite (ofWire (typeOf 0x1500 0x01) [src]).toNat u).acted = _
    have h4' : ¬ (src.toNat == 1 && !u.clkBit 4) = true := by
      rw [show u.clkBit 4 = s.clkBit 4 from opened_clkBit v s 4]
      rintro h
      simp only [Bool.and_eq_true, beq_iff_eq, Bool.not_eq_true'] at h
      exact absurd (h4 h.1) (ne_true_of_eq_false h.2)
    simp only [hval, alwaysOnWrite, if_neg h4', Reply.acted]
  · obtain ⟨-, hrow, -, hval⟩ := sources_rows d src hsrc
    refine does_unitWrite (n := 0) rfl hr hrow hl (.inl (by omega)) (by decide) (by decide) (.inl rfl) ?_
    rw [unitWrite_domain, hval, domainWrite_begins ((opened_mode v s).trans hmode) (by rw [opened_dom]; exact htarget)
      (by rw [opened_readyCheck, opened_sourceReady]; exact hready) (by rw [opened_dom]; exact hon)]
    rfl
  · replace htarget : (s.dom d).target = some pll := htarget
    refine ⟨domainOn_dom s d pll, domainOn_source s d pll, ?_, ⟨_, _, records_issueOpen _ 0x32 0x27 0 (by decide), rfl, ?_⟩, fun hsource => ?_,
      fun hsource => ?_⟩
    · exact next_of_eq (u := doClockSwitchComplete d s) rfl (by simp only [doClockSwitchComplete, htarget]; rfl)
    · exact congrArg State.settle (by simp only [doClockSwitchTimeout, htarget, if_true]; rfl)
    · replace hsource : s.sourceReady (s.dom d).onPll = true := hsource
      refine next_of_eq (u := doClockSwitchTimeout d false s) rfl ?_
      simp only [doClockSwitchTimeout, htarget, hsource, Bool.false_eq_true, if_false, if_true]
      rfl
    · replace hsource : s.sourceReady (s.dom d).onPll = false := hsource
      exact next_of_eq (u := doClockSwitchTimeout d false s) rfl
        (by simp only [doClockSwitchTimeout, htarget, hsource, Bool.false_eq_true, if_false])
  · have hretry : doClockSwitchRetry d s = if x.target.isNone && (!s.readyCheck d || s.sourceReady pll) then s.beginSwitch d pll
        else if 99 ≤ x.repeats then
          ((s.bump 0x1500 0x12 1).modDom d (fun y => { y with refused := none, repeats := 0 })).issueOpen 0x33 0x27 0
        else (s.bump 0x1500 0x12 1).modDom d (fun y => { y with repeats := y.repeats + 1 }) := by
      simp only [doClockSwitchRetry, show (s.dom d).refused = some pll from href]
      rfl
    refine ⟨fun h => ?_, fun hready hsource hmore => ?_, fun hready hsource hlast => ⟨_, records_issueOpen _ 0x33 0x27 0 (by decide), ?_⟩⟩
    · refine next_of_eq (u := doClockSwitchRetry d s) rfl (hretry.trans (if_pos ?_))
      rcases h with h | h <;> simp [htarget, h]
    · exact next_of_eq (u := doClockSwitchRetry d s) rfl (hretry.trans ((if_neg (by simp [hready, hsource])).trans (if_neg (by omega))))
    · exact next_of_eq (u := doClockSwitchRetry d s) rfl (hretry.trans ((if_neg (by simp [hready, hsource])).trans (if_pos hlast)))

end Sys2Proof.Machine

/-! Gates, core supply and the real-time counter (R429 to R434, R443, R474). -/

namespace Sys2Proof.Machine

open Sys2Proof Sys2Proof.Safety

/-! ### Gates -/

theorem foldl_beBytes (k n a : Nat) : (beBytes k n).foldl (fun a x => a * 256 + x.toNat) a = a * 256 ^ k + n % 256 ^ k := by
  induction k generalizing a with
  | zero => simp [beBytes, Nat.mod_one]
  | succ k ih =>
    have hbyte : (byteOf (n / 256 ^ k)).toNat = n / 256 ^ k % 256 := BitVec.toNat_ofNat ..
    have hsplit : n % 256 ^ (k + 1) = 256 ^ k * (n / 256 ^ k % 256) + n % 256 ^ k := by
      rw [Nat.pow_succ, Nat.mod_mul, Nat.add_comm]
    simp only [beBytes, List.foldl_cons]
    rw [ih, hbyte, hsplit]
    ring

theorem beNat_beBytes (k n : Nat) : beNat (beBytes k n) = n % 256 ^ k :=
  (foldl_beBytes k n 0).trans (by simp)

theorem beNat_mask (mask : BitVec 16) : beNat (beBytes 2 mask.toNat) = mask.toNat :=
  (beNat_beBytes 2 mask.toNat).trans (Nat.mod_eq_of_lt mask.isLt)

theorem gateRow (mask : BitVec 16) (h : mask.toNat &&& 0xFF1F = mask.toNat) : actRow 0x1520 0x01 2 (beBytes 2 mask.toNat) = true := by
  have hf : findObj 0x1520 0x01 = .row (rowX 0x01 0x01 .u16 (some 2) (some 2) (.num 0) (.mask 0xFF1F)) := rfl
  have hwire : ofWire .u16 (beBytes 2 mask.toNat) = .num (beNat (beBytes 2 mask.toNat)) := rfl
  have hlen : lengthOk .u16 (beBytes 2 mask.toNat).length = true := by rw [length_beBytes]; rfl
  have hrange : inRange (rowX 0x01 0x01 .u16 (some 2) (some 2) (.num 0) (.mask 0xFF1F)) (.num mask.toNat) = true := by
    show (true && true && (mask.toNat &&& 0xFF1F == mask.toNat)) = true
    simp [h]
  simp only [actRow, hf]
  show (true && true && true && true && lengthOk .u16 (beBytes 2 mask.toNat).length && inRange _ (ofWire .u16 (beBytes 2 mask.toNat))) = true
  rw [hlen, hwire, beNat_mask, hrange]
  rfl

/-- The status of a gate request that names no block in use, and the blocks that stay open. -/
theorem gateWrite_of_unused {s : State} {mask : Nat} (h : s.gateInUse mask = false) : ∃ n busy, busy &&& mask = busy ∧
    gateWrite mask s = ⟨n, (({ s with free := s.free + 1 } : State).put 0x1520 0x01 mask).put 0x1520 0x02 (mask - busy), id⟩ := by
  refine ⟨_, mask &&& s.draw.1 % 65536 &&& (65535 - s.num 0x1520 0x02), ?_, if_neg (ne_true_of_eq_false h)⟩
  rw [Nat.and_assoc mask, Nat.and_comm mask, Nat.and_assoc, Nat.and_self]

theorem unitWrite_gate {s t : State} {level n : Nat} {bist : Option Bool} {x : Val} (h : gateWrite x.toNat s = ⟨n, t, id⟩) :
    s.unitWrite level bist 0x1520 0x01 x = ⟨some n, t.openGates (s.num 0x1520 0x02), id⟩ := by
  have hunit : s.unitWrite level bist 0x1520 0x01 x =
      ⟨some (gateWrite x.toNat s).status, (gateWrite x.toNat s).state.openGates (s.num 0x1520 0x02), (gateWrite x.toNat s).post⟩ := rfl
  rw [hunit, h]

theorem opened_free (v : Via) (s : State) : (Opened v s).free = s.free := by cases v <;> rfl

theorem opened_gateInUse (v : Via) (s : State) (mask : Nat) : (Opened v s).gateInUse mask = s.gateInUse mask := by cases v <;> rfl

theorem doGateHandshakeTimeout_open {s : State} {g : AutoGate} (hunused : s.unused g = true) (hopen : s.power.gatesOpen.contains g = false) :
    doGateHandshakeTimeout g s = ({ s with power := { s.power with gatesOpen := s.power.gatesOpen ++ [g] } } : State).bump 0x1520 0x10 1 :=
  if_neg (by rw [State.autoGated, hunused, hopen]; decide)

/-! ### The core supply -/

theorem foldl_emit (m : OutMsg) (l : List Nat) (s : State) :
    l.foldl (fun (s : State) _ => s.emit m) s = { s with out := s.out ++ List.replicate l.length m } := by
  induction l generalizing s with
  | nil => simp
  | cons _ l ih =>
    rw [List.foldl_cons, ih]
    simp [State.emit, List.replicate_succ]

/-- A voltage write goes out once for each attempt. -/
theorem avsSend_eq (s : State) (mv : Nat) (misses : Fin 4) :
    s.avsSend mv misses = { s with out := s.out ++ List.replicate (min misses.val 2 + 1) (.avs mv) } :=
  (foldl_emit ..).trans (by rw [List.length_range])

/-- A voltage write with an answer sets the target. -/
theorem avsWrite_answered (s : State) (mv : Nat) {misses : Fin 4} (h : misses.val < 3) :
    (s.avsWrite mv misses).num 0x1300 0x14 = mv ∧ bit ((s.avsWrite mv misses).num 0x1300 0x15) 1 = false ∧
      (s.avsWrite mv misses).power = s.power ∧ (s.avsWrite mv misses).out = s.out ++ List.replicate (misses.val + 1) (.avs mv) := by
  have hmin : min misses.val 2 = misses.val := by omega
  rw [State.avsWrite, if_pos h, avsSend_eq, hmin]
  refine ⟨?_, ?_, rfl, rfl⟩
  · rw [State.num_putBit, if_neg (by decide), State.num_put, if_pos rfl]
  · rw [State.num_putBit, if_pos rfl, bit_setBit, if_pos rfl]

/-- A voltage write without an answer holds the target and is recorded. -/
theorem avsWrite_lost (s : State) (mv : Nat) :
    (s.avsWrite mv 3).num 0x1300 0x14 = s.num 0x1300 0x14 ∧ bit ((s.avsWrite mv 3).num 0x1300 0x15) 1 = true ∧
      NewestRecord s (s.avsWrite mv 3) 0x36 ∧ (s.avsWrite mv 3).out = s.out ++ List.replicate 3 (.avs mv) := by
  have heq : s.avsWrite mv 3 = ((s.avsSend mv 3).putBit 0x1300 0x15 1 true).issueOpen 0x36 0x27 0 := if_neg (by decide)
  obtain ⟨hrec, hnew⟩ := records_issueOpen ((s.avsSend mv 3).putBit 0x1300 0x15 1 true) 0x36 0x27 0 (by decide)
  obtain ⟨hout, -⟩ := quiet_recorded hrec
  rw [heq]
  rw [avsSend_eq] at hrec hnew hout ⊢
  refine ⟨?_, ?_, hnew, hout⟩
  · rw [recorded_num hrec _ _ (by decide), State.num_putBit, if_neg (by decide)]
    rfl
  · rw [recorded_num hrec _ _ (by decide), State.num_putBit, if_pos rfl, bit_setBit, if_pos rfl]

/-- The state in which the AVS loop judges a slack: its count of high slacks in a row. -/
def State.avsCounted (s : State) (m : Nat) : State :=
  { s with power := { s.power with avsHigh := if 12 < m then s.power.avsHigh + 1 else 0 } }

section
variable {s : State} {slack : List Nat} {misses : Fin 4} (hon : bit (s.num 0x1300 0x15) 0 = true) (hslack : slack ≠ [])
include hon hslack

theorem doAvsLoop_on : doAvsLoop slack misses s =
    let m := leastSlack slack
    let mv := s.num 0x1300 0x14
    let t := s.avsCounted m
    if m < 2 && mv == 850 then (doSupplyFailure t).putBit 0x1300 0x15 2 true
    else if m < 4 then (if mv < 850 then t.avsWrite (min 850 (mv + 10)) misses else t)
    else if 16 ≤ t.power.avsHigh then
      if 650 < mv then ({ t with power := { t.power with avsHigh := 0 } } : State).avsWrite (max 650 (mv - 5)) misses
      else { t with power := { t.power with avsHigh := 0 } }
    else t := by
  have hempty : slack.isEmpty = false := by simpa using hslack
  exact if_neg (by simp [hon, hempty])

theorem doAvsLoop_raise (h2 : 2 ≤ leastSlack slack) (h4 : leastSlack slack < 4) (hmv : s.num 0x1300 0x14 < 850) :
    doAvsLoop slack misses s = (s.avsCounted (leastSlack slack)).avsWrite (min 850 (s.num 0x1300 0x14 + 10)) misses :=
  (doAvsLoop_on hon hslack).trans ((if_neg (by simp; omega)).trans ((if_pos h4).trans (if_pos hmv)))

theorem doAvsLoop_lower (h12 : 12 < leastSlack slack) (hhigh : s.power.avsHigh = 15) (hmv : 650 < s.num 0x1300 0x14) :
    doAvsLoop slack misses s =
      ({ s with power := { s.power with avsHigh := 0 } } : State).avsWrite (max 650 (s.num 0x1300 0x14 - 5)) misses := by
  have h16 : 16 ≤ (s.avsCounted (leastSlack slack)).power.avsHigh := by
    simp [State.avsCounted, h12, hhigh]
  exact (doAvsLoop_on hon hslack).trans ((if_neg (by simp; omega)).trans ((if_neg (by omega)).trans ((if_pos h16).trans (if_pos hmv))))

theorem doAvsLoop_hold (h4 : 4 ≤ leastSlack slack) (h12 : leastSlack slack ≤ 12) :
    doAvsLoop slack misses s = { s with power := { s.power with avsHigh := 0 } } := by
  have hcount : s.avsCounted (leastSlack slack) = { s with power := { s.power with avsHigh := 0 } } := by
    simp [State.avsCounted, show ¬ 12 < leastSlack slack by omega]
  refine (doAvsLoop_on hon hslack).trans ((if_neg (by simp; omega)).trans ((if_neg (by omega)).trans ((if_neg ?_).trans hcount)))
  rw [hcount]
  exact Nat.not_succ_le_zero 15

theorem doAvsLoop_fail (h2 : leastSlack slack < 2) (hmv : s.num 0x1300 0x14 = 850) :
    doAvsLoop slack misses s = (doSupplyFailure (s.avsCounted (leastSlack slack))).putBit 0x1300 0x15 2 true :=
  (doAvsLoop_on hon hslack).trans (if_pos (by simp [h2, hmv]))

end

theorem resetTo_held (s : State) (warm : Bool) (cause : Nat) : (s.resetTo warm cause).streams.held = s.streams.held := by
  simp only [State.resetTo, refreshSelf_eq]
  split_ifs <;> rfl

/-- A supply failure asserts the safe request, with its record latched. -/
theorem doSupplyFailure_taken {s : State} (hvaon : s.power.vaon = true) (hmode : s.mode ≠ 0) :
    (doSupplyFailure s).power.supplyOk = false ∧ (doSupplyFailure s).power.safeRequest = true ∧ (doSupplyFailure s).num 0x1300 0x11 = 5 ∧
      ∃ e, (doSupplyFailure s).streams.held = s.streams.held ++ [e] ∧ e.type = 0x35 := by
  have hdo : ∃ e, e.type = 0x35 ∧ doSupplyFailure s = { (s.draw.2.resetTo false 5).holdRec e with
      power := { (s.draw.2.resetTo false 5).power with supplyOk := false, bringUp := some 0 } } := by
    refine ⟨_, ?_, if_neg (by simp [hvaon, hmode])⟩
    rfl
  obtain ⟨e, htype, hdo⟩ := hdo
  rw [hdo]
  refine ⟨rfl, congrArg Power.safeRequest (resetTo_power s.draw.2 false 5), resetTo_num_cause s.draw.2 false 5, e, ?_, htype⟩
  exact congrArg (· ++ [e]) (resetTo_held s.draw.2 false 5)

theorem latch_power (bits : List Nat) (s : State) : (s.latch bits).power = s.power := by
  show (bits.foldl (fun s b => s.putBit 0x1700 0x10 b true) s).power = s.power
  induction bits generalizing s with
  | nil => rfl
  | cons c bits ih => exact ih _

/-- Settles O44. -/
theorem gatesAndSupplyFollowTheirRules : Obligations.GatesAndSupplyFollowTheirRules := by
  unfold Obligations.GatesAndSupplyFollowTheirRules
  intro s v level mask b slack misses mv m loop
  refine ⟨fun hr hl hmode hmask huse => ?_, fun hunused hopen => ?_, fun h => ?_, fun ⟨hon, hslack⟩ h2 h4 hmv hmiss => ?_,
    fun ⟨hon, hslack⟩ h12 hhigh hmv hmiss => ?_, fun ⟨hon, hslack⟩ h4 h12 => ?_, fun ⟨hon, hslack⟩ h2 h4 hmv => ?_,
    fun ⟨hon, hslack⟩ h2 hmv hvaon hmode => ?_, fun hmode => ?_, fun hvaon hmode => ?_, fun hsupply => ?_, fun hvaon => ?_⟩
  · obtain ⟨n, busy, hbusy, hw⟩ := gateWrite_of_unused ((opened_gateInUse v s mask.toNat).trans huse)
    have hmask' : (ofWire (typeOf 0x1520 0x01) (beBytes 2 mask.toNat)).toNat = mask.toNat := beNat_mask mask
    obtain ⟨w, hanswered, hx⟩ := does_unitWrite (i := .gateRequest v mask) (bist := none) (p := id) rfl hr (gateRow mask hmask) hl
      (.inl hmode) (by decide) (by decide) (.inr rfl) (unitWrite_gate (by rw [hmask']; exact hw))
    rw [opened_num, opened_free] at hanswered
    exact ⟨busy, w, hbusy, hx, hanswered⟩
  · exact next_of_eq (u := doGateHandshakeTimeout b s) rfl (doGateHandshakeTimeout_open hunused hopen)
  · refine next_of_eq (u := doGateHandshakeTimeout b s) rfl (if_pos ?_)
    rcases h with h | h <;> simp only [State.autoGated, h] <;> simp
  · obtain ⟨hmv', hbit, -, hout⟩ := avsWrite_answered (s.avsCounted m) (min 850 (mv + 10)) hmiss
    exact ⟨_, next_of_eq (u := doAvsLoop slack misses s) rfl (doAvsLoop_raise hon hslack h2 h4 hmv), hmv', hbit, hout⟩
  · obtain ⟨hmv', -, hpower, hout⟩ := avsWrite_answered ({ s with power := { s.power with avsHigh := 0 } } : State) (max 650 (mv - 5)) hmiss
    exact ⟨_, next_of_eq (u := doAvsLoop slack misses s) rfl (doAvsLoop_lower hon hslack h12 hhigh hmv), hmv', congrArg Power.avsHigh hpower, hout⟩
  · exact ⟨_, next_of_eq (u := doAvsLoop slack misses s) rfl (doAvsLoop_hold hon hslack h4 h12), rfl, rfl, rfl⟩
  · obtain ⟨hmv', hbit, hnew, hout⟩ := avsWrite_lost (s.avsCounted m) (min 850 (mv + 10))
    exact ⟨_, next_of_eq (u := doAvsLoop slack 3 s) rfl (doAvsLoop_raise hon hslack h2 h4 hmv), hmv', hbit, hnew, hout⟩
  · obtain ⟨hsupply, -⟩ := doSupplyFailure_taken (s := s.avsCounted m) hvaon hmode
    refine ⟨_, next_of_eq (u := doAvsLoop slack misses s) rfl (doAvsLoop_fail hon hslack h2 hmv), hsupply, ?_⟩
    rw [State.num_settle, State.num_putBit, if_pos rfl, bit_setBit, if_pos rfl]
  · exact next_of_eq (u := doSupplyFailure s) rfl (if_pos (by simp [hmode]))
  · obtain ⟨hsupply, hsafe, hcause, hheld⟩ := doSupplyFailure_taken hvaon hmode
    exact ⟨_, rfl, hsupply, hsafe, safeOutputs_settle hsafe, hcause, hheld⟩
  · have hdo : doSupplyRecovery s = ({ s with power := { s.power with supplyOk := true, toSafe := true } } : State).latch [4] :=
      if_neg (ne_true_of_eq_false hsupply)
    have hpower := latch_power [4] ({ s with power := { s.power with supplyOk := true, toSafe := true } } : State)
    exact ⟨_, next_of_eq (u := doSupplyRecovery s) rfl hdo, congrArg Power.supplyOk hpower, congrArg Power.toSafe hpower,
      bit_latch [4] _ 4 (.inl (by decide))⟩
  · refine next_of_eq (u := doRtcSecond s) rfl ((ite_not_true hvaon).trans ?_)
    have hguard : (s.mode != 0 && s.clkBit 5) = true ↔ s.mode ≠ 0 ∧ s.clkBit 5 = true := by simp
    simp only [hguard]

end Sys2Proof.Machine

/-! Authority (R459 to R461) and the steps of bring-up (R419, R436). -/

namespace Sys2Proof.Machine

open Sys2Proof Sys2Proof.Safety

/-! ### Authority -/

/-- The grant of authority is to its Keeper, with a record; of the frame nothing else changes. -/
theorem grant_kept (s : State) (k : Keeper) : Quiet s (s.grant k) ∧ (s.grant k).arbiter.holder = some k := by
  have hissue : ∀ (u : State) (n : Nat) (e : Int), Quiet u (u.issue 0x25 0x27 n e) ∧ (u.issue 0x25 0x27 n e).arbiter = u.arbiter := by
    intro u n e
    have hrec := recorded_issue u 0x25 0x27 n e
    refine ⟨quiet_recorded hrec, ?_⟩
    obtain ⟨free, streams, od, dram, h, -⟩ := hrec
    rw [h]
  have hset : ∀ a : Arbiter, Quiet s { s with arbiter := a } := fun a => ⟨rfl, rfl, rfl, rfl, fun r => by cases r <;> rfl, fun _ _ => rfl⟩
  unfold State.grant
  simp only
  split
  · obtain ⟨hquiet, harbiter⟩ := hissue { s with arbiter := { s.arbiter.setState k .active with holder := some k, epoch := (s.arbiter.epoch + 1) % 2 ^ 32 } }
      (keeperNum k) ((s.arbiter.epoch + 1) % 2 ^ 32 : Nat)
    exact ⟨quiet_trans (hset _) hquiet, congrArg Arbiter.holder harbiter⟩
  · exact ⟨hset _, rfl⟩

/-- Where the held records are issued, authority stands. -/
theorem releaseHeld_kept (s : State) : Quiet s s.releaseHeld ∧ s.releaseHeld.arbiter = s.arbiter := by
  have hrec : Recorded s s.releaseHeld := by
    have hfold : ∀ (l : List EventRec) (u : State), Recorded u (l.foldl State.issueRec u) := by
      intro l
      induction l with
      | nil => exact fun u => recorded_refl u
      | cons e l ih => exact fun u => recorded_trans (recorded_issueRec u e) (ih _)
    exact recorded_trans (recorded_streams s _) (hfold _ _)
  refine ⟨quiet_recorded hrec, ?_⟩
  obtain ⟨free, streams, od, dram, h, -⟩ := hrec
  rw [h]

theorem dropRoute_out (s : State) (r : Route) : (s.dropRoute r).out = s.out := by cases r <;> rfl

theorem stopSensing_out (s : State) : s.stopSensing.out = s.out := by
  obtain ⟨hout, -⟩ := quiet_surveyFail ((s.dropRoute .a).dropRoute .b) 1
  exact hout.trans ((dropRoute_out _ _).trans (dropRoute_out _ _))

theorem stopSensing_power (s : State) : s.stopSensing.power = { s.power with gatesOpen := s.stopSensing.power.gatesOpen } := by
  obtain ⟨-, -, -, hpower, -⟩ := quiet_surveyFail ((s.dropRoute .a).dropRoute .b) 1
  obtain ⟨-, hpowerA, -⟩ := dropRoute_kept s .a
  obtain ⟨-, hpowerB, -⟩ := dropRoute_kept (s.dropRoute .a) .b
  rw [hpowerB, hpowerA] at hpower
  exact hpower

/-- With no Keeper nothing leaves the ports, the status objects stand, and no step of bring-up is lost. -/
theorem noKeeper_kept (s : State) : s.noKeeper.out = s.out ∧ s.noKeeper.power.bringUp = s.power.bringUp ∧
    s.noKeeper.power.resetLow = s.power.resetLow ∧ (∀ k, statusKey k → s.noKeeper.val k = s.val k) ∧
    s.noKeeper.arbiter.holder = none ∧ s.noKeeper.power.dead = true ∧ s.noKeeper.power.safeRequest = true := by
  obtain ⟨-, hval, -⟩ := stopSensing_kept s
  have hpower := stopSensing_power s
  exact ⟨stopSensing_out s, (congrArg Power.bringUp hpower :), (congrArg Power.resetLow hpower :), hval, rfl, rfl, rfl⟩

/-- Both Keepers that are not retired stand by to claim authority, with a retired one latched. -/
def State.claimed (s : State) : State :=
  let a := s.arbiter
  let okA := a.stateA != .retired
  let okB := a.stateB != .retired
  let s := { s with arbiter := { a with
    stateA := if okA then .standby else .retired, stateB := if okB then .standby else .retired, missA := 0, missB := 0 } }
  if !okA || !okB then s.latch [15] else s

theorem claim_eq (s : State) :
    s.claim = if s.arbiter.stateA != .retired && (s.arbiter.holder != some .b || !(s.arbiter.stateB != .retired)) then
        (s.claimed.grant .a).releaseHeld
      else if s.arbiter.stateB != .retired then (s.claimed.grant .b).releaseHeld
      else s.claimed.noKeeper := rfl

/-- The claim of authority: of both Keepers not retired the recorded holder has it, else Keeper A; with none R33 applies. -/
theorem claim_holder (s : State) :
    (s.arbiter.stateA ≠ .retired → s.arbiter.holder ≠ some .b ∨ s.arbiter.stateB = .retired → s.claim.arbiter.holder = some .a) ∧
    (s.arbiter.stateB ≠ .retired → s.arbiter.holder = some .b ∨ s.arbiter.stateA = .retired → s.claim.arbiter.holder = some .b) ∧
    (s.arbiter.stateA = .retired → s.arbiter.stateB = .retired →
      s.claim.arbiter.holder = none ∧ s.claim.power.dead = true ∧ s.claim.power.safeRequest = true) := by
  have hholder : ∀ (u : State) k, (u.grant k).releaseHeld.arbiter.holder = some k := fun u k =>
    (congrArg Arbiter.holder (releaseHeld_kept _).2).trans (grant_kept u k).2
  rw [claim_eq]
  refine ⟨fun hA hB => ?_, fun hB hA => ?_, fun hA hB => ?_⟩
  · rw [if_pos (by rcases hB with h | h <;> simp [hA, h])]
    exact hholder _ _
  · rw [if_neg (by rcases hA with h | h <;> simp [hB, h]), if_pos (by simp [hB])]
    exact hholder _ _
  · rw [if_neg (by simp [hA]), if_neg (by simp [hB])]
    obtain ⟨-, -, -, -, h⟩ := noKeeper_kept s.claimed
    exact h

theorem latch_out (bits : List Nat) (s : State) : (s.latch bits).out = s.out := by
  show (bits.foldl (fun s b => s.putBit 0x1700 0x10 b true) s).out = s.out
  induction bits generalizing s with
  | nil => rfl
  | cons c bits ih => exact ih _

theorem latch_val (bits : List Nat) (s : State) {k : Nat} (h : objKey 0x1700 0x10 ≠ k) : (s.latch bits).val k = s.val k := by
  show (bits.foldl (fun s b => s.putBit 0x1700 0x10 b true) s).val k = s.val k
  induction bits generalizing s with
  | nil => rfl
  | cons c bits ih => exact (ih _).trans (val_put_of_ne h)

theorem claimed_kept (s : State) : s.claimed.out = s.out ∧ s.claimed.power = s.power ∧
    ∀ k, objKey 0x1700 0x10 ≠ k → s.claimed.val k = s.val k := by
  unfold State.claimed
  simp only
  split
  · exact ⟨latch_out _ _, latch_power _ _, fun k hk => latch_val _ _ hk⟩
  · exact ⟨rfl, rfl, fun _ _ => rfl⟩

/-- The claim of authority sends nothing, and leaves the steps of bring-up and the status objects but for the latches. -/
theorem claim_kept (s : State) : s.claim.out = s.out ∧ s.claim.power.bringUp = s.power.bringUp ∧
    s.claim.power.resetLow = s.power.resetLow ∧ ∀ k, statusKey k → objKey 0x1700 0x10 ≠ k → s.claim.val k = s.val k := by
  obtain ⟨hout, hpower, hval⟩ := claimed_kept s
  have hgrant : ∀ k, (s.claimed.grant k).releaseHeld.out = s.out ∧ (s.claimed.grant k).releaseHeld.power.bringUp = s.power.bringUp ∧
      (s.claimed.grant k).releaseHeld.power.resetLow = s.power.resetLow ∧
      ∀ j, statusKey j → objKey 0x1700 0x10 ≠ j → (s.claimed.grant k).releaseHeld.val j = s.val j := by
    intro k
    obtain ⟨hout', -, -, hpower', -, hval'⟩ := quiet_trans (grant_kept s.claimed k).1 (releaseHeld_kept _).1
    rw [hpower] at hpower'
    exact ⟨hout'.trans hout, (congrArg Power.bringUp hpower' :), (congrArg Power.resetLow hpower' :), fun j hj hne => (hval' j hj).trans (hval j hne)⟩
  rw [claim_eq]
  split_ifs
  · exact hgrant .a
  · exact hgrant .b
  · obtain ⟨hout', hbringUp, hreset, hval', -⟩ := noKeeper_kept s.claimed
    rw [hpower] at hbringUp hreset
    exact ⟨hout'.trans hout, hbringUp, hreset, fun j hj hne => (hval' j hj).trans (hval j hne)⟩

/-! ### The release of reset -/

/-- The first steps of bring-up up to the Keepers' tests: the voltage write and the control domain's start. -/
def State.firstSteps (s : State) (misses : Fin 4) : State :=
  ((({ s with power := { s.power with resetLow := false, bringUp := some 2, bringUpNs := s.cyc } } : State).avsSend 850 misses).clk 2 true).avsLost misses

theorem doResetRelease_eq {s : State} (bistPass : Bool) (misses : Fin 4) (hvaon : s.power.vaon = true) (hsupply : s.power.supplyOk = true)
    (hup : s.power.bringUp = some 0) :
    doResetRelease bistPass misses s = if bistPass
      then ({ s.firstSteps misses with power := { (s.firstSteps misses).power with bringUp := some 4 } } : State).claim.driveFault
      else ({ s.firstSteps misses with power := { (s.firstSteps misses).power with domainBistFailed := true } } : State).driveFault :=
  if_neg (by simp [hvaon, hsupply, hup])

theorem firstSteps_kept (s : State) (misses : Fin 4) :
    (s.firstSteps misses).out = s.out ++ List.replicate (min misses.val 2 + 1) (.avs 850) ∧ (s.firstSteps misses).arbiter = s.arbiter ∧
      (s.firstSteps misses).power.resetLow = false ∧ (s.firstSteps misses).power.bringUp = some 2 ∧ (s.firstSteps misses).clkBit 2 = true ∧
      bit ((s.firstSteps misses).num 0x1300 0x15) 1 = (bit (s.num 0x1300 0x15) 1 || misses == 3) := by
  unfold State.firstSteps State.avsLost
  rw [avsSend_eq]
  split
  case isTrue h =>
    have hne : (misses == 3) = false := by
      rw [beq_eq_false_iff_ne]
      rintro rfl
      exact absurd h (by decide)
    rw [hne, Bool.or_false]
    refine ⟨rfl, rfl, rfl, rfl, (clkBit_clk ..).trans (if_pos rfl), ?_⟩
    exact congrArg (bit · 1) (num_clk_of_ne _ _ _ (by decide))
  case isFalse h =>
    have heq : (misses == 3) = true := by
      rw [beq_iff_eq]
      exact Fin.ext (by have := misses.isLt; show misses.val = 3; omega)
    rw [heq, Bool.or_true]
    refine ⟨rfl, rfl, rfl, rfl, ?_, ?_⟩
    · exact (clkBit_putBit_of_ne _ _ _ (by decide)).trans ((clkBit_clk ..).trans (if_pos rfl))
    · exact (congrArg (bit · 1) ((State.num_putBit ..).trans (if_pos rfl))).trans ((bit_setBit ..).trans (if_pos rfl))

/-! ### The frequency of XT1 -/

/-- At most one nominal lies within 10 % of a count. -/
theorem xt1Nominal_iff (count n : Nat) : xt1Nominal count = some n ↔
    n < 4 ∧ 10 * ((count : Int) - 1000 * (xt1Nominals.getD n 0 : Nat)).natAbs ≤ 1000 * xt1Nominals.getD n 0 := by
  unfold xt1Nominal
  rw [List.find?_range_eq_some]
  simp only [decide_eq_true_eq, List.mem_range, Nat.cast_mul, Nat.cast_ofNat, Bool.not_eq_true', decide_eq_false_iff_not]
  refine ⟨fun ⟨hnear, hlt, _⟩ => ⟨hlt, hnear⟩, fun ⟨hlt, hnear⟩ => ⟨hnear, hlt, fun j hj => ?_⟩⟩
  interval_cases n <;> interval_cases j <;> simp only [xt1Nominals, List.getD_cons_zero, List.getD_cons_succ] at hnear ⊢ <;> omega

/-! ### XT1 ready -/

theorem chooseFirmware_recorded (s : State) : ∃ c, Recorded { s with control := c } s.chooseFirmware := by
  unfold State.chooseFirmware
  simp only
  split
  · exact ⟨_, recorded_issueOpen _ 0x3C 0x27 0⟩
  · exact ⟨_, recorded_refl _⟩

theorem chooseFirmware_kept (s : State) : s.chooseFirmware.power = s.power ∧ s.chooseFirmware.integrity = s.integrity ∧
    ∀ i j, objKey i j ∉ recordKeys → s.chooseFirmware.num i j = s.num i j := by
  obtain ⟨c, hrec⟩ := chooseFirmware_recorded s
  refine ⟨?_, ?_, fun i j hk => recorded_num hrec i j hk⟩ <;>
  · obtain ⟨free, streams, od, dram, h, -⟩ := hrec
    rw [h]

/-- The state in which XT1 is ready: its nominal, the locks and the AVS loop. -/
def State.xt1Locked (s : State) (n : Nat) : State :=
  ((((((((s.put 0x1500 0x02 n).clk 3 true).clk 5 true).clk 6 true).clk 7 true).clk 8 true).clk 9 true).putBit 0x1300 0x15 0 true).domainsOnPll

theorem doXt1Ready_eq {s : State} {count n : Nat} (us : W32) (hup : s.power.bringUp = some 4) (hn : xt1Nominal count = some n) :
    doXt1Ready count us s = { (s.xt1Locked n).chooseFirmware.put 0x1700 0x21 1 with
      power := { (s.xt1Locked n).chooseFirmware.power with
        bringUp := some 6, bringUpUs := us.toNat, bringUpNs := (s.xt1Locked n).chooseFirmware.cyc, xt1Held := true
        pllsSince := some (s.xt1Locked n).chooseFirmware.cyc, pllmSince := some (s.xt1Locked n).chooseFirmware.cyc },
      integrity := { (s.xt1Locked n).chooseFirmware.integrity with bistMask := 0xFF, bistLeft := List.range 8, bistFailing := 0, bistStep6 := true } } := by
  unfold doXt1Ready
  rw [hn]
  exact if_pos (by simp [hup])

theorem xt1Locked_kept (s : State) (n : Nat) : (s.xt1Locked n).num 0x1500 0x02 = n ∧ (∀ b ∈ [3, 5, 6, 7, 8, 9], (s.xt1Locked n).clkBit b = true) ∧
    (∀ d, ((s.xt1Locked n).dom d).onPll = true) ∧ bit ((s.xt1Locked n).num 0x1300 0x15) 0 = true := by
  refine ⟨?_, fun b hb => ?_, fun d => ?_, ?_⟩
  · refine ((State.num_putBit ..).trans (if_neg (by decide))).trans ?_
    simp only [num_clk_of_ne _ _ _ (show objKey 0x1500 0x03 ≠ objKey 0x1500 0x02 by decide)]
    exact (State.num_put ..).trans (if_pos rfl)
  · refine (clkBit_putBit_of_ne _ _ _ (by decide)).trans ?_
    simp only [List.mem_cons, List.not_mem_nil, or_false] at hb
    rcases hb with rfl | rfl | rfl | rfl | rfl | rfl <;> simp [clkBit_clk]
  · match d with
    | 0 => rfl
    | 1 => rfl
    | 2 => rfl
    | 3 => rfl
  · exact (congrArg (bit · 0) ((State.num_putBit ..).trans (if_pos rfl))).trans ((bit_setBit ..).trans (if_pos rfl))

/-- What XT1 leaves when it is ready in step 4. -/
theorem doXt1Ready_taken {s : State} {count n : Nat} (us : W32) (hup : s.power.bringUp = some 4) (hn : xt1Nominal count = some n) :
    (doXt1Ready count us s).num 0x1500 0x02 = n ∧ (doXt1Ready count us s).power.bringUpUs = us.toNat ∧
      (∀ b ∈ [3, 5, 6, 7, 8, 9], (doXt1Ready count us s).clkBit b = true) ∧ (∀ d, ((doXt1Ready count us s).dom d).onPll = true) ∧
      bit ((doXt1Ready count us s).num 0x1300 0x15) 0 = true ∧ (doXt1Ready count us s).power.bringUp = some 6 ∧
      (doXt1Ready count us s).num 0x1700 0x21 = 1 ∧ (doXt1Ready count us s).integrity.bistLeft = List.range 8 := by
  obtain ⟨hnominal, hlocks, hdoms, havs⟩ := xt1Locked_kept s n
  obtain ⟨hpower, -, hnum⟩ := chooseFirmware_kept (s.xt1Locked n)
  have hput : ∀ i j, objKey 0x1700 0x21 ≠ objKey i j → objKey i j ∉ recordKeys →
      ((s.xt1Locked n).chooseFirmware.put 0x1700 0x21 1).num i j = (s.xt1Locked n).num i j := fun i j hne hk =>
    ((State.num_put ..).trans (if_neg hne)).trans (hnum i j hk)
  rw [doXt1Ready_eq us hup hn]
  refine ⟨(hput 0x1500 0x02 (by decide) (by decide)).trans hnominal, rfl, fun b hb => ?_, fun d => ?_, ?_, rfl, ?_, rfl⟩
  · exact (congrArg (bit · b) (hput 0x1500 0x03 (by decide) (by decide))).trans (hlocks b hb)
  · exact (congrArg (fun p : Power => (p.domains.get d).onPll) hpower).trans (hdoms d)
  · exact (congrArg (bit · 0) (hput 0x1300 0x15 (by decide) (by decide))).trans havs
  · exact (State.num_put (s.xt1Locked n).chooseFirmware 0x1700 0x21 1 0x1700 0x21).trans (if_pos rfl)

/-! ### The end of bring-up without XT1 -/

/-- The end of bring-up before its mode: two retired slices latched, the time reported, the boot message, and the converters. -/
def State.bringUpDone (s : State) : State :=
  let s := if 2 ≤ s.retiredSlices then s.latch [6] else s
  let s := s.put 0x1300 0x16 ((s.power.bringUpUs + (s.cyc - s.power.bringUpNs) / 1000) % 2 ^ 32)
  let s := if s.keeperServes then s.canSend (0x700 + s.num 0x1140 0x01) [0] else s
  { s with power := { s.power with bringUp := none, toSafe := false }, control := { s.control with bootMsg := true } }.startHka

theorem retired_kept (s : State) : (if 2 ≤ s.retiredSlices then s.latch [6] else s).power = s.power ∧
    (if 2 ≤ s.retiredSlices then s.latch [6] else s).cyc = s.cyc ∧
    (∀ k, objKey 0x1700 0x10 ≠ k → (if 2 ≤ s.retiredSlices then s.latch [6] else s).val k = s.val k) ∧
    ∀ b, bit (s.num 0x1700 0x10) b = true → bit ((if 2 ≤ s.retiredSlices then s.latch [6] else s).num 0x1700 0x10) b = true := by
  split
  · exact ⟨latch_power _ _, rfl, fun k hk => latch_val _ _ hk, fun b hb => bit_latch [6] s b (.inr hb)⟩
  · exact ⟨rfl, rfl, fun _ _ => rfl, fun _ hb => hb⟩

theorem bringUpDone_kept (s : State) :
    s.bringUpDone.power = { s.power with bringUp := none, toSafe := false } ∧
      s.bringUpDone.num 0x1300 0x16 = (s.power.bringUpUs + (s.cyc - s.power.bringUpNs) / 1000) % 2 ^ 32 ∧
      (∀ k, objKey 0x1700 0x10 ≠ k → objKey 0x1300 0x16 ≠ k → s.bringUpDone.val k = s.val k) ∧
      ∀ b, bit (s.num 0x1700 0x10) b = true → bit (s.bringUpDone.num 0x1700 0x10) b = true := by
  obtain ⟨hpower, hcyc, hval, hbit⟩ := retired_kept s
  have hsend : ∀ u : State, (if u.keeperServes then u.canSend (0x700 + u.num 0x1140 0x01) [0] else u).power = u.power ∧
      (if u.keeperServes then u.canSend (0x700 + u.num 0x1140 0x01) [0] else u).od = u.od := by
    intro u
    split
    · exact ⟨rfl, rfl⟩
    · exact ⟨rfl, rfl⟩
  unfold State.bringUpDone
  simp only
  generalize (if 2 ≤ s.retiredSlices then s.latch [6] else s) = r at hpower hcyc hval hbit ⊢
  obtain ⟨hpower', hod⟩ := hsend (r.put 0x1300 0x16 ((r.power.bringUpUs + (r.cyc - r.power.bringUpNs) / 1000) % 2 ^ 32))
  generalize (if (r.put 0x1300 0x16 _).keeperServes then _ else _ : State) = w at hpower' hod ⊢
  have hput : ∀ k, w.val k = (r.put 0x1300 0x16 ((r.power.bringUpUs + (r.cyc - r.power.bringUpNs) / 1000) % 2 ^ 32)).val k :=
    fun k => congrArg (fun d => dictGet d k) hod
  refine ⟨?_, ?_, fun k h1 h2 => ?_, fun b hb => ?_⟩
  · exact congrArg (fun p : Power => { p with bringUp := none, toSafe := false }) (hpower'.trans hpower)
  · refine (congrArg Val.toNat (hput (objKey 0x1300 0x16))).trans ((State.num_put r 0x1300 0x16 _ 0x1300 0x16).trans ((if_pos rfl).trans ?_))
    rw [hpower, hcyc]
  · exact (hput k).trans ((val_put_of_ne h2).trans (hval k h1))
  · refine Eq.trans (congrArg (bit · b) ?_) (hbit b hb)
    exact (congrArg Val.toNat (hput (objKey 0x1700 0x10))).trans (congrArg Val.toNat (val_put_of_ne (by decide)))

/-- Where the device is to go to SAFE, bring-up ends there with its time reported. -/
theorem endBringUp_safe {s : State} (hsafe : s.power.toSafe = true) :
    s.endBringUp.num 0x1300 0x16 = (s.power.bringUpUs + (s.cyc - s.power.bringUpNs) / 1000) % 2 ^ 32 ∧ s.endBringUp.mode = 7 ∧
      s.endBringUp.power.bringUp = none ∧ s.endBringUp.power.safeRequest = true ∧ (∀ b, s.endBringUp.clkBit b = s.clkBit b) ∧
      ∀ b, bit (s.num 0x1700 0x10) b = true → bit (s.endBringUp.num 0x1700 0x10) b = true := by
  have hguard : ((if 2 ≤ s.retiredSlices then s.latch [6] else s).power.toSafe ||
      decide (2 ≤ (if 2 ≤ s.retiredSlices then s.latch [6] else s).retiredSlices)) = true := by
    rw [(retired_kept s).1, hsafe, Bool.true_or]
  have hend : s.endBringUp = ((s.bringUpDone.assertSafe.setMode 7).put 0x1300 0x10 0).driveFault := if_pos hguard
  obtain ⟨hpowerB, htime, hvalB, hbit⟩ := bringUpDone_kept s
  obtain ⟨u, ⟨-, -, -, hpower, -, hval⟩, hset⟩ := setMode_quiet s.bringUpDone.assertSafe 7
  have hmode : s.endBringUp.mode = 7 := by
    rw [hend, hset]
    exact (State.num_put _ 0x1300 0x10 0 0x1300 0x02).trans ((if_neg (by decide)).trans ((State.num_put u 0x1300 0x02 7 0x1300 0x02).trans (if_pos rfl)))
  rw [hset] at hend
  have hother : ∀ k, statusKey k → objKey 0x1300 0x02 ≠ k → objKey 0x1300 0x10 ≠ k → s.endBringUp.val k = s.bringUpDone.val k := by
    intro k hk h02 h10
    rw [hend]
    exact (driveFault_val _ k).trans ((val_put_of_ne h10).trans ((val_put_of_ne h02).trans (hval k hk)))
  refine ⟨?_, hmode, ?_, ?_, fun b => ?_, fun b hb => ?_⟩
  · exact (congrArg Val.toNat (hother (objKey 0x1300 0x16) (by decide) (by decide) (by decide))).trans htime
  · rw [hend]
    exact (congrArg Power.bringUp hpower :).trans (congrArg Power.bringUp hpowerB)
  · rw [hend]
    exact (congrArg Power.safeRequest hpower :)
  · exact congrArg (fun x : Val => bit x.toNat b) ((hother (objKey 0x1500 0x03) (by decide) (by decide) (by decide)).trans
      (hvalB _ (by decide) (by decide)))
  · exact (congrArg (fun x : Val => bit x.toNat b) (hother (objKey 0x1700 0x10) (by decide) (by decide) (by decide))).trans (hbit b hb)

/-- Bring-up is to end in SAFE 1 s after step 3. -/
def State.missXt1 (s : State) : State := { s with power := { s.power with toSafe := true, bringUpUs := 1015000, bringUpNs := s.cyc } }

theorem doXt1ReadyTimeout_taken {s : State} (hup : s.power.bringUp = some 4) :
    (doXt1ReadyTimeout s).num 0x1300 0x16 = 1015000 ∧ (doXt1ReadyTimeout s).mode = 7 ∧ (doXt1ReadyTimeout s).power.bringUp = none ∧
      (doXt1ReadyTimeout s).power.safeRequest = true ∧ (doXt1ReadyTimeout s).clkBit 13 = true ∧
      bit ((doXt1ReadyTimeout s).num 0x1700 0x10) 0 = true := by
  have hrec := recorded_issueOpen ((s.clk 13 true).latch [0]) 0x34 0x27 0
  have hdo : doXt1ReadyTimeout s = (((s.clk 13 true).latch [0]).issueOpen 0x34 0x27 0).missXt1.endBringUp := if_neg (by simp [hup])
  rw [hdo]
  generalize ((s.clk 13 true).latch [0]).issueOpen 0x34 0x27 0 = u at hrec
  obtain ⟨htime, hmode, hup', hsafe, hclk, hbit⟩ := endBringUp_safe (s := u.missXt1) rfl
  refine ⟨htime.trans ?_, hmode, hup', hsafe, (hclk 13).trans ?_, hbit 0 ?_⟩
  · show (1015000 + (u.cyc - u.cyc) / 1000) % 2 ^ 32 = 1015000
    rw [Nat.sub_self]
    rfl
  · refine (congrArg (bit · 13) (recorded_num hrec 0x1500 0x03 (by decide))).trans ?_
    exact (congrArg (fun x : Val => bit x.toNat 13) (latch_val [0] (s.clk 13 true) (by decide))).trans ((clkBit_clk s 13 13 true).trans (if_pos rfl))
  · exact (congrArg (bit · 0) (recorded_num hrec 0x1700 0x10 (by decide))).trans (bit_latch [0] _ 0 (.inl (by decide)))

theorem faultCause_of_bringUp {s : State} {k : Nat} (h : s.power.bringUp = some k) (hk : k < 3) : s.faultCause = true := by
  simp [State.faultCause, h, hk]

/-- The Keepers' tests are passed: the control domain is enabled. -/
def State.testsPassed (s : State) : State := { s with power := { s.power with bringUp := some 4 } }

/-- The release of reset with the Keepers' tests passed. -/
theorem doResetRelease_passed {s : State} {misses : Fin 4} (hvaon : s.power.vaon = true) (hsupply : s.power.supplyOk = true)
    (hup : s.power.bringUp = some 0) :
    (doResetRelease true misses s).power.bringUp = some 4 ∧ (doResetRelease true misses s).power.resetLow = false ∧
      (doResetRelease true misses s).clkBit 2 = true ∧
      bit ((doResetRelease true misses s).num 0x1300 0x15) 1 = (bit (s.num 0x1300 0x15) 1 || misses == 3) ∧
      (doResetRelease true misses s).out = s.out ++ List.replicate (min misses.val 2 + 1) (.avs 850) := by
  obtain ⟨hout, -, hreset, -, h2, havs⟩ := firstSteps_kept s misses
  have hdo : doResetRelease true misses s = (s.firstSteps misses).testsPassed.claim.driveFault := doResetRelease_eq true misses hvaon hsupply hup
  rw [hdo]
  generalize s.firstSteps misses = u at hout hreset h2 havs
  obtain ⟨hout', hup', hreset', hval⟩ := claim_kept u.testsPassed
  refine ⟨hup', hreset'.trans hreset, ?_, ?_, hout'.trans hout⟩
  · exact (congrArg (fun x : Val => bit x.toNat 2) (hval (objKey 0x1500 0x03) (by decide) (by decide))).trans h2
  · exact (congrArg (fun x : Val => bit x.toNat 1) (hval (objKey 0x1300 0x15) (by decide) (by decide))).trans havs

theorem doResetRelease_holder {s : State} {misses : Fin 4} (hvaon : s.power.vaon = true) (hsupply : s.power.supplyOk = true)
    (hup : s.power.bringUp = some 0) :
    (s.arbiter.stateA ≠ .retired → s.arbiter.holder ≠ some .b ∨ s.arbiter.stateB = .retired →
      (doResetRelease true misses s).arbiter.holder = some .a) ∧
    (s.arbiter.stateB ≠ .retired → s.arbiter.holder = some .b ∨ s.arbiter.stateA = .retired →
      (doResetRelease true misses s).arbiter.holder = some .b) ∧
    (s.arbiter.stateA = .retired → s.arbiter.stateB = .retired → (doResetRelease true misses s).arbiter.holder = none ∧
      (doResetRelease true misses s).power.dead = true ∧ (doResetRelease true misses s).power.safeRequest = true) := by
  obtain ⟨-, harbiter, -⟩ := firstSteps_kept s misses
  have hdo : doResetRelease true misses s = (s.firstSteps misses).testsPassed.claim.driveFault := doResetRelease_eq true misses hvaon hsupply hup
  rw [hdo, ← harbiter]
  exact claim_holder (s.firstSteps misses).testsPassed

/-- Settles O40. -/
theorem bringUpFollowsItsSteps : Obligations.BringUpFollowsItsSteps := by
  unfold Obligations.BringUpFollowsItsSteps
  intro s count n us misses a avs
  refine ⟨fun hvaon hsupply hup => ⟨?_, ?_⟩, fun hup hn => ?_, xt1Nominal_iff count n, fun hup _ => ?_⟩
  · obtain ⟨hup', hreset, h2, havs, hout⟩ := doResetRelease_passed (misses := misses) hvaon hsupply hup
    obtain ⟨hA, hB, hnone⟩ := doResetRelease_holder (misses := misses) hvaon hsupply hup
    exact ⟨_, rfl, hup', hreset, h2, havs, hout, hA, hB, hnone⟩
  · obtain ⟨hout, harbiter, -, hup', -⟩ := firstSteps_kept s misses
    refine ⟨_, next_of_eq (u := doResetRelease false misses s) rfl (doResetRelease_eq false misses hvaon hsupply hup), hout, hup', rfl, harbiter, ?_⟩
    exact (State.settle_faultN _).trans (congrArg (!·) (faultCause_of_bringUp hup' (by decide)))
  · exact ⟨_, rfl, doXt1Ready_taken us hup hn⟩
  · exact ⟨_, rfl, doXt1ReadyTimeout_taken hup⟩

end Sys2Proof.Machine

/-! The test port (R436, R458) and the watch over the Keepers (R459, R460). -/

namespace Sys2Proof.Machine

open Sys2Proof Sys2Proof.Safety

/-! ### The test port -/

/-- A rising edge moves the controller, and shifts in a shift state. -/
theorem rise_kept (j : Jtag) (scan tms tdi : Bool) :
    (j.rise scan tms tdi).tap = tapNext j.tap tms ∧ ((j.rise scan tms tdi).tap = 0 → (j.rise scan tms tdi).ir = none) ∧
      (j.tap = 4 → (j.rise scan tms tdi).dr = j.dr.tail ++ [tdi]) ∧ (j.tap = 11 → (j.rise scan tms tdi).irShift = j.irShift.tail ++ [tdi]) := by
  unfold Jtag.rise
  simp only
  split
  case h_1 h => exact ⟨rfl, fun h0 => if_pos h0, fun h4 => absurd (h.symm.trans h4) (by decide), fun h11 => absurd (h.symm.trans h11) (by decide)⟩
  case h_2 h => exact ⟨rfl, fun h0 => if_pos h0, fun _ => rfl, fun h11 => absurd (h.symm.trans h11) (by decide)⟩
  case h_3 h => exact ⟨rfl, fun h0 => if_pos h0, fun h4 => absurd (h.symm.trans h4) (by decide), fun h11 => absurd (h.symm.trans h11) (by decide)⟩
  case h_4 h => exact ⟨rfl, fun h0 => if_pos h0, fun h4 => absurd (h.symm.trans h4) (by decide), fun _ => rfl⟩
  case h_5 h4' h11' => exact ⟨rfl, fun h0 => if_pos h0, fun h4 => absurd h4 (by assumption), fun h11 => absurd h11 (by assumption)⟩

theorem fall_shiftDr {j : Jtag} (h : j.tap = 4) : j.fall = { j with tdo := j.dr.headD false, driven := true, tckHigh := false } := by
  cases j
  cases h
  rfl

theorem fall_updateIr {j : Jtag} (h : j.tap = 15) : j.fall = { j with ir := some (ofBits j.irShift), driven := false, tckHigh := false } := by
  cases j
  cases h
  rfl

/-- Five steps with TMS high reach Test-Logic-Reset from every state. -/
theorem tapNext_five (n : Nat) : tapNext (tapNext (tapNext (tapNext (tapNext n true) true) true) true) true = 0 := by
  match n with
  | 0 | 1 | 2 | 3 | 4 | 5 | 6 | 7 | 8 | 9 | 10 | 11 | 12 | 13 | 14 | 15 => rfl
  | _ + 16 => rfl

section
variable {s : State} (hmode : 2 ≤ s.mode)
include hmode

theorem doTckEdge_rise (tms tdi : Bool) : doTckEdge true tms tdi s = { s with jtag := s.jtag.rise s.integrity.scan tms tdi } :=
  (if_neg (by simp; omega)).trans (if_pos rfl)

theorem doTckEdge_fall (tms tdi : Bool) : doTckEdge false tms tdi s =
    if s.jtag.fall.driven then ({ s with jtag := s.jtag.fall } : State).emit (.tdo s.jtag.fall.tdo) else { s with jtag := s.jtag.fall } :=
  (if_neg (by simp; omega)).trans (if_neg (by decide))

theorem rise_of_exec {t : State} {tdi : Bool} (h : exec (.tckEdge true true tdi) s = .next t) :
    2 ≤ t.mode ∧ t.jtag = s.jtag.rise s.integrity.scan true tdi := by
  obtain rfl : (doTckEdge true true tdi s).settle = t := Host.Outcome.next.inj h
  rw [doTckEdge_rise hmode]
  exact ⟨hmode, rfl⟩

end

/-- Settles O48. -/
theorem testPortFollowsItsController : Obligations.TestPortFollowsItsController := by
  unfold Obligations.TestPortFollowsItsController
  intro s s1 s2 s3 s4 s5 tms tdi d0 d1 d2 d3 d4 j
  refine ⟨fun hmode => ?_, fun hmode htap => ?_, fun hmode htap => ?_, fun hmode h1 h2 h3 h4 h5 => ?_, fun hmode => ?_⟩
  · obtain ⟨htap, -, hdr, hir⟩ := rise_kept j s.integrity.scan tms tdi
    exact ⟨_, next_of_eq (u := doTckEdge true tms tdi s) rfl (doTckEdge_rise hmode tms tdi), htap, hdr, hir, rfl, rfl⟩
  · have hfall := fall_shiftDr (j := s.jtag) htap
    refine ⟨_, next_of_eq (u := doTckEdge false tms tdi s) rfl ((doTckEdge_fall hmode tms tdi).trans (if_pos (by rw [hfall]))), ?_⟩
    rw [hfall]
    rfl
  · have hfall := fall_updateIr (j := s.jtag) htap
    refine ⟨_, next_of_eq (u := doTckEdge false tms tdi s) rfl ((doTckEdge_fall hmode tms tdi).trans (if_neg ?_)), ?_, rfl⟩
    · rw [hfall]
      exact Bool.false_ne_true
    · rw [hfall]
      rfl
  · obtain ⟨hmode1, hj1⟩ := rise_of_exec hmode h1
    obtain ⟨hmode2, hj2⟩ := rise_of_exec hmode1 h2
    obtain ⟨hmode3, hj3⟩ := rise_of_exec hmode2 h3
    obtain ⟨hmode4, hj4⟩ := rise_of_exec hmode3 h4
    obtain ⟨-, hj5⟩ := rise_of_exec hmode4 h5
    have htap : s5.jtag.tap = 0 := by
      rw [hj5, (rise_kept ..).1, hj4, (rise_kept ..).1, hj3, (rise_kept ..).1, hj2, (rise_kept ..).1, hj1, (rise_kept ..).1]
      exact tapNext_five _
    refine ⟨htap, ?_⟩
    rw [hj5] at htap ⊢
    obtain ⟨-, hir, -⟩ := rise_kept s4.jtag s4.integrity.scan true d4
    exact hir htap
  · exact next_of_eq (u := doTckEdge true tms tdi s) rfl (if_pos (by simp; omega))

/-! ### Keepers that stop -/

/-- Records leave authority, control memory, the power state and the tests. -/
theorem recorded_fields {s t : State} (h : Recorded s t) :
    t.arbiter = s.arbiter ∧ t.control = s.control ∧ t.power = s.power ∧ t.integrity = s.integrity := by
  obtain ⟨free, streams, od, dram, h, -⟩ := h
  rw [h]
  exact ⟨rfl, rfl, rfl, rfl⟩

theorem stateOf_setState (a : Arbiter) (k j : Keeper) (x : KeeperState) : (a.setState k x).stateOf j = if j = k then x else a.stateOf j := by
  cases k <;> cases j <;> rfl

theorem holder_setState (a : Arbiter) (k : Keeper) (x : KeeperState) : (a.setState k x).holder = a.holder := by cases k <;> rfl

theorem epoch_setState (a : Arbiter) (k : Keeper) (x : KeeperState) : (a.setState k x).epoch = a.epoch := by cases k <;> rfl

theorem stateOf_setMiss (a : Arbiter) (k j : Keeper) (n : Nat) : (a.setMiss k n).stateOf j = a.stateOf j := by cases k <;> cases j <;> rfl

theorem holder_setMiss (a : Arbiter) (k : Keeper) (n : Nat) : (a.setMiss k n).holder = a.holder := by cases k <;> rfl

theorem epoch_setMiss (a : Arbiter) (k : Keeper) (n : Nat) : (a.setMiss k n).epoch = a.epoch := by cases k <;> rfl

theorem otherKeeper_ne (k : Keeper) : otherKeeper k ≠ k := by cases k <;> decide

/-- A Keeper takes authority from another: the epoch is one higher. -/
theorem grant_changed {s : State} {k : Keeper} (h : s.arbiter.holder ≠ some k) :
    (s.grant k).arbiter = { s.arbiter.setState k .active with holder := some k, epoch := (s.arbiter.epoch + 1) % 2 ^ 32 } ∧
      (s.grant k).control = s.control ∧ (s.grant k).integrity = s.integrity := by
  have hne : (s.arbiter.holder != some k) = true := by simpa using h
  have hgrant : s.grant k = ({ s with arbiter := { s.arbiter.setState k .active with
      holder := some k, epoch := (s.arbiter.epoch + 1) % 2 ^ 32 } } : State).issue 0x25 0x27 (keeperNum k) ((s.arbiter.epoch + 1) % 2 ^ 32 : Nat) := by
    simp only [State.grant, hne, if_true]
  obtain ⟨harbiter, hcontrol, -, hintegrity⟩ := recorded_fields (recorded_issue ({ s with arbiter := { s.arbiter.setState k .active with
      holder := some k, epoch := (s.arbiter.epoch + 1) % 2 ^ 32 } } : State) 0x25 0x27 (keeperNum k) ((s.arbiter.epoch + 1) % 2 ^ 32 : Nat))
  rw [hgrant]
  exact ⟨harbiter, hcontrol, hintegrity⟩

/-- What follows where Keeper k stops from authority a with admissions adm: a Keeper in STANDBY takes authority from it, with none the safe
request is asserted, and authority that it did not hold stands. -/
def KeeperStops (a : Arbiter) (adm : List Admission) (k : Keeper) (t : State) : Prop :=
  t.arbiter.stateOf k = .stopped ∧
  (a.holder = some k → a.stateOf (otherKeeper k) = .standby → t.arbiter.holder = some (otherKeeper k) ∧
    t.arbiter.stateOf (otherKeeper k) = .active ∧ t.arbiter.epoch = (a.epoch + 1) % 2 ^ 32 ∧ t.control.admission = adm.filter Admission.isBoot) ∧
  (a.holder = some k → a.stateOf (otherKeeper k) ≠ .standby → t.arbiter.holder = none ∧ t.power.dead = true ∧ t.power.safeRequest = true) ∧
  (a.holder ≠ some k → t.arbiter.holder = a.holder ∧ t.arbiter.epoch = a.epoch ∧ t.arbiter.stateOf (otherKeeper k) = a.stateOf (otherKeeper k))

/-- Keeper k is marked STOPPED. -/
def State.fenced (s : State) (k : Keeper) : State := { s with arbiter := s.arbiter.setState k .stopped }

theorem stopKeeper_transfer {s : State} {k : Keeper} (hheld : s.arbiter.holder = some k) (hother : s.arbiter.stateOf (otherKeeper k) = .standby) :
    s.stopKeeper k = ((s.fenced k).transferControl.grant (otherKeeper k)).bump 0x1700 0x62 1 := by
  have hstate : (s.arbiter.setState k .stopped).stateOf (otherKeeper k) = .standby := by
    rw [stateOf_setState, if_neg (otherKeeper_ne k), hother]
  have hguard : ((s.fenced k).arbiter.stateOf (otherKeeper k) == .standby) = true := by
    rw [State.fenced, hstate]
    rfl
  exact (if_pos (by rw [hheld]; exact beq_self_eq_true _)).trans (if_pos hguard)

theorem stopKeeper_none {s : State} {k : Keeper} (hheld : s.arbiter.holder = some k) (hother : s.arbiter.stateOf (otherKeeper k) ≠ .standby) :
    s.stopKeeper k = (s.fenced k).noKeeper := by
  have hstate : (s.arbiter.setState k .stopped).stateOf (otherKeeper k) ≠ .standby := by
    rw [stateOf_setState, if_neg (otherKeeper_ne k)]
    exact hother
  have hguard : ((s.fenced k).arbiter.stateOf (otherKeeper k) == .standby) = false := beq_false_of_ne hstate
  exact (if_pos (by rw [hheld]; exact beq_self_eq_true _)).trans (if_neg (ne_true_of_eq_false hguard))

theorem stopKeeper_other {s : State} {k : Keeper} (hheld : s.arbiter.holder ≠ some k) : s.stopKeeper k = s.fenced k :=
  if_neg (by simpa using hheld)

theorem dropRoute_fields (s : State) (r : Route) : (s.dropRoute r).arbiter = s.arbiter ∧ (s.dropRoute r).integrity = s.integrity := by
  cases r <;> exact ⟨rfl, rfl⟩

theorem surveyFail_fields (s : State) (n : Nat) : (s.surveyFail n).arbiter = s.arbiter ∧ (s.surveyFail n).integrity = s.integrity := by
  have hend : ∀ (u : State) r, (u.endAprPhase r).arbiter = u.arbiter ∧ (u.endAprPhase r).integrity = u.integrity := by
    intro u r
    refine ⟨?_, ?_⟩ <;> cases r <;> simp only [State.endAprPhase] <;> split_ifs <;> rfl
  unfold State.surveyFail
  split_ifs
  · exact ⟨((hend _ .b).1.trans (hend s .a).1 :), ((hend _ .b).2.trans (hend s .a).2 :)⟩
  · exact ⟨rfl, rfl⟩
  · exact ⟨rfl, rfl⟩

theorem stopSensing_fields (s : State) : s.stopSensing.arbiter = s.arbiter ∧ s.stopSensing.integrity = s.integrity := by
  obtain ⟨ha, hi⟩ := surveyFail_fields ((s.dropRoute .a).dropRoute .b) 1
  obtain ⟨haB, hiB⟩ := dropRoute_fields (s.dropRoute .a) .b
  obtain ⟨haA, hiA⟩ := dropRoute_fields s .a
  exact ⟨ha.trans (haB.trans haA), hi.trans (hiB.trans hiA)⟩

theorem stopKeeper_stops (s : State) (k : Keeper) : KeeperStops s.arbiter s.control.admission k (s.stopKeeper k) := by
  have hself : (s.arbiter.setState k .stopped).stateOf k = .stopped := by rw [stateOf_setState, if_pos rfl]
  by_cases hheld : s.arbiter.holder = some k
  · by_cases hother : s.arbiter.stateOf (otherKeeper k) = .standby
    · rw [stopKeeper_transfer hheld hother]
      have hholder : (s.fenced k).transferControl.arbiter.holder ≠ some (otherKeeper k) := by
        show (s.arbiter.setState k .stopped).holder ≠ _
        rw [holder_setState, hheld]
        exact fun h => otherKeeper_ne k (Option.some.inj h).symm
      obtain ⟨harbiter, hcontrol, -⟩ := grant_changed hholder
      have hset : ∀ (e : Nat) (j : Keeper), ({ (s.fenced k).transferControl.arbiter.setState (otherKeeper k) .active with
          holder := some (otherKeeper k), epoch := e } : Arbiter).stateOf j =
            if j = otherKeeper k then .active else if j = k then .stopped else s.arbiter.stateOf j := by
        intro e j
        show ((s.arbiter.setState k .stopped).setState (otherKeeper k) .active).stateOf j = _
        rw [stateOf_setState, stateOf_setState]
      refine ⟨?_, fun _ _ => ⟨?_, ?_, ?_, ?_⟩, fun _ h => absurd hother h, fun h => absurd hheld h⟩
      · rw [State.bump_arbiter, harbiter, hset, if_neg (otherKeeper_ne k).symm, if_pos rfl]
      · rw [State.bump_arbiter, harbiter]
      · rw [State.bump_arbiter, harbiter, hset, if_pos rfl]
      · rw [State.bump_arbiter, harbiter]
        show ((s.arbiter.setState k .stopped).epoch + 1) % 2 ^ 32 = _
        rw [epoch_setState]
      · rw [State.bump_control, hcontrol]
        rfl
    · rw [stopKeeper_none hheld hother]
      obtain ⟨-, -, -, -, hholder, hdead, hsafe⟩ := noKeeper_kept (s.fenced k)
      refine ⟨?_, fun _ h => absurd h hother, fun _ _ => ⟨hholder, hdead, hsafe⟩, fun h => absurd hheld h⟩
      have harbiter : (s.fenced k).stopSensing.arbiter.stateOf k = .stopped := by
        rw [(stopSensing_fields (s.fenced k)).1]
        exact hself
      cases k <;> exact harbiter
  · rw [stopKeeper_other hheld]
    refine ⟨hself, fun h => absurd h hheld, fun h => absurd h hheld, fun _ => ⟨holder_setState .., epoch_setState .., ?_⟩⟩
    exact (stateOf_setState ..).trans (if_neg (otherKeeper_ne k))

theorem stopKeeper_mismatches (s : State) (k : Keeper) : (s.stopKeeper k).val (objKey 0x1700 0x63) = s.val (objKey 0x1700 0x63) := by
  by_cases hheld : s.arbiter.holder = some k
  · by_cases hother : s.arbiter.stateOf (otherKeeper k) = .standby
    · rw [stopKeeper_transfer hheld hother]
      obtain ⟨⟨-, -, -, -, -, hval⟩, -⟩ := grant_kept (s.fenced k).transferControl (otherKeeper k)
      exact (val_put_of_ne (by decide)).trans ((hval _ (by decide)).trans (reportDraft_val (by decide) (by decide) (by decide)))
    · rw [stopKeeper_none hheld hother]
      obtain ⟨-, -, -, hval, -⟩ := noKeeper_kept (s.fenced k)
      exact hval _ (by decide)
  · rw [stopKeeper_other hheld]
    rfl

theorem recorded_stopRecord (s : State) (k : Keeper) (type : Nat) : Recorded s (s.stopRecord k type) := by
  unfold State.stopRecord
  split
  · exact recorded_streams s _
  · exact recorded_issue ..

/-- A unit in which an error is detected is under test, and nothing but the tests and their count changes. -/
theorem detect_kept (s : State) (u : TestUnit) (failed : Bool) : (s.detect u failed).testing u = true ∧
    (s.detect u failed).arbiter = s.arbiter ∧ (s.detect u failed).control = s.control ∧ (s.detect u failed).power = s.power ∧
    ∀ k, objKey 0x1700 0x12 ≠ k → (s.detect u failed).val k = s.val k := by
  unfold State.detect
  split
  case isTrue h => exact ⟨h, rfl, rfl, rfl, fun _ _ => rfl⟩
  case isFalse => exact ⟨by simp [State.testing], rfl, rfl, rfl, fun k hk => val_put_of_ne hk⟩

/-- Keeper k is stopped, with its record, and is tested. -/
def State.stopAndTest (s : State) (k : Keeper) (type : Nat) : State := ((s.stopRecord k type).stopKeeper k).detect (.keeper k) false

theorem stopAndTest_stops (s : State) (k : Keeper) (type : Nat) :
    KeeperStops s.arbiter s.control.admission k (s.stopAndTest k type) ∧ (s.stopAndTest k type).testing (.keeper k) = true ∧
      (s.stopAndTest k type).val (objKey 0x1700 0x63) = s.val (objKey 0x1700 0x63) := by
  have hrec := recorded_stopRecord s k type
  obtain ⟨harbiter, hcontrol, -, -⟩ := recorded_fields hrec
  have hstops := stopKeeper_stops (s.stopRecord k type) k
  rw [harbiter, hcontrol] at hstops
  obtain ⟨htest, harbiter', hcontrol', hpower', hval'⟩ := detect_kept ((s.stopRecord k type).stopKeeper k) (.keeper k) false
  obtain ⟨-, -, -, -, -, hval⟩ := quiet_recorded hrec
  refine ⟨?_, htest, (hval' _ (by decide)).trans ((stopKeeper_mismatches ..).trans (hval _ (by decide)))⟩
  unfold KeeperStops at hstops ⊢
  rw [State.stopAndTest, harbiter', hcontrol', hpower']
  exact hstops

/-! ### Windows -/

theorem keeperUp_eq {s t : State} (hmode : t.mode = s.mode) (hpower : t.power = s.power) (hint : t.integrity = s.integrity) {k : Keeper}
    (hstate : t.arbiter.stateOf k = s.arbiter.stateOf k) : t.keeperUp k = s.keeperUp k := by
  simp only [State.keeperUp, State.keepersRun, hmode, hpower, hint, hstate]

theorem keeperUp_setMiss (s : State) (k j : Keeper) (n : Nat) :
    ({ s with arbiter := s.arbiter.setMiss k n } : State).keeperUp j = s.keeperUp j :=
  keeperUp_eq (s := s) (t := { s with arbiter := s.arbiter.setMiss k n }) rfl rfl rfl (stateOf_setMiss ..)

theorem keeperUp_bump (s : State) (j : Keeper) {i k n : Nat} (h : objKey i k ≠ objKey 0x1300 0x02) : (s.bump i k n).keeperUp j = s.keeperUp j :=
  keeperUp_eq (congrArg Val.toNat (val_put_of_ne h)) rfl rfl rfl

section
variable {s : State} {k : Keeper} (hup : s.keeperUp k = true)
include hup

theorem keepersRun_of_up : s.keepersRun = true := by
  unfold State.keeperUp at hup
  exact (Bool.and_eq_true_iff.mp hup).1

theorem judgeBeat_beat : s.judgeBeat k true = { s with arbiter := s.arbiter.setMiss k 0 } := (ite_not_true hup).trans (if_pos rfl)

/-- A window of Keeper k is missed: it is counted. -/
def State.missed (s : State) (k : Keeper) : State :=
  { s.bump 0x1700 0x64 1 with arbiter := s.arbiter.setMiss k (s.arbiter.missOf k + 1) }

theorem judgeBeat_missed (h : s.arbiter.missOf k < 2) : s.judgeBeat k false = s.missed k :=
  (ite_not_true hup).trans ((if_neg Bool.false_ne_true).trans (if_pos (Nat.succ_lt_succ h)))

theorem judgeBeat_third (h : s.arbiter.missOf k = 2) : s.judgeBeat k false =
    { (s.missed k).stopAndTest k 0x24 with arbiter := ((s.missed k).stopAndTest k 0x24).arbiter.setMiss k 3 } :=
  (ite_not_true hup).trans ((if_neg Bool.false_ne_true).trans (if_neg (by rw [h]; decide)))

end

theorem judgeBeat_down {s : State} {k : Keeper} (h : s.keeperUp k = false) (beat : Bool) : s.judgeBeat k beat = s := ite_not_false h

/-- Two states of the arbiter agree on who runs and who holds authority. -/
def SameAuthority (a b : Arbiter) : Prop := (∀ k, b.stateOf k = a.stateOf k) ∧ b.holder = a.holder ∧ b.epoch = a.epoch

theorem sameAuthority_setMiss (a : Arbiter) (k : Keeper) (n : Nat) : SameAuthority a (a.setMiss k n) :=
  ⟨fun _ => stateOf_setMiss .., holder_setMiss .., epoch_setMiss ..⟩

theorem keeperStops_congr {a b : Arbiter} {adm : List Admission} {k : Keeper} {t u : State} (hab : SameAuthority a b)
    (htu : SameAuthority t.arbiter u.arbiter) (hcontrol : u.control = t.control) (hpower : u.power = t.power) (h : KeeperStops a adm k t) :
    KeeperStops b adm k u := by
  obtain ⟨hstate, hholder, hepoch⟩ := hab
  obtain ⟨hstate', hholder', hepoch'⟩ := htu
  unfold KeeperStops at h ⊢
  rw [hstate, hholder, hepoch, hstate', hholder', hepoch', hstate', hcontrol, hpower]
  exact h

/-- A window in which a Keeper that runs gave its heartbeat. -/
theorem judgeBeat_kept {s : State} {k : Keeper} {beat : Bool} (h : s.keeperUp k = true → beat = true) :
    ∃ b, s.judgeBeat k beat = { s with arbiter := b } ∧ SameAuthority s.arbiter b ∧ ∀ j, j ≠ k → b.missOf j = s.arbiter.missOf j := by
  cases hup : s.keeperUp k with
  | true =>
    rw [h hup]
    refine ⟨_, judgeBeat_beat hup, sameAuthority_setMiss _ _ _, fun j hj => ?_⟩
    cases k <;> cases j <;> first | rfl | exact absurd rfl hj
  | false => exact ⟨_, judgeBeat_down hup beat, ⟨fun _ => rfl, rfl, rfl⟩, fun _ _ => rfl⟩

/-- Where Keeper k has stopped, a Keeper that did not run still does not. -/
theorem keeperUp_of_stops {s t : State} {k : Keeper} {adm : List Admission} (hrun : s.keepersRun = true) (h : KeeperStops s.arbiter adm k t)
    (hdown : s.keeperUp (otherKeeper k) = false) : t.keeperUp (otherKeeper k) = false := by
  have hstate : (s.arbiter.stateOf (otherKeeper k) == .active || s.arbiter.stateOf (otherKeeper k) == .standby) = false := by
    simpa [State.keeperUp, hrun] using hdown
  have hnot : s.arbiter.stateOf (otherKeeper k) ≠ .standby := by
    intro heq
    rw [heq] at hstate
    exact absurd hstate (by decide)
  obtain ⟨-, -, hnone, hother⟩ := h
  by_cases hheld : s.arbiter.holder = some k
  · obtain ⟨-, hdead, -⟩ := hnone hheld hnot
    simp [State.keeperUp, State.keepersRun, hdead]
  · obtain ⟨-, -, hsame⟩ := hother hheld
    rw [State.keeperUp, hsame, hstate, Bool.and_false]

/-- The third window missed in a row stops Keeper k. -/
theorem judgeBeat_third_stops {s : State} {k : Keeper} (hup : s.keeperUp k = true) (h : s.arbiter.missOf k = 2) :
    KeeperStops s.arbiter s.control.admission k (s.judgeBeat k false) ∧ (s.judgeBeat k false).testing (.keeper k) = true := by
  obtain ⟨hstops, htest, -⟩ := stopAndTest_stops (s.missed k) k 0x24
  rw [judgeBeat_third hup h]
  refine ⟨keeperStops_congr (a := (s.missed k).arbiter) ?_ (sameAuthority_setMiss _ _ _) rfl rfl hstops, htest⟩
  exact ⟨fun _ => (stateOf_setMiss ..).symm, (holder_setMiss ..).symm, (epoch_setMiss ..).symm⟩

/-- The end of a window judges Keeper A, then Keeper B. -/
theorem doHeartbeatWindow_eq {s : State} (hrun : s.keepersRun = true) : doHeartbeatWindow s =
    let t := (s.judgeBeat .a s.arbiter.beatA).judgeBeat .b s.arbiter.beatB
    { t with arbiter := { t.arbiter with beatA := false, beatB := false } } := ite_not_true hrun

theorem doHeartbeatWindow_stops {s : State} {k : Keeper} (hup : s.keeperUp k = true) (hbeat : s.arbiter.beatOf k = false)
    (hmiss : s.arbiter.missOf k = 2) (hother : s.keeperUp (otherKeeper k) = true → s.arbiter.beatOf (otherKeeper k) = true) :
    KeeperStops s.arbiter s.control.admission k (doHeartbeatWindow s) ∧ (doHeartbeatWindow s).testing (.keeper k) = true := by
  have hrun := keepersRun_of_up hup
  have hrefl : ∀ a : Arbiter, SameAuthority a a := fun a => ⟨fun _ => rfl, rfl, rfl⟩
  rw [doHeartbeatWindow_eq hrun]
  cases k with
  | a =>
    obtain ⟨hstops, htest⟩ := judgeBeat_third_stops hup hmiss
    rw [show s.arbiter.beatA = false from hbeat]
    obtain ⟨b, hb, hsame, -⟩ := judgeBeat_kept (s := s.judgeBeat .a false) (k := .b) (beat := s.arbiter.beatB) (fun hupB => by
      cases hdown : s.keeperUp .b with
      | true => exact hother hdown
      | false => exact absurd hupB (ne_true_of_eq_false (keeperUp_of_stops hrun hstops hdown)))
    rw [hb]
    exact ⟨keeperStops_congr (hrefl _) (t := s.judgeBeat .a false) ⟨fun j => (hsame.1 j ▸ by cases j <;> rfl), hsame.2.1, hsame.2.2⟩ rfl rfl hstops, htest⟩
  | b =>
    obtain ⟨b, hb, hsame, hmissB⟩ := judgeBeat_kept (s := s) (k := .a) (beat := s.arbiter.beatA) hother
    rw [show s.arbiter.beatB = false from hbeat, hb]
    have hupB : ({ s with arbiter := b } : State).keeperUp .b = true :=
      (keeperUp_eq (s := s) (t := { s with arbiter := b }) rfl rfl rfl (hsame.1 .b)).trans hup
    obtain ⟨hstops, htest⟩ := judgeBeat_third_stops hupB ((hmissB .b (by decide)).trans hmiss)
    refine ⟨keeperStops_congr (a := b) ⟨fun j => (hsame.1 j).symm, hsame.2.1.symm, hsame.2.2.symm⟩
      (t := ({ s with arbiter := b } : State).judgeBeat .b false) ⟨fun j => by cases j <;> rfl, rfl, rfl⟩ rfl rfl hstops, htest⟩

/-- A window that Keeper k missed and the other did not. -/
theorem doHeartbeatWindow_missed {s : State} {k : Keeper} (hup : s.keeperUp k = true) (hbeat : s.arbiter.beatOf k = false)
    (hmiss : s.arbiter.missOf k < 2) (hupO : s.keeperUp (otherKeeper k) = true) (hbeatO : s.arbiter.beatOf (otherKeeper k) = true) :
    (doHeartbeatWindow s).arbiter =
      (({ s.arbiter with beatA := false, beatB := false } : Arbiter).setMiss k (s.arbiter.missOf k + 1)).setMiss (otherKeeper k) 0 ∧
    (doHeartbeatWindow s).num 0x1700 0x64 = incWrap (s.num 0x1700 0x64) 1 32 := by
  have hcount : ∀ (u : State) (k : Keeper), (u.missed k).num 0x1700 0x64 = incWrap (u.num 0x1700 0x64) 1 32 := fun u _ =>
    (State.num_bump u 0x1700 0x64 1 0x1700 0x64).trans (if_pos rfl)
  have hmissed : ∀ (u : State) (k j : Keeper), (u.missed k).keeperUp j = u.keeperUp j := fun u k j =>
    keeperUp_eq (s := u) (t := u.missed k) (congrArg Val.toNat (val_put_of_ne (by decide))) rfl rfl (stateOf_setMiss ..)
  rw [doHeartbeatWindow_eq (keepersRun_of_up hup)]
  cases k with
  | a =>
    rw [show s.arbiter.beatA = false from hbeat, show s.arbiter.beatB = true from hbeatO, judgeBeat_missed hup hmiss,
      judgeBeat_beat ((hmissed s .a .b).trans hupO)]
    exact ⟨rfl, hcount s .a⟩
  | b =>
    rw [show s.arbiter.beatB = false from hbeat, show s.arbiter.beatA = true from hbeatO,
      judgeBeat_beat (k := .a) hupO,
      judgeBeat_missed ((keeperUp_setMiss s .a .b 0).trans hup) hmiss]
    exact ⟨rfl, hcount _ .b⟩

/-- Settles O45. -/
theorem keepersAreWatched : Obligations.KeepersAreWatched := by
  unfold Obligations.KeepersAreWatched
  intro s k a o stopped
  have hstopped : ∀ t : State, KeeperStops a s.control.admission k t → t.testing (.keeper k) = true → stopped t.settle := by
    intro t ⟨hself, hstandby, hnone, hother⟩ htest
    refine ⟨hself, htest, hstandby, fun hheld hnot => ?_, fun hheld => ?_⟩
    · obtain ⟨hholder, hdead, hsafe⟩ := hnone hheld hnot
      exact ⟨hholder, hdead, safeOutputs_settle hsafe⟩
    · obtain ⟨hholder, hepoch, -⟩ := hother hheld
      exact ⟨hholder, hepoch⟩
  refine ⟨fun hup => ?_, fun hupA hupB hbeatA hbeatB => ?_, fun hup hbeat hmiss hupO hbeatO => ?_, fun hup hbeat hmiss hother => ?_, fun hup => ?_,
    fun hdown => ?_, fun hrun => ?_⟩
  · refine next_of_eq (u := doKeeperHeartbeat k s) rfl ((if_pos hup).trans ?_)
    cases k <;> rfl
  · refine next_of_eq (u := doHeartbeatWindow s) rfl ((doHeartbeatWindow_eq (keepersRun_of_up hupA)).trans ?_)
    rw [show s.arbiter.beatA = true from hbeatA, show s.arbiter.beatB = true from hbeatB, judgeBeat_beat hupA,
      judgeBeat_beat ((keeperUp_setMiss s .a .b 0).trans hupB)]
    rfl
  · exact ⟨_, rfl, doHeartbeatWindow_missed hup hbeat hmiss hupO hbeatO⟩
  · obtain ⟨hstops, htest⟩ := doHeartbeatWindow_stops hup hbeat hmiss hother
    exact ⟨_, rfl, hstopped _ hstops htest⟩
  · obtain ⟨hstops, htest, hval⟩ := stopAndTest_stops (s.bump 0x1700 0x63 1) k 0x23
    refine ⟨_, next_of_eq (u := doLockstepMismatch k s) rfl (ite_not_true hup), hstopped _ hstops htest, ?_⟩
    exact (congrArg Val.toNat hval).trans ((State.num_bump ..).trans (if_pos rfl))
  · exact ⟨next_of_eq (u := doKeeperHeartbeat k s) rfl (if_neg (ne_true_of_eq_false hdown)),
      next_of_eq (u := doLockstepMismatch k s) rfl (ite_not_false hdown)⟩
  · exact next_of_eq (u := doHeartbeatWindow s) rfl (ite_not_false hrun)

end Sys2Proof.Machine

/-! Self-tests and BIST (R450 to R457). -/

namespace Sys2Proof.Machine

open Sys2Proof Sys2Proof.Safety

/-! ### What the loss of the links leaves -/

/-- State t keeps what BIST reports, in the integrity block and in the objects of OD 1700. -/
def BistKept (s t : State) : Prop := t.integrity = s.integrity ∧ ∀ k, k / 256 = 0x1700 → t.val k = s.val k

theorem bistKept_refl (s : State) : BistKept s s := ⟨rfl, fun _ _ => rfl⟩

theorem bistKept_trans {s t u : State} (h : BistKept s t) (h' : BistKept t u) : BistKept s u :=
  ⟨h'.1.trans h.1, fun k hk => (h'.2 k hk).trans (h.2 k hk)⟩

theorem bistKept_ite {s t u : State} {c : Prop} [Decidable c] (ht : BistKept s t) (hu : BistKept s u) : BistKept s (if c then t else u) := by
  split
  · exact ht
  · exact hu

theorem bistKept_foldl {α : Type} {f : State → α → State} (h : ∀ s x, BistKept s (f s x)) (l : List α) (s : State) : BistKept s (l.foldl f s) := by
  induction l generalizing s with
  | nil => exact bistKept_refl s
  | cons x l ih => exact bistKept_trans (h s x) (ih (f s x))

theorem bistKept_put (s : State) {i j : Nat} (n : Nat) (h : objKey i j / 256 ≠ 0x1700) : BistKept s (s.put i j n) :=
  ⟨rfl, fun _ hk => val_put_of_ne fun he => h (he ▸ hk)⟩

theorem bistKept_recorded {s t : State} (h : Recorded s t) : BistKept s t := by
  obtain ⟨-, -, -, hint⟩ := recorded_fields h
  obtain ⟨-, -, -, -, -, hval⟩ := quiet_recorded h
  exact ⟨hint, fun k hk => hval k (.inr hk)⟩

theorem bistKept_streams (s : State) (x : Streams) : BistKept s { s with streams := x } := ⟨rfl, fun _ _ => rfl⟩

theorem bistKept_modRoute (s : State) (r : Route) (f : RouteState → RouteState) : BistKept s (s.modRoute r f) := by
  cases r <;> exact ⟨rfl, fun _ _ => rfl⟩

theorem bistKept_streamCount (s : State) (st n : Nat) {j : Nat} (hj : j < 256) : BistKept s (s.bump (streamIdx st) j n) :=
  bistKept_put s _ (by simp only [objKey, streamIdx]; omega)

theorem bistKept_countLate (s : State) (f : Frame) : BistKept s (s.countLate f) := by
  have hcount : BistKept s (if f.counted then s else (s.bump (streamIdx f.stream) 0x11 1).bump 0x2000 0x18 1) :=
    bistKept_ite (bistKept_refl s) (bistKept_trans (bistKept_streamCount s _ 1 (by decide)) (bistKept_put _ _ (by decide)))
  unfold State.countLate
  refine bistKept_trans hcount ?_
  generalize (if f.counted = true then s else _) = t
  exact bistKept_ite (bistKept_refl t) (bistKept_ite (bistKept_modRoute ..) (bistKept_ite (bistKept_modRoute ..)
    (bistKept_ite (bistKept_refl t) (bistKept_streams ..))))

theorem bistKept_dropBehind (s : State) (r : Route) (st : Nat) : BistKept s (s.dropBehind r st) := by
  unfold State.dropBehind
  exact bistKept_ite (bistKept_modRoute ..) (bistKept_trans (bistKept_trans (bistKept_modRoute ..)
    (bistKept_streamCount _ _ _ (by decide))) (bistKept_put _ _ (by decide)))

theorem bistKept_setFrame (s : State) (i : Nat) (f : Frame) : BistKept s (s.setFrame i f) := bistKept_streams s _

theorem bistKept_dropWaiting (s : State) (l : Fin 2) (place : Nat) (f : Frame) : BistKept s (s.dropWaiting l place f) := by
  unfold State.dropWaiting
  have hfold := bistKept_foldl (f := fun (s : State) k => match s.streams.backlog[k]? with
    | none => s
    | some g => if place < k && g.stream == f.stream && g.route == f.route && (g.next.get l).isSome then s.dropCopy l k g else s)
    (fun s k => by
      cases s.streams.backlog[k]? with
      | none => exact bistKept_refl s
      | some g => exact bistKept_ite (bistKept_trans (bistKept_setFrame ..) (bistKept_countLate ..)) (bistKept_refl s))
    (List.range s.streams.backlog.length) s
  exact bistKept_ite (bistKept_trans hfold (bistKept_dropBehind ..)) hfold

theorem bistKept_loseCopy (s : State) (l : Fin 2) (moving dual : List Nat) (i : Nat) : BistKept s (s.loseCopy l moving dual i) := by
  unfold State.loseCopy
  cases s.streams.backlog[i]? with
  | none => exact bistKept_refl s
  | some f =>
    have hlate : ∀ g g' : Frame, BistKept s ((s.setFrame i g).countLate g') := fun g g' =>
      bistKept_trans (bistKept_setFrame ..) (bistKept_countLate ..)
    refine bistKept_ite (bistKept_ite (bistKept_ite ?_ (bistKept_ite ?_ (bistKept_setFrame ..))) (bistKept_refl s))
      (bistKept_ite (bistKept_refl s) (bistKept_ite (bistKept_setFrame ..) (hlate _ _)))
    · exact bistKept_trans (bistKept_setFrame ..) (bistKept_streamCount _ _ 1 (by decide))
    · exact bistKept_trans (hlate _ _) (bistKept_dropWaiting ..)

theorem bistKept_dropLink (s : State) (l : Fin 2) : BistKept s (s.dropLink l) := by
  have hlink : ∀ (u : State) (j n : Nat), j < 256 → BistKept u (u.put (0x1120 + l.val) j n) := fun u j n hj =>
    bistKept_put u n (by have := l.isLt; simp only [objKey]; omega)
  unfold State.dropLink
  refine bistKept_ite ?_ (bistKept_refl s)
  refine bistKept_trans ?_ (bistKept_foldl (fun s k => bistKept_loseCopy s l _ _ k) _ _)
  refine bistKept_trans ?_ (bistKept_streams ..)
  refine bistKept_trans ?_ (bistKept_streams ..)
  exact bistKept_trans (bistKept_trans (hlink s 0x10 2 (by decide)) (hlink _ 0x14 _ (by decide))) (bistKept_recorded (recorded_issueAt ..))

theorem bistKept_dropLinks (s : State) : BistKept s s.dropLinks :=
  bistKept_trans (bistKept_trans (bistKept_trans (bistKept_dropLink s 0) (bistKept_dropLink _ 1)) (bistKept_put _ 0 (by decide)))
    (bistKept_put _ 0 (by decide))

theorem bistKept_bistBegin (s : State) : BistKept s s.bistBegin := by
  unfold State.bistBegin
  split
  · exact bistKept_dropLinks s
  · exact bistKept_refl s

/-! ### Targeted tests -/

theorem outcomeRecord_recorded (s : State) (u : TestUnit) (aux : Int) : Recorded s (s.outcomeRecord u aux) := by
  cases u with
  | slice f => exact recorded_issue ..
  | engine r => exact recorded_issueAt ..
  | keeper k => exact recorded_issue ..
  | row st bank row => exact recorded_trans (recorded_draw s) (recorded_issueAt ..)
  | dramRow ch row => exact recorded_issue ..
  | core c => exact recorded_issue ..
  | drx r => exact recorded_issueAt ..
  | hka => exact recorded_issueOpen ..

theorem outcomeRecord_fields (s : State) (u : TestUnit) (aux : Int) : (s.outcomeRecord u aux).cores = s.cores ∧
    (s.outcomeRecord u aux).rows = s.rows ∧ (s.outcomeRecord u aux).arbiter = s.arbiter := by
  obtain ⟨free, streams, od, dram, h, -⟩ := outcomeRecord_recorded s u aux
  rw [h]
  exact ⟨rfl, rfl, rfl⟩

theorem modCore_get (s : State) (c : Fin 8) (f : Core → Core) : (s.modCore c f).cores.get c = f (s.cores.get c) := State.setCore_get ..

theorem loadCore_retired (s : State) (c : Fin 8) : ((s.loadCore c).cores.get c).retired = (s.cores.get c).retired := by
  unfold State.loadCore
  simp only
  split
  · exact (congrArg Core.retired (modCore_get s c _) :)
  · exact (congrArg Core.retired (modCore_get (s.discardInputs c) c
      (fun x => loadedCore x (s.blob (coreIdx c) 0x01) (s.blob (coreIdx c) 0x02) (s.blob (coreIdx c) 0x03))) :)

theorem bit_retireLatch (s : State) (latch b : Nat) : bit ((s.retireLatch latch b).num 0x1700 0x10) latch = true :=
  bit_latch [latch] s latch (.inl (List.mem_singleton_self _))

theorem retireLatch_arbiter (s : State) (latch b : Nat) : (s.retireLatch latch b).arbiter = s.arbiter := rfl

theorem unitFails_keeper (s : State) (k : Keeper) (bad : Bool × Bool) : (s.unitFails (.keeper k) bad).arbiter.stateOf k = .retired := by
  obtain ⟨-, -, harbiter⟩ := outcomeRecord_fields { s with arbiter := s.arbiter.setState k .retired } (.keeper k) 4
  show (({ s with arbiter := s.arbiter.setState k .retired } : State).outcomeRecord (.keeper k) 4).arbiter.stateOf k = .retired
  rw [harbiter]
  exact (stateOf_setState ..).trans (if_pos rfl)

theorem unitPasses_keeper (s : State) (k : Keeper) : (s.unitPasses (.keeper k)).arbiter.stateOf k = .standby :=
  (stateOf_setMiss ..).trans ((stateOf_setState ..).trans (if_pos rfl))

theorem unitFails_drx (s : State) (r : Route) (bad : Bool × Bool) : ((s.unitFails (.drx r) bad).route r).thermal.retired = true ∧
    bit ((s.unitFails (.drx r) bad).num 0x1700 0x10) 13 = true := by
  have hbit := bit_retireLatch (s.outcomeRecord (.drx r) 4) 13 11
  cases r
  · exact ⟨rfl, hbit⟩
  · exact ⟨rfl, hbit⟩

theorem unitFails_row (s : State) (st : Store) (bk : Fin 16) (row : Fin 1024) (bad : Bool × Bool) :
    (s.unitFails (.row st bk row) bad).rows.lasting.contains (storeNum st, bk.val, row.val) = true := by
  show (s.rows.lasting ++ [(storeNum st, bk.val, row.val)]).contains (storeNum st, bk.val, row.val) = true
  simp

theorem unitPasses_row (s : State) (st : Store) (bk : Fin 16) (row : Fin 1024) :
    (s.unitPasses (.row st bk row)).rows.suspects.contains (storeNum st, bk.val, row.val) = false := by
  show ((s.outcomeRecord (.row st bk row) 1).rows.suspects.filter (fun e => e != (storeNum st, bk.val, row.val))).contains
    (storeNum st, bk.val, row.val) = false
  simp

section
variable {s : State} {u : TestUnit} {t0 : Test} {p q : Bool} (hfind : s.integrity.tests.find? (fun t => t.unit == u) = some t0)
  (hruns : s.testRuns u = true)
include hfind hruns

/-- Whether both parts of the run of a unit's test passed. -/
def runPasses (u : TestUnit) (p q : Bool) : Bool := if u == .hka then p && q else p

/-- The state in which a first failed run is noted. -/
def State.noteFailure (s : State) (u : TestUnit) : State :=
  { s with integrity := { s.integrity with tests := s.integrity.tests.map (fun (x : Test) =>
    if x.unit == u then { x with failedOnce := true } else x) } }

theorem doTargetedTestComplete_fail (hfail : runPasses u p q = false) : doTargetedTestComplete u p q s =
    if !t0.failedOnce then (s.noteFailure u).reportSlices else ((s.endTest u).bump 0x1700 0x14 1).unitFails u (!p, !q) := by
  unfold doTargetedTestComplete
  simp only [hfind]
  exact (ite_not_true hruns).trans (if_neg (ne_true_of_eq_false hfail))

theorem doTargetedTestComplete_pass (hpass : runPasses u p q = true) (hslice : ∀ f, u ≠ .slice f)
    (hfirst : ((s.endTest u).transientOutcome u).1 = false) :
    doTargetedTestComplete u p q s = ((s.endTest u).transientOutcome u).2.unitPasses u := by
  unfold doTargetedTestComplete
  simp only [hfind]
  refine (ite_not_true hruns).trans ((if_pos hpass).trans ?_)
  cases u with
  | slice f => exact absurd rfl (hslice f)
  | _ => exact if_neg (ne_true_of_eq_false hfirst)

end

theorem doTargetedTestComplete_slice {s : State} {f : Fin 17} {t0 : Test} {p q : Bool}
    (hfind : s.integrity.tests.find? (fun t => t.unit == .slice f) = some t0) (hruns : s.testRuns (.slice f) = true)
    (hpass : runPasses (.slice f) p q = true) : doTargetedTestComplete (.slice f) p q s = s.passSlice f := by
  unfold doTargetedTestComplete
  simp only [hfind]
  exact (ite_not_true hruns).trans (if_pos hpass)

theorem noteFailure_tests (s : State) (u : TestUnit) {t0 : Test} (hfind : s.integrity.tests.find? (fun t => t.unit == u) = some t0) :
    (s.noteFailure u).testing u = true ∧ ∀ x ∈ (s.noteFailure u).integrity.tests, x.unit = u → x.failedOnce = true := by
  have hunit : t0.unit = u := by simpa using List.find?_some hfind
  constructor
  · show (s.integrity.tests.map _).any _ = true
    rw [List.any_eq_true]
    refine ⟨_, List.mem_map_of_mem (List.mem_of_find?_eq_some hfind), ?_⟩
    simp [hunit]
  · intro x hx hxu
    obtain ⟨y, -, rfl⟩ := List.mem_map.mp hx
    by_cases hy : (y.unit == u) = true
    · rw [if_pos hy]
    · rw [if_neg hy] at hxu
      exact absurd hxu (by simpa using hy)

theorem reportSlices_tests (s : State) : s.reportSlices.integrity = s.integrity ∧ s.reportSlices.cores = s.cores := by
  have hput : ∀ (u : State) (a b : Nat), ((u.put 0x2400 0x02 a).put 0x2400 0x03 b).driveFault.integrity = u.integrity ∧
      ((u.put 0x2400 0x02 a).put 0x2400 0x03 b).driveFault.cores = u.cores := fun _ _ _ => ⟨rfl, rfl⟩
  exact hput s _ _

/-! ### BIST -/

theorem bistRow (mask : BitVec 16) (h : mask.toNat &&& 0x7FFF = mask.toNat) : actRow 0x1700 0x20 2 (beBytes 2 mask.toNat) = true := by
  have hf : findObj 0x1700 0x20 = .row (rowX 0x20 0x20 .u16 none (some 2) (.num 0) (.mask 0x7FFF)) := rfl
  have hwire : ofWire .u16 (beBytes 2 mask.toNat) = .num (beNat (beBytes 2 mask.toNat)) := rfl
  have hlen : lengthOk .u16 (beBytes 2 mask.toNat).length = true := by rw [length_beBytes]; rfl
  have hrange : inRange (rowX 0x20 0x20 .u16 none (some 2) (.num 0) (.mask 0x7FFF)) (.num mask.toNat) = true := by
    show (true && true && (mask.toNat &&& 0x7FFF == mask.toNat)) = true
    simp [h]
  simp only [actRow, hf]
  show (true && true && true && true && lengthOk .u16 (beBytes 2 mask.toNat).length && inRange _ (ofWire .u16 (beBytes 2 mask.toNat))) = true
  rw [hlen, hwire, beNat_mask, hrange]
  rfl

/-- The units that a mask names, in order. -/
def bistUnits (mask : Nat) : List Nat := (List.range 15).filter (fun b => mask.testBit b)

/-- A full BIST in MAINTENANCE begins with its first unit. -/
theorem bistWrite_begins {s : State} {mask : Nat} (hlt : mask < 2 ^ 15) (hmode : s.mode = 6) (hidle : s.num 0x1700 0x21 ≠ 1)
    (hunits : bistUnits mask ≠ []) : ∃ x, bistWrite mask s = ⟨0, x, id⟩ ∧ x.integrity.bistLeft = bistUnits mask ∧ x.num 0x1700 0x21 = 1 := by
  have hempty : ¬ (bistUnits mask).isEmpty = true := by simpa using hunits
  refine ⟨_, (if_neg (Nat.not_le.mpr hlt)).trans ((if_neg (by simp [hmode])).trans ((if_neg (by simpa using hidle)).trans (if_neg hempty))), ?_, ?_⟩
  · exact congrArg Integrity.bistLeft (bistKept_bistBegin _).1
  · exact (congrArg Val.toNat ((bistKept_bistBegin _).2 (objKey 0x1700 0x21) (by decide))).trans ((State.num_put ..).trans (if_pos rfl))

theorem bistUnits_ne_nil {mask : Nat} (hlt : mask < 2 ^ 15) (hne : mask ≠ 0) : bistUnits mask ≠ [] := by
  intro h
  refine hne (Nat.eq_of_testBit_eq fun i => ?_)
  rw [Nat.zero_testBit]
  by_cases hi : i < 15
  · have hnot : i ∉ bistUnits mask := by rw [h]; exact List.not_mem_nil
    simpa [bistUnits, hi] using hnot
  · exact Nat.testBit_lt_two_pow (lt_of_lt_of_le hlt (Nat.pow_le_pow_right (by decide) (by omega)))

/-- The state that a unit's result is judged in: reported, with the units that are left. -/
def State.bistJudged (s : State) (b st result : Nat) (rest : List Nat) : State :=
  { s.put 0x1700 (0x30 + b) (result + st) with integrity := { s.integrity with
    bistLeft := rest, bistFailing := if st == 1 then s.integrity.bistFailing else s.integrity.bistFailing ||| 2 ^ b
    bistPassed := setBit s.integrity.bistPassed b (st == 1) } }

/-- What a unit's result says: 3 for a wrong count, 1 for the reference signature, 2 for another. -/
def bistStatus (b : Fin 15) (count : BitVec 24) (sig : W32) : Nat :=
  if count.toNat != Config.bistCount b.val then 3 else if sig.toNat == Config.bistSignature b.val then 1 else 2

theorem doBistComplete_step6 {s : State} {b : Fin 15} {count : BitVec 24} {sig : W32} {failing : BitVec 17} {rest : List Nat}
    (hrun : s.num 0x1700 0x21 = 1) (hleft : s.integrity.bistLeft = b.val :: rest) (h6 : s.integrity.bistStep6 = true) (hrest : rest ≠ []) :
    doBistComplete b count sig failing s =
      (s.bistJudged b.val (bistStatus b count sig) (sig.toNat * 2 ^ 32 + count.toNat * 256) rest).bistBegin := by
  have hmore : ¬ rest.isEmpty = true := by simpa using hrest
  unfold doBistComplete
  simp only [hleft]
  refine (if_neg (by simp [hrun])).trans ?_
  rw [if_neg hmore]
  exact congrArg State.bistBegin (if_pos h6)

theorem doBistComplete_last {s : State} {b : Fin 15} {count : BitVec 24} {sig : W32} {failing : BitVec 17}
    (hrun : s.num 0x1700 0x21 = 1) (hleft : s.integrity.bistLeft = [b.val]) (h6 : s.integrity.bistStep6 = false)
    (hst : bistStatus b count sig = 1) :
    doBistComplete b count sig failing s =
      (((s.bistJudged b.val 1 (sig.toNat * 2 ^ 32 + count.toNat * 256) []).bistReturn b.val 0).bistLoss b.val).bistEnd := by
  unfold bistStatus at hst
  unfold doBistComplete
  simp only [hleft]
  refine (if_neg (by simp [hrun])).trans ?_
  rw [hst]
  exact (if_pos rfl).trans (congrArg State.bistEnd (if_neg (ne_true_of_eq_false h6)))

theorem doBistComplete_notDue {s : State} {b : Fin 15} {count : BitVec 24} {sig : W32} {failing : BitVec 17}
    (h : ∀ rest, s.integrity.bistLeft ≠ b.val :: rest) : doBistComplete b count sig failing s = s := by
  unfold doBistComplete
  cases hleft : s.integrity.bistLeft with
  | nil => rfl
  | cons x rest =>
    have hx : x ≠ b.val := by
      rintro rfl
      exact h rest hleft
    simp only
    exact if_pos (by simp [hx])

theorem bistJudged_num (s : State) (b st result : Nat) (rest : List Nat) :
    (s.bistJudged b st result rest).num 0x1700 (0x30 + b) = result + st := (State.num_put s 0x1700 (0x30 + b) _ 0x1700 (0x30 + b)).trans (if_pos rfl)

/-- A unit of the datapath BIST reports, and the next begins. -/
theorem doBistComplete_step6_kept {s : State} {b : Fin 15} {count : BitVec 24} {sig : W32} {failing : BitVec 17} {rest : List Nat}
    (hrun : s.num 0x1700 0x21 = 1) (hleft : s.integrity.bistLeft = b.val :: rest) (h6 : s.integrity.bistStep6 = true) (hrest : rest ≠ []) :
    (doBistComplete b count sig failing s).integrity.bistLeft = rest ∧
      (doBistComplete b count sig failing s).num 0x1700 (0x30 + b.val) =
        sig.toNat * 2 ^ 32 + count.toNat * 256 + bistStatus b count sig ∧
      (doBistComplete b count sig failing s).integrity.bistFailing =
        if bistStatus b count sig == 1 then s.integrity.bistFailing else s.integrity.bistFailing ||| 2 ^ b.val := by
  rw [doBistComplete_step6 hrun hleft h6 hrest]
  obtain ⟨hint, hval⟩ := bistKept_bistBegin (s.bistJudged b.val (bistStatus b count sig) (sig.toNat * 2 ^ 32 + count.toNat * 256) rest)
  refine ⟨congrArg Integrity.bistLeft hint, ?_, congrArg Integrity.bistFailing hint⟩
  exact (congrArg Val.toNat (hval (objKey 0x1700 (0x30 + b.val)) (by have := b.isLt; simp only [objKey]; omega))).trans (bistJudged_num ..)

theorem bistStatus_count {b : Fin 15} {count : BitVec 24} (sig : W32) (h : count.toNat ≠ Config.bistCount b.val) : bistStatus b count sig = 3 :=
  if_pos (by simpa using h)

theorem bistStatus_pass {b : Fin 15} {count : BitVec 24} {sig : W32} (h : count.toNat = Config.bistCount b.val)
    (hs : sig.toNat = Config.bistSignature b.val) : bistStatus b count sig = 1 :=
  (if_neg (by simp [h])).trans (if_pos (by simp [hs]))

theorem bistStatus_fail {b : Fin 15} {count : BitVec 24} {sig : W32} (h : count.toNat = Config.bistCount b.val)
    (hs : sig.toNat ≠ Config.bistSignature b.val) : bistStatus b count sig = 2 :=
  (if_neg (by simp [h])).trans (if_neg (by simpa using hs))

/-- Settles O46. -/
theorem selfTestsJudgeTheirUnits : Obligations.SelfTestsJudgeTheirUnits := by
  unfold Obligations.SelfTestsJudgeTheirUnits
  intro s v level u t0 p q mask b rest count sig failing passes result
  have hpasses : passes ↔ runPasses u p q = true := by
    by_cases hu : u = .hka
    · simp [passes, runPasses, hu]
    · simp [passes, runPasses, hu]
  refine ⟨fun hfind hruns => ⟨fun hfail hfirst => ?_, fun hfail honce => ?_, fun hpass hslice hfirst => ?_, fun f hpass hu => ?_⟩,
    fun c => ⟨?_, ?_⟩, fun k => ⟨unitFails_keeper s k _, bit_retireLatch _ 15 13, unitPasses_keeper s k⟩, fun r => unitFails_drx s r _,
    fun hp => ?_, fun hq => ?_, fun st bk row => ⟨unitFails_row s st bk row _, unitPasses_row s st bk row⟩, fun hfind => ?_,
    fun hr hl hmode hmask hne hidle => ?_, fun hrun hleft h6 hrest => ?_, fun hrun hleft h6 hcount hsig => ?_, fun h => ?_⟩
  · have hdo := doTargetedTestComplete_fail hfind hruns (p := p) (q := q) (by simpa [hpasses] using hfail)
    have hnote := hdo.trans (if_pos (by rw [hfirst]; rfl))
    obtain ⟨htest, honce⟩ := noteFailure_tests s u hfind
    obtain ⟨hint, hcores⟩ := reportSlices_tests (s.noteFailure u)
    refine ⟨_, next_of_eq (u := doTargetedTestComplete u p q s) rfl hnote, ?_, (State.settle_cores _).trans hcores, ?_⟩
    · rw [State.testing, State.settle_integrity, hint]
      exact htest
    · rw [State.settle_integrity, hint]
      exact honce
  · have hdo := doTargetedTestComplete_fail hfind hruns (p := p) (q := q) (by simpa [hpasses] using hfail)
    exact next_of_eq (u := doTargetedTestComplete u p q s) rfl (hdo.trans (if_neg (by rw [honce]; exact Bool.false_ne_true)))
  · exact next_of_eq (u := doTargetedTestComplete u p q s) rfl (doTargetedTestComplete_pass hfind hruns (hpasses.mp hpass) hslice hfirst)
  · subst hu
    exact next_of_eq (u := doTargetedTestComplete (.slice f) p q s) rfl (doTargetedTestComplete_slice hfind hruns (hpasses.mp hpass))
  · exact congrArg Core.retired (State.setCore_get ..)
  · rw [← (outcomeRecord_fields s (.core c) 1).1]
    exact loadCore_retired (s.outcomeRecord (.core c) 1) c
  · subst hp
    exact Bool.or_true _
  · subst hq
    exact Bool.or_true _
  · refine next_of_eq (u := doTargetedTestComplete u p q s) rfl ?_
    unfold doTargetedTestComplete
    simp only [hfind]
  · have hlt : mask.toNat < 2 ^ 15 := by
      rw [← hmask]
      exact Nat.lt_of_le_of_lt Nat.and_le_right (by decide)
    obtain ⟨x, hx, hunits, hstate⟩ := bistWrite_begins (s := Opened v s) hlt ((opened_mode v s).trans hmode) (by rw [opened_num]; exact hidle)
      (bistUnits_ne_nil hlt (fun h => hne (BitVec.eq_of_toNat_eq h)))
    refine ⟨x, does_unitWrite (n := 0) rfl hr (bistRow mask hmask) hl (.inl (by omega)) (by decide) (by decide) (.inl rfl) ?_, hunits, hstate⟩
    have hmask' : (ofWire (typeOf 0x1700 0x20) (beBytes 2 mask.toNat)).toNat = mask.toNat := beNat_mask mask
    show (bistWrite (ofWire (typeOf 0x1700 0x20) (beBytes 2 mask.toNat)).toNat (Opened v s)).acted = _
    rw [hmask', hx]
    rfl
  · obtain ⟨hrest', hnum, hfailing⟩ := doBistComplete_step6_kept (count := count) (sig := sig) (failing := failing) hrun hleft h6 hrest
    refine ⟨_, rfl, hrest', fun hcount => ?_, fun hcount hsig => ⟨?_, ?_⟩, fun hcount hsig => ⟨?_, ?_⟩⟩
    · rw [bistStatus_count sig hcount] at hnum
      exact hnum
    · rw [bistStatus_pass hcount hsig] at hnum
      exact hnum
    · rw [bistStatus_pass hcount hsig] at hfailing
      exact hfailing
    · rw [bistStatus_fail hcount hsig] at hnum
      exact hnum
    · rw [bistStatus_fail hcount hsig] at hfailing
      exact hfailing
  · exact next_of_eq (u := doBistComplete b count sig failing s) rfl (doBistComplete_last hrun hleft h6 (bistStatus_pass hcount hsig))
  · exact next_of_eq (u := doBistComplete b count sig failing s) rfl (doBistComplete_notDue h)

end Sys2Proof.Machine

/-! Fault clear, scan and the log (R447, R458, R463). -/

namespace Sys2Proof.Machine

open Sys2Proof Sys2Proof.Safety

/-! ### The latched bits -/

theorem restartRoute_safe {s : State} {r : Route} (h : s.mode = 7) : s.restartRoute r = s := by
  refine if_neg ?_
  simp [State.sensing, h]

/-- In SAFE a route that leaves LAUNCH_FAIL has its object cleared alone. -/
theorem clearLaunch_safe {s : State} (r : Route) (h : s.mode = 7) :
    s.clearLaunch r = if bit (s.num 0x1700 0x10) (11 + routeNum r) then s.put (at100 0x2150 r) 0x14 0 else s := by
  have hmode : (s.put (at100 0x2150 r) 0x14 0).mode = 7 := (congrArg Val.toNat (val_put_of_ne (by cases r <;> decide))).trans h
  unfold State.clearLaunch
  rw [restartRoute_safe hmode]

/-- The state t has what the causes of the latched bits but NO_ROUTE are judged by as s. -/
def SameCauses (s t : State) : Prop :=
  t.power = s.power ∧ t.integrity = s.integrity ∧ t.cyc = s.cyc ∧ t.clkBit 5 = s.clkBit 5 ∧ t.mode = s.mode

theorem sameCauses_trans {s t u : State} (h : SameCauses s t) (h' : SameCauses t u) : SameCauses s u := by
  obtain ⟨h1, h2, h3, h4, h5⟩ := h
  obtain ⟨h1', h2', h3', h4', h5'⟩ := h'
  exact ⟨h1'.trans h1, h2'.trans h2, h3'.trans h3, h4'.trans h4, h5'.trans h5⟩

theorem sameCauses_refl (s : State) : SameCauses s s := ⟨rfl, rfl, rfl, rfl, rfl⟩

theorem sameCauses_put (s : State) {i j : Nat} (n : Nat) (h3 : objKey i j ≠ objKey 0x1500 0x03) (h2 : objKey i j ≠ objKey 0x1300 0x02) :
    SameCauses s (s.put i j n) :=
  ⟨rfl, rfl, rfl, congrArg (fun x : Val => bit x.toNat 5) (val_put_of_ne h3), congrArg Val.toNat (val_put_of_ne h2)⟩

theorem causeEnded_congr {s t : State} (h : SameCauses s t) {b : Nat} (hb : b ≠ 8) : t.causeEnded b = s.causeEnded b := by
  obtain ⟨hpower, hint, hcyc, hclk, -⟩ := h
  simp only [State.causeEnded, State.heldLock, hpower, hint, hcyc, hclk]
  split <;> first | rfl | exact absurd rfl hb

/-- One latched bit clears where its cause has ended. -/
def State.clearBit (s : State) (b : Nat) : State := if s.causeEnded b then s.putBit 0x1700 0x10 b false else s

theorem sameCauses_clearBit (s : State) (b : Nat) : SameCauses s (s.clearBit b) := by
  unfold State.clearBit
  split
  · exact sameCauses_put s _ (by decide) (by decide)
  · exact sameCauses_refl s

theorem bit_clearBit (s : State) (b j : Nat) :
    bit ((s.clearBit b).num 0x1700 0x10) j = (bit (s.num 0x1700 0x10) j && !(decide (j = b) && s.causeEnded b)) := by
  unfold State.clearBit
  cases h : s.causeEnded b with
  | true =>
    rw [if_pos rfl, State.num_putBit, if_pos rfl, bit_setBit]
    by_cases hj : b = j
    · simp [hj]
    · rw [if_neg hj, decide_eq_false (Ne.symm hj)]
      simp
  | false =>
    rw [if_neg Bool.false_ne_true, Bool.and_false]
    simp

theorem sameCauses_clearBits (l : List Nat) (s : State) : SameCauses s (l.foldl State.clearBit s) := by
  induction l generalizing s with
  | nil => exact sameCauses_refl s
  | cons b l ih => exact sameCauses_trans (sameCauses_clearBit s b) (ih _)

/-- Of the bits of a list those clear whose cause has ended. -/
theorem bit_clearBits (l : List Nat) (hl : 8 ∉ l) (s : State) (j : Nat) :
    bit ((l.foldl State.clearBit s).num 0x1700 0x10) j = (bit (s.num 0x1700 0x10) j && !(decide (j ∈ l) && s.causeEnded j)) := by
  induction l generalizing s with
  | nil => simp
  | cons b l ih =>
    have hb : b ≠ 8 := fun h => hl (h ▸ List.mem_cons_self)
    rw [List.foldl_cons, ih (fun h => hl (List.mem_cons_of_mem _ h)), bit_clearBit]
    by_cases hj : j = b
    · subst hj
      rw [causeEnded_congr (sameCauses_clearBit s j) hb]
      cases s.causeEnded j <;> simp
    · have hmem : (j ∈ b :: l) ↔ j ∈ l := by simp [hj]
      by_cases hin : j ∈ l
      · rw [causeEnded_congr (sameCauses_clearBit s b) (fun h => hl (h ▸ List.mem_cons_of_mem _ hin))]
        simp [hj, hin]
      · simp [hj, hin]

/-- The bits that a fault clear judges before NO_ROUTE; bit 5 is judged by the datapath BIST. -/
def clearedBits : List Nat := [0, 1, 2, 3, 4, 6, 7, 9, 10, 11, 12, 13, 14, 15]

/-- Step 1 of a fault clear but for the monitors' flags. -/
def State.bitsCleared (s : State) : State := (clearedBits.foldl State.clearBit ((s.clearLaunch .a).clearLaunch .b)).clearBit 8

/-- The flag of a monitor goes with its latch. -/
def State.dropFlag (s : State) (b flag : Nat) : State := if bit (s.num 0x1700 0x10) b then s else s.clk flag false

theorem clearLatched_eq (s : State) : s.clearLatched = ((s.bitsCleared.dropFlag 0 13).dropFlag 1 12).driveFault := rfl

theorem dropFlag_num (s : State) (b flag : Nat) {i j : Nat} (h : objKey 0x1500 0x03 ≠ objKey i j) : (s.dropFlag b flag).num i j = s.num i j := by
  unfold State.dropFlag
  split
  · rfl
  · exact num_clk_of_ne s flag false h

theorem clearLatched_num (s : State) {i j : Nat} (h : objKey 0x1500 0x03 ≠ objKey i j) : s.clearLatched.num i j = s.bitsCleared.num i j := by
  rw [clearLatched_eq]
  exact (dropFlag_num _ 1 12 h).trans (dropFlag_num _ 0 13 h)

/-- In SAFE the routes' part of a fault clear touches no cause and no latch. -/
theorem clearLaunches_safe {s : State} (h : s.mode = 7) : SameCauses s ((s.clearLaunch .a).clearLaunch .b) ∧
    ((s.clearLaunch .a).clearLaunch .b).num 0x1700 0x10 = s.num 0x1700 0x10 := by
  have hone : ∀ (u : State) r, u.mode = 7 → SameCauses u (u.clearLaunch r) ∧ (u.clearLaunch r).num 0x1700 0x10 = u.num 0x1700 0x10 := by
    intro u r hu
    rw [clearLaunch_safe r hu]
    split
    · exact ⟨sameCauses_put u 0 (by cases r <;> decide) (by cases r <;> decide), congrArg Val.toNat (val_put_of_ne (by cases r <;> decide))⟩
    · exact ⟨sameCauses_refl u, rfl⟩
  obtain ⟨ha, hnumA⟩ := hone s .a h
  obtain ⟨-, -, -, -, hmode⟩ := id ha
  obtain ⟨hb, hnumB⟩ := hone _ .b (hmode.trans h)
  exact ⟨sameCauses_trans ha hb, hnumB.trans hnumA⟩

theorem clearLatched_mode {s : State} (h : s.mode = 7) : s.clearLatched.mode = 7 := by
  obtain ⟨hlaunch, -⟩ := clearLaunches_safe h
  obtain ⟨-, -, -, -, hmode⟩ := sameCauses_trans hlaunch (sameCauses_trans (sameCauses_clearBits clearedBits _) (sameCauses_clearBit _ 8))
  exact (clearLatched_num s (by decide)).trans (hmode.trans h)

/-- In SAFE the latched bits clear whose cause has ended. -/
theorem clearLatched_bit {s : State} (h : s.mode = 7) {b : Nat} (hb : b ∈ clearedBits) :
    bit (s.clearLatched.num 0x1700 0x10) b = (bit (s.num 0x1700 0x10) b && !s.causeEnded b) := by
  have h8 : 8 ∉ clearedBits := by decide
  have hne : b ≠ 8 := fun he => h8 (he ▸ hb)
  obtain ⟨hcauses, hnum⟩ := clearLaunches_safe h
  rw [clearLatched_num s (by decide), State.bitsCleared, bit_clearBit, bit_clearBits _ h8, hnum, decide_eq_false hne, decide_eq_true hb,
    causeEnded_congr hcauses hne]
  simp

/-! ### The datapath BIST -/

theorem bistLoss_val (s : State) {b : Nat} (hb : b ∈ [4, 5, 6, 7]) {k : Nat} (hk : statusKey k) : (s.bistLoss b).val k = s.val k := by
  simp only [List.mem_cons, List.not_mem_nil, or_false] at hb
  rcases hb with rfl | rfl | rfl | rfl
  · rfl
  · rfl
  · rfl
  · obtain ⟨-, -, -, -, -, hval⟩ := quiet_foldl (f := fun (s : State) (c : Fin 8) => s.loadCore c) (fun s c => quiet_loadCore s c) (List.finRange 8) s
    exact hval k hk

/-- The report of one unit of the datapath BIST that a fault clear runs; `bad` names the units that fail. -/
def State.bistReport (bad : Nat) (s : State) (b : Nat) : State :=
  if bad.testBit b then s.draw.2.put 0x1700 (0x30 + b) (bistResult b s.draw.1 2)
  else s.put 0x1700 (0x30 + b) (bistResult b (Config.bistSignature b) 1)

theorem datapathBist_eq (s : State) (pass : Bool) : s.datapathBist pass =
    ([4, 5, 6, 7].foldl State.bistLoss
      (((List.range 8).foldl (State.bistReport (if pass then 0 else s.draw.1 % 255 + 1)) s.draw.2).put 0x1700 0x21 2)).putBit 0x1700 0x10 5 (!pass) := rfl

/-- With no unit bad each unit of a list reports its reference signature. -/
theorem bistReports_num (l : List Nat) (s : State) {b : Nat} (h : b ∈ l ∨ s.num 0x1700 (0x30 + b) = bistResult b (Config.bistSignature b) 1) :
    (l.foldl (State.bistReport 0) s).num 0x1700 (0x30 + b) = bistResult b (Config.bistSignature b) 1 := by
  induction l generalizing s with
  | nil => exact h.resolve_left List.not_mem_nil
  | cons c l ih =>
    refine ih _ ?_
    have hput : State.bistReport 0 s c = s.put 0x1700 (0x30 + c) (bistResult c (Config.bistSignature c) 1) := if_neg (by simp)
    rw [hput, State.num_put]
    by_cases hc : c = b
    · subst hc
      exact .inr (if_pos rfl)
    · rw [if_neg (by simp only [objKey]; omega)]
      exact h.imp_left fun hb => (List.mem_cons.mp hb).resolve_left (Ne.symm hc)

theorem datapathBist_result (s : State) {b : Nat} (hb : b < 8) :
    (s.datapathBist true).num 0x1700 (0x30 + b) = bistResult b (Config.bistSignature b) 1 := by
  have hkey : statusKey (objKey 0x1700 (0x30 + b)) := .inr (by simp only [objKey]; omega)
  have hlosses : ∀ (l : List Nat) (u : State), (∀ c ∈ l, c ∈ [4, 5, 6, 7]) →
      (l.foldl State.bistLoss u).num 0x1700 (0x30 + b) = u.num 0x1700 (0x30 + b) := by
    intro l
    induction l with
    | nil => exact fun _ _ => rfl
    | cons c l ih =>
      exact fun u hl => (ih _ fun d hd => hl d (List.mem_cons_of_mem _ hd)).trans
        (congrArg Val.toNat (bistLoss_val u (hl c List.mem_cons_self) hkey))
  have h10 : objKey 0x1700 0x10 ≠ objKey 0x1700 (0x30 + b) := by simp only [objKey]; omega
  have h21 : objKey 0x1700 0x21 ≠ objKey 0x1700 (0x30 + b) := by simp only [objKey]; omega
  rw [datapathBist_eq, State.num_putBit, if_neg h10, hlosses _ _ fun _ h => h, State.num_put, if_neg h21]
  exact bistReports_num (List.range 8) s.draw.2 (.inl (List.mem_range.mpr hb))

/-! ### Fault clear, scan and the log -/

/-- Where the supply, the clocks and the slices have cleared in SAFE, a fault clear runs the datapath BIST. -/
theorem faultClearWrite_runs {s : State} (pass : Bool) (hmode : s.clearLatched.mode = 7)
    (h4 : field (s.clearLatched.num 0x1700 0x10) 4 0 = 0) (h8 : field (s.clearLatched.num 0x1700 0x10) 8 6 = 0) :
    ∃ n, faultClearWrite pass s = ⟨n, s.clearLatched.datapathBist pass, id⟩ := by
  have hrun : (s.clearLatched.mode == 7 && field (s.clearLatched.num 0x1700 0x10) 4 0 == 0 && field (s.clearLatched.num 0x1700 0x10) 8 6 == 0) = true := by
    rw [hmode, h4, h8]
    rfl
  have hw : faultClearWrite pass s = ⟨if field ((s.clearLatched.datapathBist pass).num 0x1700 0x10) 8 0 == 0 then 0 else 1,
      s.clearLatched.datapathBist pass, id⟩ := by
    simp only [faultClearWrite, hrun, if_true]
  exact ⟨_, hw⟩

theorem faultClearWrite_elsewhere {s : State} (pass : Bool) (hmode : s.clearLatched.mode ≠ 7) :
    ∃ n, faultClearWrite pass s = ⟨n, s.clearLatched, id⟩ := by
  have hrun : (s.clearLatched.mode == 7 && field (s.clearLatched.num 0x1700 0x10) 4 0 == 0 && field (s.clearLatched.num 0x1700 0x10) 8 6 == 0) = false := by
    rw [beq_false_of_ne hmode]
    rfl
  have hw : faultClearWrite pass s = ⟨if field (s.clearLatched.num 0x1700 0x10) 8 0 == 0 then 0 else 1, s.clearLatched, id⟩ := by
    simp only [faultClearWrite, hrun, Bool.false_eq_true, if_false]
  exact ⟨_, hw⟩

theorem does_faultClear {s u : State} {v : Via} {level n : Nat} {pass : Bool} (hr : Reaches s v level 0x1700 0x02 [1]) (hl : 1 ≤ level)
    (hw : faultClearWrite pass (Opened v s) = ⟨n, u, id⟩) : Does (.faultClear v pass) s u id :=
  does_unitWrite (l := 1) (n := n) rfl hr (by decide) hl (.inr (.inr ⟨rfl, rfl⟩)) (by decide) (by decide) (.inr rfl)
    (show (faultClearWrite pass (Opened v s)).acted = _ by rw [hw]; rfl)

/-- What scan leaves behind the safe outputs. -/
theorem enterScan_kept (s : State) : s.enterScan.integrity.scan = true ∧ s.enterScan.integrity.otpLocked = true ∧
    s.enterScan.control.keysZeroised = true ∧ s.enterScan.control.sessions = [] ∧ s.enterScan.control.subs = [] ∧
    SafeOutputs s.enterScan.pins ∧ s.enterScan.pins.faultN = false := by
  have hscan : ∃ u w : State, u.integrity.scan = true ∧ u.integrity.otpLocked = true ∧ u.control.keysZeroised = true ∧ u.control.sessions = [] ∧
      u.control.subs = [] ∧ SafeOutputs u.pins ∧ Recorded u w ∧ s.enterScan = w.driveFault :=
    ⟨_, _, rfl, rfl, rfl, rfl, rfl, safeOutputs_safePins s.pins, recorded_issueOpen _ 0x3F 0x29 0, rfl⟩
  obtain ⟨u, w, h1, h2, h3, h4, h5, hsafe, hrec, hscan⟩ := hscan
  obtain ⟨-, hcontrol, -, hint⟩ := recorded_fields hrec
  obtain ⟨-, hpins, -⟩ := quiet_recorded hrec
  have hcause : w.faultCause = true := by simp [State.faultCause, hint, h1]
  rw [hscan]
  refine ⟨(congrArg Integrity.scan hint).trans h1, (congrArg Integrity.otpLocked hint).trans h2, (congrArg Control.keysZeroised hcontrol).trans h3,
    (congrArg Control.sessions hcontrol).trans h4, (congrArg Control.subs hcontrol).trans h5, ?_, ?_⟩
  · rw [← hpins] at hsafe
    exact safeOutputs_driveFault hsafe
  · exact congrArg (!·) hcause

/-- Settles O47. -/
theorem faultsClearAndScanLocks : Obligations.FaultsClearAndScanLocks := by
  unfold Obligations.FaultsClearAndScanLocks
  intro s v level pass u
  refine ⟨fun hr hl hmode h4 h8 => ?_, ?_, fun b hb hpass => ?_, fun hr hl hmode h8 => ?_, fun hmode b hb => clearLatched_bit hmode hb,
    fun hr hl hmode => ?_, ?_, fun hr hl hmode => ?_⟩
  · obtain ⟨n, hw⟩ := faultClearWrite_runs pass (clearLatched_mode ((opened_mode v s).trans hmode)) h4 h8
    exact does_faultClear hr hl hw
  · rw [datapathBist_eq, State.num_putBit, if_pos rfl, bit_setBit, if_pos rfl]
  · subst hpass
    exact datapathBist_result s hb
  · obtain ⟨n, hw⟩ := faultClearWrite_elsewhere pass hmode
    exact does_faultClear hr hl hw
  · refine does_unitWrite (n := 0) (l := 3) rfl hr (by decide) hl (.inl (by omega)) (by decide) (by decide) (.inl rfl) ?_
    have hmode' : ¬ ((Opened v s).mode != 6) = true := by simp [opened_mode, hmode]
    exact congrArg Reply.acted (if_neg hmode')
  · obtain ⟨h1, h2, h3, h4, h5, hsafe, hfault⟩ := enterScan_kept s
    exact ⟨h1, h2, h3, h4, h5, hsafe, hfault, by simp [State.keeperServes, h1]⟩
  · refine ⟨_, does_routeWrite (n := 0) (l := 2) rfl hr (by decide) hl hmode (by decide) (.inl rfl) (fun _ => rfl), rfl, ?_, ?_⟩
    · exact (State.num_put _ 0x5000 0x02 0 0x5000 0x01).trans ((if_neg (by decide)).trans ((State.num_put _ 0x5000 0x01 0 0x5000 0x01).trans (if_pos rfl)))
    · exact (State.num_put _ 0x5000 0x02 0 0x5000 0x02).trans (if_pos rfl)

end Sys2Proof.Machine

/-! Route starts and the return from power reduction (R87 to R100). -/

namespace Sys2Proof.Machine

open Sys2Proof Sys2Proof.Safety

/-! ### The configuration of a route -/

/-- The configuration that a route runs on follows the pending commit and the objects. -/
theorem cfg_congr {s t : State} (hcontrol : t.control = s.control) (hod : t.od = s.od) : t.cfg = s.cfg := by
  unfold State.cfg State.cfgOf State.val
  rw [hcontrol, hod]

theorem r100_congr {s t : State} (hcontrol : t.control = s.control) (hod : t.od = s.od) : t.r100 = s.r100 := by
  unfold State.r100
  rw [cfg_congr hcontrol hod]

theorem modOptics_modOptics (s : State) (r : Route) (f g : Optics → Optics) : (s.modOptics r f).modOptics r g = s.modOptics r (fun o => g (f o)) := by
  cases r <;> rfl

/-! ### The dwell and the ramp -/

theorem startDwell_waits {s : State} {r : Route} (h : (s.route r).optics.dwellDone = false ∨ (s.route r).optics.sweepDone = false) :
    s.startDwell r = s.modOptics r (fun o => { o with start := some .dwell }) := by
  refine if_neg ?_
  rcases h with h | h <;> simp [h]

theorem startDwell_ends {s : State} {r : Route} (hdwell : (s.route r).optics.dwellDone = true) (hsweep : (s.route r).optics.sweepDone = true) :
    s.startDwell r = s.startRamp r := if_pos (by simp [hdwell, hsweep])

theorem pump_setPump (s : State) (r : Route) (c : Nat) : (s.setPump r c).pump r = c := by
  cases r <;> exact Vector.getElem_set_self ..

/-- A route that is not at its level: EDFA_EN goes high and the lane ramps from 0. -/
theorem startRamp_ramps {s : State} {r : Route} (h : s.edfa r = false) :
    (s.startRamp r).edfa r = true ∧ (s.startRamp r).pump r = 0 ∧ ((s.startRamp r).route r).optics.start = some .ramp ∧
      ((s.startRamp r).route r).optics.ramp = some (if s.aprOn r then s.aprCode r else s.normalCode r) := by
  have hramp : s.startRamp r = (((s.edfaOn r).setPump r 0).modOptics r (fun o => { o with start := some .ramp })).beginRamp r
      (if ((s.edfaOn r).setPump r 0).aprOn r then ((s.edfaOn r).setPump r 0).aprCode r else ((s.edfaOn r).setPump r 0).normalCode r) :=
    if_neg (by simp [h])
  have hr100 : ((s.edfaOn r).setPump r 0).r100 = s.r100 := by cases r <;> exact r100_congr rfl rfl
  simp only [State.aprOn, State.aprCode, State.normalCode, hr100] at hramp
  rw [hramp]
  refine ⟨?_, ?_, ?_, ?_⟩
  · cases r <;> rfl
  · cases r <;> exact Vector.getElem_set_self ..
  · cases r <;> rfl
  · cases r <;> rfl

/-! ### The range sweep -/

theorem limitSets_all (s : State) (r : Route) (sets : List CorrSet) :
    (s.limitSets r (eightSets sets) (fun _ => true)).1 = (eightSets sets).map limitSet := by
  simp only [State.limitSets, eightSets, if_true, List.map_map]
  refine List.map_congr_left fun i hi => ?_
  have hi : i < 8 := List.mem_range.mp hi
  simp [List.getD_eq_getElem?_getD, hi]

theorem route_recorded {s t : State} (h : Recorded s t) (q : Route) : t.route q = s.route q := by
  obtain ⟨free, streams, od, dram, h, -⟩ := h
  rw [h]
  cases q <;> rfl

/-- The limits of the sets change of a route what the CRX notes of them alone. -/
theorem limitSets_optics (s : State) (r q : Route) (l : List CorrSet) (est : Nat → Bool) :
    ((s.limitSets r l est).2.route q).optics = (s.route q).optics := by
  have hrecords : ∀ (f : Nat → Bool) (l : List Nat) (u : State),
      (l.foldl (fun (s : State) p => if f p then s.issueR r 0x2C 0x21 (routeNum r) 0 else s) u).route q = u.route q := by
    intro f l
    induction l with
    | nil => exact fun _ => rfl
    | cons p l ih =>
      refine fun u => (ih _).trans ?_
      show (if f p then u.issueR r 0x2C 0x21 (routeNum r) 0 else u).route q = u.route q
      split
      · exact route_recorded (recorded_issueAt ..) q
      · rfl
  refine (congrArg RouteState.optics (hrecords _ [0, 1] _)).trans ?_
  cases r <;> cases q <;> rfl

theorem freshFigures_route (s : State) (r q : Route) : (s.freshFigures r).route q = s.route q := by
  have hfold : ∀ (l : List Nat) (u : State), (l.foldl (fun (s : State) sub =>
      let (v, s) := s.draw
      s.put (at100 0x2190 r) sub (v % 65536)) u).route q = u.route q := by
    intro l
    induction l with
    | nil => exact fun _ => rfl
    | cons sub l ih => exact fun u => (ih _).trans ((State.route_put ..).trans (by cases q <;> rfl))
  exact hfold _ s

theorem runDone_route (s : State) (r : Route) : ((s.runDone r).route r).optics = (s.route r).optics ∧
    ((s.runDone r).route r).crx.sets = (s.route r).crx.sets := by
  unfold State.runDone
  simp only [State.route_modCrx, freshFigures_route, State.route_bump, State.route_put]
  exact ⟨trivial, trivial⟩

/-- The sets of a sweep are held at their limits, stored and valid; the dwell goes on. -/
theorem doRangeSweepComplete_waits {s : State} {r : Route} (sets : List CorrSet) (hstart : (s.route r).optics.start = some .dwell)
    (hwarm : (s.route r).optics.warm = false) (hsweep : (s.route r).optics.sweepDone = false) (hdwell : (s.route r).optics.dwellDone = false) :
    let t := doRangeSweepComplete r sets s
    (t.route r).optics.sweepDone = true ∧ (t.route r).optics.start = some .dwell ∧ bit (t.num (at100 0x2190 r) 0x13) 0 = true ∧
      (t.route r).crx.sets = (eightSets sets).map limitSet := by
  have hdo : ∃ u : State, (u.route r).optics = (s.route r).optics ∧ (u.route r).crx.sets = (eightSets sets).map limitSet ∧
      doRangeSweepComplete r sets s =
        ((u.putBit (at100 0x2190 r) 0x13 0 true).modOptics r (fun o => { o with sweepDone := true })).startDwell r := by
    refine ⟨_, ?_, ?_, if_pos (by simp [hstart, hwarm, hsweep])⟩
    · rw [(runDone_route ..).1, State.route_modCrx]
      exact limitSets_optics ..
    · rw [(runDone_route ..).2, State.route_modCrx]
      exact limitSets_all s r sets
  obtain ⟨u, hoptics, hsets, hdo⟩ := hdo
  have hwait : (((u.putBit (at100 0x2190 r) 0x13 0 true).modOptics r (fun o => { o with sweepDone := true })).route r).optics.dwellDone = false := by
    rw [State.route_modOptics, State.route_putBit]
    exact (congrArg Optics.dwellDone hoptics).trans hdwell
  rw [startDwell_waits (.inl hwait)] at hdo
  intro t
  refine ⟨?_, ?_, ?_, ?_⟩
  · rw [show t = _ from hdo, State.route_modOptics, State.route_modOptics]
  · rw [show t = _ from hdo, State.route_modOptics]
  · rw [show t = _ from hdo]
    have hnum : ∀ f g : Optics → Optics, (((u.putBit (at100 0x2190 r) 0x13 0 true).modOptics r f).modOptics r g).num (at100 0x2190 r) 0x13 =
        setBit (u.num (at100 0x2190 r) 0x13) 0 true := fun f g =>
      (State.num_of_od ((State.modOptics_od ..).trans (State.modOptics_od ..)) _ _).trans ((State.num_putBit ..).trans (if_pos rfl))
    rw [hnum, bit_setBit, if_pos rfl]
  · rw [show t = _ from hdo, State.route_modOptics, State.route_modOptics, State.route_putBit]
    exact hsets

/-! ### The pump ramp and the first launches -/

/-- State t has the optics of s but for ramps begun. -/
def RampOnly (s t : State) : Prop :=
  ∀ r, ∃ a b c, (t.route r).optics = { (s.route r).optics with ramp := a, rampFrom := b, rampAt := c }

theorem rampOnly_of_route {s t : State} (h : ∀ r, (t.route r).optics = (s.route r).optics) : RampOnly s t :=
  fun r => ⟨(s.route r).optics.ramp, (s.route r).optics.rampFrom, (s.route r).optics.rampAt, h r⟩

theorem rampOnly_trans {s t u : State} (h : RampOnly s t) (h' : RampOnly t u) : RampOnly s u := by
  intro r
  obtain ⟨a, b, c, ht⟩ := h r
  obtain ⟨a', b', c', hu⟩ := h' r
  rw [ht] at hu
  exact ⟨a', b', c', hu⟩

theorem rampOnly_beginRamp (s : State) (r : Route) (target : Nat) : RampOnly s (s.beginRamp r target) := by
  intro q
  cases r <;> cases q
  · exact ⟨_, _, _, rfl⟩
  · exact ⟨_, _, _, rfl⟩
  · exact ⟨_, _, _, rfl⟩
  · exact ⟨_, _, _, rfl⟩

theorem rampOnly_ite {s t u : State} {c : Prop} [Decidable c] (ht : RampOnly s t) (hu : RampOnly s u) : RampOnly s (if c then t else u) := by
  split
  · exact ht
  · exact hu

theorem rampOnly_refl (s : State) : RampOnly s s := rampOnly_of_route fun _ => rfl

theorem rampOnly_surveyFail (s : State) (n : Nat) : RampOnly s (s.surveyFail n) := by
  have hend : ∀ (u : State) r, RampOnly u (u.endAprPhase r) := fun u r => rampOnly_ite (rampOnly_beginRamp u r _) (rampOnly_refl u)
  have hsurvey : ∀ (u : State) x, RampOnly u { u with survey := x } := fun u x => rampOnly_of_route fun q => by cases q <;> rfl
  refine rampOnly_ite ?_ (rampOnly_ite (rampOnly_refl s) (hsurvey s _))
  refine rampOnly_trans (rampOnly_trans (hend s .a) (hend _ .b)) (rampOnly_trans ?_ (hsurvey _ _))
  exact rampOnly_of_route fun q => by rw [State.route_put, State.route_put]

theorem rampOnly_surveyIfReady (s : State) : RampOnly s s.surveyIfReady := by
  have hstart : RampOnly s s.surveyStart := rampOnly_of_route fun q => by cases q <;> rfl
  refine rampOnly_ite ?_ (rampOnly_refl s)
  exact rampOnly_ite (rampOnly_trans hstart (rampOnly_surveyFail _ _))
    (rampOnly_ite (rampOnly_trans hstart (rampOnly_surveyFail _ _)) hstart)

/-- The first launches of a route start are due, with nothing in flight. -/
theorem launchesBegin_optics (s : State) (r : Route) : ((s.launchesBegin r).route r).optics.launching = true ∧
    ((s.launchesBegin r).route r).optics.start = some .done ∧ ((s.launchesBegin r).route r).optics.shot = 0 ∧
    ((s.launchesBegin r).route r).optics.launchSeq = 0 ∧ ((s.launchesBegin r).route r).optics.inFlight = [] := by
  have hbegin : ∃ (u : State) (f : Optics → Optics), s.launchesBegin r = (u.modOptics r f).surveyIfReady ∧
      ∀ o, (f o).launching = true ∧ (f o).start = some .done ∧ (f o).shot = 0 ∧ (f o).launchSeq = 0 ∧ (f o).inFlight = [] :=
    ⟨_, _, rfl, fun o => ⟨rfl, rfl, rfl, rfl, rfl⟩⟩
  obtain ⟨u, f, hbegin, hf⟩ := hbegin
  obtain ⟨a, b, c, hramp⟩ := rampOnly_surveyIfReady (u.modOptics r f) r
  rw [hbegin, hramp, State.route_modOptics]
  exact hf _

theorem doPumpRampComplete_some {s : State} {r : Route} {target : Nat} (h : (s.route r).optics.ramp = some target) :
    doPumpRampComplete r s =
      let u := (s.setPump r target).modOptics r (fun o => { o with ramp := none })
      if (s.route r).optics.start == some .ramp then u.launchesBegin r
      else if u.aprState r == 1 && target == u.normalCode r then u.toNormal r else u := by
  unfold doPumpRampComplete
  simp only [h]

/-- A ramp of STARTING that has reached the normal code is NORMAL. -/
theorem pumpRamp_normal {s : State} {r : Route} {target : Nat} (hapr : s.aprState r = 1) (htarget : target = s.normalCode r) :
    (let u := (s.setPump r target).modOptics r (fun o => { o with ramp := none })
     if u.aprState r == 1 && target == u.normalCode r then u.toNormal r else u) =
      ((s.setPump r target).setApr r 0).modOptics r (fun o => { o with ramp := none, badRun := 0, goodRun := 0 }) := by
  have hod : ((s.setPump r target).modOptics r (fun o => { o with ramp := none })).od = s.od := by cases r <;> rfl
  have hcontrol : ((s.setPump r target).modOptics r (fun o => { o with ramp := none })).control = s.control := by cases r <;> rfl
  have hguard : (((s.setPump r target).modOptics r (fun o => { o with ramp := none })).aprState r == 1 &&
      target == ((s.setPump r target).modOptics r (fun o => { o with ramp := none })).normalCode r) = true := by
    rw [State.aprState, State.num_of_od hod, show s.num (at100 0x2160 r) 0x10 = 1 from hapr, State.normalCode, r100_congr hcontrol hod, htarget]
    exact beq_self_eq_true _
  refine (if_pos hguard).trans ?_
  cases r <;> rfl

theorem restoreRow (r : Route) : actRow (at100 0x2160 r) 0x07 1 [1] = true := by cases r <;> decide

/-- Settles O49. -/
theorem routeStartsRunTheirSteps : Obligations.RouteStartsRunTheirSteps := by
  unfold Obligations.RouteStartsRunTheirSteps
  intro s v r level target sets o opt
  refine ⟨fun hA hdwell hB => ?_, fun hstart hsweep => ?_, fun hstart hsweep hedfa => ?_, fun hstart hwarm hsweep hdwell => ?_,
    fun hramp hstart => ?_, fun hramp hstart hapr htarget => ?_, fun hmoving hflight hhand hsense hen hfail => ?_,
    fun hapr hsense hen hdead hstart => ?_, fun hr hl hmode => ?_⟩
  · have hdo : doLaserSettleExpiry s = s.startDwell .a := by
      have ha : (s.routeA.optics.start == some .settle) = true := by rw [hA]; rfl
      have hwait : s.startDwell .a = s.modOptics .a (fun o => { o with start := some .dwell }) := startDwell_waits (r := .a) (.inl hdwell)
      have hb : ((s.startDwell .a).routeB.optics.start == some .settle) = false := by
        rw [hwait]
        exact beq_false_of_ne hB
      have hgo : doLaserSettleExpiry s = if ((if s.routeA.optics.start == some .settle then s.startDwell .a else s).routeB.optics.start ==
          some .settle) then (if s.routeA.optics.start == some .settle then s.startDwell .a else s).startDwell .b
          else (if s.routeA.optics.start == some .settle then s.startDwell .a else s) := rfl
      rw [hgo, if_pos ha]
      exact if_neg (ne_true_of_eq_false hb)
    exact next_of_eq (u := doLaserSettleExpiry s) rfl (hdo.trans (startDwell_waits (r := .a) (.inl hdwell)))
  · refine next_of_eq (u := doSwitchDwellExpiry r s) rfl ((if_pos (beq_iff_eq.mpr hstart)).trans ?_)
    rw [startDwell_waits (.inr (by rw [State.route_modOptics]; exact hsweep)), modOptics_modOptics]
  · have hdo : doSwitchDwellExpiry r s = (s.modOptics r (fun o => { o with dwellDone := true })).startRamp r :=
      (if_pos (beq_iff_eq.mpr hstart)).trans (startDwell_ends (by rw [State.route_modOptics]) (by rw [State.route_modOptics]; exact hsweep))
    obtain ⟨hedfa', hpump, hstart', hramp⟩ := startRamp_ramps (s := s.modOptics r (fun o => { o with dwellDone := true })) (r := r)
      (by cases r <;> exact hedfa)
    refine ⟨_, next_of_eq (u := doSwitchDwellExpiry r s) rfl hdo, hedfa', hpump, hstart', hramp.trans ?_⟩
    have hr100 : (s.modOptics r (fun o => { o with dwellDone := true })).r100 = s.r100 :=
      r100_congr (State.modOptics_control ..) (State.modOptics_od ..)
    simp only [State.aprOn, State.aprCode, State.normalCode, hr100]
    rfl
  · exact ⟨_, rfl, doRangeSweepComplete_waits sets hstart hwarm hsweep hdwell⟩
  · refine ⟨_, next_of_eq (u := doPumpRampComplete r s) rfl ((doPumpRampComplete_some hramp).trans (if_pos (beq_iff_eq.mpr hstart))), ?_⟩
    exact launchesBegin_optics _ r
  · refine next_of_eq (u := doPumpRampComplete r s) rfl ((doPumpRampComplete_some hramp).trans ((if_neg (by simpa using hstart)).trans ?_))
    exact pumpRamp_normal hapr htarget
  · replace hmoving : (s.route r).optics.moving = true := hmoving
    replace hflight : (s.route r).optics.inFlight = [] := hflight
    exact next_of_eq (u := doSwitchOswChange r s) rfl (if_pos (by simp [hmoving, hflight, hhand, hsense, hen, hfail]))
  · replace hstart : (s.route r).optics.start = none := hstart
    refine ⟨_, { s.mkLaunch r 0 (s.route r).optics.shot s.cyc false with apr := true, compressed := true }, waveform (s.read r) s.kind r 0,
      next_of_eq (u := doRestorationProbe r s) rfl (if_pos (by simp [hapr, hsense, hen, hdead, hstart])), ?_, ?_, rfl, rfl, ?_, ?_⟩
    · exact (State.modOptics_out ..).trans (by cases r <;> rfl)
    · cases r <;> rfl
    · cases r <;> rfl
    · cases r <;> exact Vector.getElem_set_self ..
  · exact does_routeWrite (n := 0) (l := 1) rfl hr (restoreRow r) hl hmode (by cases r <;> decide) (.inl rfl) (fun c => by cases r <;> rfl)

end Sys2Proof.Machine

/-! Probes: the launch monitor at a window that the object's width does not hold (R93). -/

namespace Sys2Proof.Machine

open Sys2Proof Sys2Proof.Safety

/-! ### The origin correction saturates -/

/-- The offset of an edge at its launch's own instant, the DLL unlocked: the latency of the TDC alone. -/
def latencyOffset : Int := rhu (-Config.tdcLatency) 9

/-- The nearest origin of that offset. -/
def latencyOrigin : Int := rhu latencyOffset 7

/-- An expected delay that puts the origin of that offset a whole number of times 2^16 below 0. -/
def farDelay : Nat := (latencyOrigin + 65536 * (latencyOrigin.natAbs + 1)).toNat

theorem farDelay_eq : (farDelay : Int) = latencyOrigin + 65536 * (latencyOrigin.natAbs + 1) := by
  unfold farDelay
  omega

/-- A launch in flight whose edge window is open. -/
def openLaunch : Launch :=
  { seq := 0, shot := 0, group := 0, ns := 0, apr := false, aprState := 0, range := 0, c := 0, edge := false, closed := false, missing := false,
    judged := false, compressed := false, gainStep := false, calStep := false, flags := 0, cseq := 0, bound := 0 }

/-- Route A with that launch in flight, that expected delay and a window wide enough for the edge. -/
def farWindow : State :=
  { State.reset with
    od := [(objKey 0x2150 0x01, .num farDelay), (objKey 0x2150 0x02, .num (latencyOffset - 128 * farDelay).natAbs)]
    routeA := { State.reset.routeA with optics := { State.reset.routeA.optics with inFlight := [openLaunch] } } }

/-- An edge of the TAP at the instant of the launch. -/
def edgeAtLaunch : TapEdge := ⟨0, 0⟩

theorem farWindow_delay : farWindow.r100 .a 0x2150 0x01 = farDelay := rfl

theorem farWindow_width : farWindow.r100 .a 0x2150 0x02 = (latencyOffset - 128 * farDelay).natAbs := rfl

theorem farWindow_offset : (farWindow.tapOffset .a openLaunch edgeAtLaunch).1 = latencyOffset := by
  have htap : (farWindow.tapTime 0 0).1 = 0 := rfl
  show rhu (farWindow.stampOf 0 + (farWindow.tapTime 0 0).1 - Config.tdcLatency - farWindow.stampOf 0) 9 = latencyOffset
  rw [htap, latencyOffset]
  congr 1
  ring

/-- The origin of the edge is a multiple of 2^16 far below what 16 bits hold. -/
theorem farWindow_origin : rhu (latencyOffset - 128 * farDelay) 7 = -(65536 * (latencyOrigin.natAbs + 1)) := by
  have horigin : latencyOrigin = (latencyOffset + 64) / 128 := rfl
  show (latencyOffset - 128 * farDelay + 64) / 128 = _
  rw [farDelay_eq]
  omega

/-- The first edge in the window of the oldest launch moves the origin correction, held to 16 bits. -/
theorem doTapEdge_inside {s : State} {r : Route} {edge : TapEdge} {l : Launch} (hopen : openWindow (s.route r).optics.inFlight = some l)
    (hedge : l.edge = false)
    (hinside : ((s.tapOffset r l edge).1 - 128 * (s.r100 r 0x2150 0x01 : Nat)).natAbs ≤ 128 * s.r100 r 0x2150 0x02) :
    (doTapEdge r edge s).num (at100 0x2150 r) 0x11 = ofSigned (sat (originCorrection (s.route r).optics.edgeSeen
      ((s.tapOffset r l edge).2.int (at100 0x2150 r) 0x11 16) ((s.tapOffset r l edge).1 - 128 * (s.r100 r 0x2150 0x01 : Nat))) 16) 16 := by
  unfold doTapEdge
  simp only [hopen]
  rw [if_neg (by simp [hedge, hinside]), State.num_of_od (State.modOptics_od ..), State.num_putI, if_pos rfl]

theorem doTapEdge_farWindow : (doTapEdge .a edgeAtLaunch farWindow).num 0x2150 0x11 = 0x8000 := by
  have hinside : ((farWindow.tapOffset .a openLaunch edgeAtLaunch).1 - 128 * (farWindow.r100 .a 0x2150 0x01 : Nat)).natAbs ≤
      128 * farWindow.r100 .a 0x2150 0x02 := by
    rw [farWindow_offset, farWindow_delay, farWindow_width]
    omega
  have hnum := doTapEdge_inside (r := .a) (l := openLaunch) (s := farWindow) rfl rfl hinside
  rw [farWindow_offset, farWindow_delay] at hnum
  refine hnum.trans ?_
  show ofSigned (sat (rhu (latencyOffset - 128 * farDelay) 7) 16) 16 = _
  rw [farWindow_origin]
  have hsat : sat (-(65536 * (latencyOrigin.natAbs + 1))) 16 = -(2 ^ 15) := if_pos (by
    show -(65536 * ((latencyOrigin.natAbs : Int) + 1)) < -(2 ^ 15)
    omega)
  rw [hsat]
  rfl

/-- Refutes O50: an origin correction beyond 16 bits is saturated, and not wrapped. -/
theorem not_probesAreLaunchedAndJudged : ¬ Obligations.ProbesAreLaunchedAndJudged := by
  unfold Obligations.ProbesAreLaunchedAndJudged
  intro h
  obtain ⟨-, -, hwindow, -⟩ := h farWindow .a 0 edgeAtLaunch [] openLaunch
  obtain ⟨hfirst, -⟩ := hwindow rfl
  have hinside : ((farWindow.tapOffset .a openLaunch edgeAtLaunch).1 - 128 * (farWindow.r100 .a 0x2150 0x01 : Nat)).natAbs ≤
      128 * farWindow.r100 .a 0x2150 0x02 := by
    rw [farWindow_offset, farWindow_delay, farWindow_width]
    omega
  obtain ⟨t, hx, -, horigin, -⟩ := hfirst rfl hinside
  have hdo : exec (.tapEdge .a edgeAtLaunch) farWindow = .next (doTapEdge .a edgeAtLaunch farWindow).settle := rfl
  rw [hdo] at hx
  rw [← Host.Outcome.next.inj hx, farWindow_offset, farWindow_delay] at horigin
  have hreport : ofSigned (rhu (latencyOffset - 128 * farDelay) 7) 16 = 0 := by
    rw [farWindow_origin]
    unfold ofSigned
    omega
  have hzero : (doTapEdge .a edgeAtLaunch farWindow).num 0x2150 0x11 = 0 := horigin.trans hreport
  rw [doTapEdge_farWindow] at hzero
  exact absurd hzero (by decide)

end Sys2Proof.Machine

/-! The coherent receiver: a temperature beyond the 16 bits of its object (R126). -/

namespace Sys2Proof.Machine

open Sys2Proof Sys2Proof.Safety

/-! ### The temperature read saturates -/

/-- A read far enough from the last run starts a run, and the object holds the temperature saturated to 16 bits. -/
theorem doCrxTemperatureRead_temperature {s u : State} {r : Route} {temp : Int} (hu : s.putI (at100 0x2190 r) 0x10 16 temp = u)
    (hvalid : bit (u.num (at100 0x2190 r) 0x13) 0 = true)
    (hfar : u.r100 r 0x2190 0x02 ≤ (temp - u.int (at100 0x2190 r) 0x11 16).natAbs)
    (hruns : u.runsOn r = true) (hidle : (u.route r).crx.run = false) :
    (doCrxTemperatureRead r temp s).num (at100 0x2190 r) 0x10 = ofSigned (sat temp 16) 16 := by
  have hdo : doCrxTemperatureRead r temp s = u.startRun r := by
    unfold doCrxTemperatureRead State.triggerRun
    simp [hu, hvalid, hfar, hruns, hidle]
  have hother : objKey (at100 0x2190 r) 0x13 ≠ objKey (at100 0x2190 r) 0x10 := by cases r <;> decide
  rw [hdo]
  unfold State.startRun
  rw [State.num_putBit, if_neg hother, State.num_of_od (State.modCrx_od ..), ← hu, State.num_putI, if_pos rfl]

/-- Route A after a sweep, so that a run by temperature is allowed. -/
def sweptReceiver : State := { State.reset with od := [(objKey 0x2190 0x13, .num 1)] }

/-- Figures of a run, of no account here. -/
def flatTones : ToneFigures := ⟨0, 0, 0, 0, 0, 0⟩

/-- Refutes O51: a temperature beyond 16 bits is saturated, and not wrapped. -/
theorem not_receiverGainAndCalibration : ¬ Obligations.ReceiverGainAndCalibration := by
  unfold Obligations.ReceiverGainAndCalibration
  intro h
  have hall := h sweptReceiver .can .a 0 [] [] false 65536 flatTones flatTones
  obtain ⟨-, -, -, -, -, -, -, -, -, hruns, -⟩ := hall
  obtain ⟨-, hread, -⟩ := hruns rfl rfl
  obtain ⟨t, hx, -, htemp, -⟩ := hread rfl (by decide)
  have hdo : exec (.crxTemperatureRead .a 65536) sweptReceiver = .next (doCrxTemperatureRead .a 65536 sweptReceiver).settle := rfl
  rw [hdo] at hx
  rw [← Host.Outcome.next.inj hx] at htemp
  have hheld : (doCrxTemperatureRead .a 65536 sweptReceiver).num 0x2190 0x10 = 0x7FFF :=
    doCrxTemperatureRead_temperature rfl rfl (by decide) rfl rfl
  exact absurd (hheld.symm.trans htemp) (by decide)

end Sys2Proof.Machine

/-! Frames: a late hand-over drops the frames behind it (R39). -/

namespace Sys2Proof.Machine

open Sys2Proof Sys2Proof.Safety

/-! ### A late frame takes those behind it -/

/-- The routes and the power mode as they were. -/
def SameRoutes (s t : State) : Prop := (∀ r, t.route r = s.route r) ∧ t.power = s.power

theorem sameRoutes_trans {s t u : State} (h : SameRoutes s t) (h' : SameRoutes t u) : SameRoutes s u :=
  ⟨fun r => (h'.1 r).trans (h.1 r), h'.2.trans h.2⟩

theorem sameRoutes_bump (s : State) (idx sub n : Nat) : SameRoutes s (s.bump idx sub n) := ⟨fun _ => State.route_bump s .., rfl⟩

theorem sameRoutes_streams (s : State) (x : Streams) : SameRoutes s { s with streams := x } := ⟨fun r => by cases r <;> rfl, rfl⟩

theorem sameRoutes_requested {s t : State} (h : Requested s t) : SameRoutes s t := by
  obtain ⟨d, rfl, -⟩ := h
  exact ⟨fun r => by cases r <;> rfl, rfl⟩

/-- A frame handed over to the stream engine leaves the routes and the power mode alone. -/
theorem sameRoutes_handOver (s : State) (d : FrameDesc) : SameRoutes s (s.handOver d).2 := by
  cases hl : (s.streamLinks d.stream).isEmpty with
  | true =>
    simp only [State.handOver, hl, if_true]
    exact ⟨fun _ => rfl, rfl⟩
  | false =>
    simp only [State.handOver, hl, Bool.false_eq_true, if_false]
    refine sameRoutes_trans (sameRoutes_trans ?_ (sameRoutes_streams _ _)) (sameRoutes_requested (requested_requestFrame ..))
    exact iteInduction (motive := SameRoutes s) (fun _ => sameRoutes_bump ..)
      (fun _ => sameRoutes_trans (sameRoutes_trans (sameRoutes_bump s ..) (sameRoutes_bump ..)) (sameRoutes_bump ..))

/-- The frames of a stream that wait behind a late one stay, marked not to be sent. -/
def stopSending (stream : Nat) (l : List ReadyFrame) : List ReadyFrame :=
  l.map (fun f => if f.stream == stream then { f with send := false } else f)

theorem dropBehind_kept (s : State) (r : Route) (stream : Nat) :
    ((s.dropBehind r stream).route r).ready = stopSending stream (s.route r).ready ∧ (s.dropBehind r stream).power = s.power := by
  unfold State.dropBehind stopSending
  extract_lets n u
  have hkept : ((u.route r).ready = _ ∧ u.power = s.power) := ⟨congrArg RouteState.ready (State.route_modRoute s r _), State.modRoute_power ..⟩
  split
  · exact hkept
  · exact ⟨(congrArg RouteState.ready ((State.route_bump ..).trans (State.route_bump ..))).trans hkept.1, hkept.2⟩

/-- What the hand-over of a frame gives the stream engine. -/
def handedDesc (f : ReadyFrame) (quality : Nat) : FrameDesc :=
  { stream := f.stream, routeCode := f.routeCode, fcount := f.fcount, tstart := f.tstart, period := f.period,
    first := f.first, count := f.count, pitch := f.pitch, quality := quality, cseq := f.cseq, switchPos := some f.pos,
    payload := f.payload, coded := false, deadline := some f.deadline, records := 0 }

/-- A late frame stops those of its stream that wait behind it. -/
theorem sendReady_late {s : State} {r : Route} {f : ReadyFrame} {q : Nat} (hsend : f.send = true) (hplane : f.plane = [])
    (hlate : (s.handOver (handedDesc f q)).1 = true) :
    ((s.sendReady r f q).route r).ready = stopSending f.stream (s.route r).ready ∧ (s.sendReady r f q).power = s.power := by
  obtain ⟨hroute, hpower⟩ := sameRoutes_handOver s (handedDesc f q)
  obtain ⟨hready, hkept⟩ := dropBehind_kept ((s.handOver (handedDesc f q)).2.addCarry r f.stream flLate) r f.stream
  have heq : s.sendReady r f q = ((s.handOver (handedDesc f q)).2.addCarry r f.stream flLate).dropBehind r f.stream := by
    unfold State.sendReady State.handRoute
    rw [if_neg (by simp [hsend])]
    simp only [hplane, List.isEmpty_nil, if_true]
    unfold handedDesc at hlate
    rw [if_pos hlate]
    exact congrArg (fun x : State => x.dropBehind r f.stream) (if_pos hlate)
  rw [heq]
  refine ⟨hready.trans ?_, hkept.trans ?_⟩
  · simp [State.addCarry, hroute]
  · simp [State.addCarry, hpower]

theorem finishIfQuiet_none {s : State} (h : s.power.transition = none) : s.finishIfQuiet = s := by
  unfold State.finishIfQuiet
  rw [h]

theorem thresholdMode_zero (s : State) : s.thresholdMode 0 = s := if_neg (by simp)

/-- A late frame without events that is no frame of the filter chain stops those of its stream that wait behind it. -/
theorem doFrameHandover_late {s v u : State} {r : Route} {stream c q : Nat} {f : ReadyFrame}
    (hfirst : (s.route r).ready.find? (fun f => f.stream == stream) = some f)
    (hv : s.modRoute r (fun x => { x with ready := x.ready.erase f }) = v) (hu : v.takeCarry r stream = (c, u))
    (hq : v.withDegraded (f.quality ||| c) = q) (hsend : f.send = true) (hplane : f.plane = []) (hevents : f.events = []) (hstream : 3 < stream)
    (hlate : (u.handOver (handedDesc f q)).1 = true) (hquiet : u.power.transition = none) :
    ((doFrameHandover stream r s).route r).ready = stopSending f.stream (u.route r).ready := by
  obtain ⟨hready, hpower⟩ := sendReady_late (r := r) hsend hplane hlate
  have hdo : doFrameHandover stream r s = ((u.sendReady r f q).bump (at10 0x2610 r) 0x45 0).finishIfQuiet := by
    have hnotFdc : ¬ stream ≤ 3 := by omega
    unfold doFrameHandover State.handEvents
    simp only [hfirst, hv, hu, hq, hsend, hevents, hnotFdc, if_true, List.map_nil, List.isEmpty_nil, List.foldl_nil, List.length_nil, decide_false,
      Bool.false_eq_true, if_false, thresholdMode_zero]
  have hnone : ((u.sendReady r f q).bump (at10 0x2610 r) 0x45 0).power.transition = none := (congrArg Power.transition hpower).trans hquiet
  rw [hdo, finishIfQuiet_none hnone, State.route_bump]
  exact hready

/-- A frame of stream 0x04 that waits for its hand-over. -/
def waitingFrame (fcount : Nat) : ReadyFrame :=
  { stream := 4, routeCode := 0, fcount := fcount, tstart := 0, period := 1, first := 0, count := 0, pitch := 2, quality := 0, cseq := 0, pos := 0,
    payload := [], plane := [], cols := 0, deadline := 0, send := true, events := [], block := [], inputs := [], closing := 0 }

/-- Two frames of route A wait, and the link they leave on, whose destination is known, is not UP. -/
def twoWaiting : State :=
  { State.reset with
    od := [(objKey 0x2940 0x01, .num 0)]
    streams := { State.reset.streams with arp := [⟨0, State.reset.streamDest 4 0, 0, 0⟩] }
    routeA := { State.reset.routeA with ready := [waitingFrame 0, waitingFrame 1] } }

/-- The hand-over of the first leaves the second, but no longer to be sent. -/
theorem doFrameHandover_twoWaiting : (doFrameHandover 4 .a twoWaiting).routeA.ready = [{ waitingFrame 1 with send := false }] :=
  doFrameHandover_late (s := twoWaiting) (r := .a) (stream := 4) (f := waitingFrame 0) rfl rfl rfl rfl rfl rfl rfl (by decide) rfl rfl

/-- A launch handed over with no bins. -/
def emptyHandoff : Handoff := { launch := openLaunch, bins := [] }

/-- Refutes O53: the frames that wait behind a late one stay, marked not to be sent. -/
theorem not_launchesAreProcessedIntoFrames : ¬ Obligations.LaunchesAreProcessedIntoFrames := by
  unfold Obligations.LaunchesAreProcessedIntoFrames
  intro h
  obtain ⟨-, -, -, -, -, -, -, -, -, hhand, -⟩ := h twoWaiting .can .a 0 0 0 0 [] openLaunch emptyHandoff (waitingFrame 0) 4 0
  obtain ⟨t, hx, hready⟩ := hhand rfl rfl
  have hdo : exec (.frameHandover 4 .a) twoWaiting = .next (doFrameHandover 4 .a twoWaiting).settle := rfl
  rw [hdo] at hx
  rw [← Host.Outcome.next.inj hx] at hready
  have herase : (doFrameHandover 4 .a twoWaiting).routeA.ready = [waitingFrame 1] := hready.trans (by decide)
  exact absurd (doFrameHandover_twoWaiting.symm.trans herase) (by decide)

end Sys2Proof.Machine

/-! Links: telemetry without a Keeper that serves (R31, R306). -/

namespace Sys2Proof.Machine

open Sys2Proof Sys2Proof.Safety

/-! ### Telemetry is sampled by the Keeper in authority -/

/-- A frame handed over leaves the counters of the device's own streams alone. -/
theorem handOver_evCount (s : State) (d : FrameDesc) : (s.handOver d).2.streams.evCount = s.streams.evCount := by
  cases hl : (s.streamLinks d.stream).isEmpty with
  | true => simp only [State.handOver, hl, if_true]
  | false =>
    simp only [State.handOver, hl, Bool.false_eq_true, if_false]
    refine (congrArg Streams.evCount (requested_streams (requested_requestFrame ..))).trans ?_
    exact iteInduction (motive := fun u : State => u.streams.evCount = s.streams.evCount) (fun _ => rfl) (fun _ => rfl)

/-- The device in SENSE after reset, before any Keeper holds authority. -/
def senseNoKeeper : State := { State.reset with od := [(objKey 0x1300 0x02, .num 4)] }

/-- Refutes O56: a telemetry sample is no frame while no Keeper serves. -/
theorem not_linksCarryTheirPackets : ¬ Obligations.LinksCarryTheirPackets := by
  unfold Obligations.LinksCarryTheirPackets
  intro h
  have hall := h senseNoKeeper 0 0 ⟨0, 0, 0, none, [], Vector.replicate 2 none, Vector.replicate 2 none, false, false, false, false, 0⟩
    ⟨0, 0, 0, 0⟩ 0 0 0 [] .net0 []
  obtain ⟨-, -, -, -, -, -, -, -, -, -, -, -, -, -, htelemetry, -⟩ := hall
  obtain ⟨d, hx, -⟩ := htelemetry (by decide)
  have hdo : exec .telemetrySample senseNoKeeper = .next senseNoKeeper.settle := rfl
  have hsame : senseNoKeeper.settle = ((senseNoKeeper.deviceCount 11).2.handOver d).2.settle := Host.Outcome.next.inj (hdo.symm.trans hx)
  have hcount : senseNoKeeper.streams.evCount = (senseNoKeeper.deviceCount 11).2.streams.evCount :=
    (congrArg (fun t : State => t.streams.evCount) hsame).trans (handOver_evCount _ d)
  exact absurd (congrArg (fun v : Vector Nat 16 => v.get 11) hcount) (by decide)

end Sys2Proof.Machine

/-! Device time: the loop, presence, references and PPS_OUT (R343 to R352). -/

namespace Sys2Proof.Machine

open Sys2Proof Sys2Proof.Safety

/-! ### What the loop leaves of the time unit -/

/-- The measurements of the references that the loop has not yet taken. -/
def TimeUnit.thetas (t : TimeUnit) : Option Int × List Int × Option Int := (t.ppsTheta, t.ptpThetas, t.syncTheta)

theorem recorded_time {s t : State} (h : Recorded s t) : t.time = s.time := by
  obtain ⟨f, st, od, d, rfl, -⟩ := h
  rfl

theorem toTimeState_thetas (s : State) (n : Nat) : (s.toTimeState n).time.thetas = s.time.thetas := by
  unfold State.toTimeState
  split
  · rfl
  · exact (congrArg TimeUnit.thetas (recorded_time (records_issue _ 0x37 0x28 n 0 (by decide)).1)).trans rfl

/-- Steering changes the time unit by a mark alone. -/
theorem steer_time {α : Type} {f : TimeUnit → α} (hf : ∀ t inc, f (t.mark inc) = f t) (s : State) (p : Int) : f (s.steer p).time = f s.time := by
  have hrate : ∀ (u : State) yd, f (u.setRate yd).time = f u.time := by
    intro u yd
    unfold State.setRate
    rw [State.putI_time]
    exact hf ..
  unfold State.steer
  by_cases h : (s.num 0x1400 0x01 == 1) = true
  · simp only [h, if_true]
    rw [hrate, State.put_time, State.setLane_time]
  · simp only [h, Bool.false_eq_true, if_false]
    rw [hrate]

theorem steer_thetas (s : State) (p : Int) : (s.steer p).time.thetas = s.time.thetas := steer_time (fun _ _ => rfl) s p

theorem judgeLock_thetas (s : State) (th : Int) : (s.judgeLock th).time.thetas = s.time.thetas := by
  unfold State.judgeLock
  extract_lets near far u
  have hu : u.time.thetas = s.time.thetas := rfl
  refine iteInduction (motive := fun t : State => t.time.thetas = s.time.thetas) (fun _ => (toTimeState_thetas u 3).trans hu) (fun _ => ?_)
  exact iteInduction (motive := fun t : State => t.time.thetas = s.time.thetas) (fun _ => (toTimeState_thetas _ 2).trans hu) (fun _ => hu)

/-- What the loop moves leaves the instant, the integral, the edges of PPS_IN and the oscillator's level. -/
theorem timeFrame_time {s t : State} (h : TimeFrame s t) : t.time.ns = s.time.ns ∧ t.time.frac = s.time.frac ∧ t.time.integ = s.time.integ ∧
    t.time.lastPps = s.time.lastPps ∧ t.time.ppsMiss = s.time.ppsMiss ∧ t.time.warm = s.time.warm := by
  obtain ⟨f, st, od, d, c, a1, a2, a3, a4, a5, a6, a7, a8, a9, rfl, -⟩ := h
  exact ⟨rfl, rfl, rfl, rfl, rfl, rfl⟩

theorem timeFrame_setPresent (s : State) (b : Nat) (v : Bool) :
    TimeFrame (if bit (s.num 0x1400 0x26) b == v then s else s.putBit 0x1400 0x26 b v) (s.setPresent b v) := by
  unfold State.setPresent
  split
  · exact timeFrame_refl s
  · exact timeFrame_chooseReference _ _

/-! ### A second of the loop -/

/-- The loop with θ before it judges the lock, once the state is decided. -/
def State.moveClock (s : State) (th : Int) : State :=
  if (s.timeState == 2 || s.timeState == 0) && decide (s.num 0x1400 0x07 * 65536 ≤ th.natAbs) then
    ((s.stepTime (s.time.t48 - th * 2 ^ 32)).bump 0x1400 0x28 1).steer 0
  else (s.modTime (fun t => { t with integ := t.integ + rhu th (s.num 0x1400 0x05) })).steer
    (clampI (-((s.num 0x1400 0x08 * 65536 : Nat) : Int)) ((s.num 0x1400 0x08 * 65536 : Nat) : Int) (rhu th (s.num 0x1400 0x04)))

/-- A first θ of a reference decides the state. -/
def State.decideFresh (s : State) (th : Int) : State :=
  if s.time.fresh then (s.modTime (fun t => { t with fresh := false })).toTimeState (if decide ((th.natAbs : Int) ≤ s.lockLimit) then 3 else 2) else s

theorem disciplineWith_eq (s : State) (th : Int) : s.disciplineWith th = (((s.putI 0x1400 0x23 64 th).decideFresh th).moveClock th).judgeLock th := rfl

theorem timeFrame_decideFresh (s : State) (th : Int) : TimeFrame s (s.decideFresh th) := by
  unfold State.decideFresh
  split
  · exact timeFrame_trans (timeFrame_loop s s.time.lockRun s.time.farRun s.time.ppsTheta s.time.ptpThetas s.time.syncTheta false s.time.holdNs)
      (timeFrame_toTimeState _ _)
  · exact timeFrame_refl s

theorem decideFresh_thetas (s : State) (th : Int) : (s.decideFresh th).time.thetas = s.time.thetas := by
  unfold State.decideFresh
  split
  · exact toTimeState_thetas _ _
  · rfl

theorem moveClock_thetas (s : State) (th : Int) : (s.moveClock th).time.thetas = s.time.thetas := by
  unfold State.moveClock
  split
  · exact steer_thetas _ _
  · exact steer_thetas _ _

/-- The θs in a row within the threshold, and far from it. -/
def TimeUnit.runs (t : TimeUnit) : Nat × Nat := (t.lockRun, t.farRun)

theorem moveClock_runs (s : State) (th : Int) : (s.moveClock th).time.runs = s.time.runs := by
  unfold State.moveClock
  split
  · exact (steer_time (f := TimeUnit.runs) (fun _ _ => rfl) _ _).trans rfl
  · exact (steer_time (f := TimeUnit.runs) (fun _ _ => rfl) _ _).trans rfl

theorem moveClock_lockLimit (s : State) (th : Int) : (s.moveClock th).lockLimit = s.lockLimit := by
  have hnum : (s.moveClock th).num 0x1400 0x06 = s.num 0x1400 0x06 := by
    unfold State.moveClock
    split
    · exact (timeFrame_num (timeFrame_steer _ _) _ _ (by decide)).trans ((State.num_bump ..).trans (if_neg (by decide)))
    · exact timeFrame_num (timeFrame_steer _ _) _ _ (by decide)
  unfold State.lockLimit
  rw [hnum]

theorem moveClock_timeState (s : State) (th : Int) : (s.moveClock th).timeState = s.timeState := by
  unfold State.moveClock
  split
  · rw [steer_ts]
    exact (State.num_bump ..).trans (if_neg (by decide))
  · exact steer_ts _ _

theorem sat_sat (x : Int) (w : Nat) : sat (sat x w) w = sat x w := by
  have hpos : (0 : Int) < 2 ^ (w - 1) := by positivity
  unfold sat
  split
  · rw [if_neg (by omega), if_neg (by omega)]
  · split
    · rw [if_neg (by omega), if_neg (by omega)]
    · rfl

/-- A second of the loop reports θ and takes the measurements' place as it was. -/
theorem disciplineWith_reports (s : State) (th : Int) : (s.disciplineWith th).num 0x1400 0x23 = ofSigned (sat th 64) 64 ∧
    (s.disciplineWith th).time.thetas = s.time.thetas := by
  have hframe := timeFrame_decideFresh (s.putI 0x1400 0x23 64 th) th
  rw [disciplineWith_eq]
  constructor
  · rw [timeFrame_num (judge_frame _ _) _ _ (by decide)]
    have hmove : ∀ u : State, (u.moveClock th).num 0x1400 0x23 = u.num 0x1400 0x23 := by
      intro u
      unfold State.moveClock
      split
      · rw [timeFrame_num (timeFrame_steer _ _) _ _ (by decide)]
        exact (State.num_bump ..).trans (if_neg (by decide))
      · exact timeFrame_num (timeFrame_steer _ _) _ _ (by decide)
    rw [hmove, timeFrame_num hframe _ _ (by decide), State.num_putI, if_pos rfl]
  · rw [judgeLock_thetas, moveClock_thetas, decideFresh_thetas, State.putI_time]

/-- A θ below the step threshold moves the integral alone. -/
theorem disciplineWith_slews {s : State} {th : Int} (hsmall : th.natAbs < s.num 0x1400 0x07 * 65536) :
    (s.disciplineWith th).time.ns = s.time.ns ∧ (s.disciplineWith th).time.frac = s.time.frac ∧
      (s.disciplineWith th).time.integ = s.time.integ + rhu th (s.num 0x1400 0x05) := by
  have hframe := timeFrame_decideFresh (s.putI 0x1400 0x23 64 th) th
  obtain ⟨hns, hfrac, hinteg, -⟩ := timeFrame_time hframe
  have hnum : ∀ j, objKey 0x1400 j ∉ timeKeys → objKey 0x1400 0x23 ≠ objKey 0x1400 j →
      ((s.putI 0x1400 0x23 64 th).decideFresh th).num 0x1400 j = s.num 0x1400 j := fun j hj hk =>
    (timeFrame_num hframe _ _ hj).trans ((State.num_putI ..).trans (if_neg hk))
  rw [disciplineWith_eq]
  have hmove : ((s.putI 0x1400 0x23 64 th).decideFresh th).moveClock th = _ := if_neg (by
    rw [hnum 0x07 (by decide) (by decide)]
    simp [hsmall])
  obtain ⟨hns', hfrac', hinteg', -⟩ := timeFrame_time (judge_frame (((s.putI 0x1400 0x23 64 th).decideFresh th).moveClock th) th)
  rw [hns', hfrac', hinteg', hmove]
  obtain ⟨hns'', hfrac'', hinteg'', -⟩ := timeFrame_time (timeFrame_steer (((s.putI 0x1400 0x23 64 th).decideFresh th).modTime
    (fun t => { t with integ := t.integ + rhu th (((s.putI 0x1400 0x23 64 th).decideFresh th).num 0x1400 0x05) })) _)
  rw [hns'', hfrac'', hinteg'']
  refine ⟨hns, hfrac, ?_⟩
  show ((s.putI 0x1400 0x23 64 th).decideFresh th).time.integ + rhu th (((s.putI 0x1400 0x23 64 th).decideFresh th).num 0x1400 0x05) = _
  rw [hnum 0x05 (by decide) (by decide), hinteg, State.putI_time]

/-- A θ at the step threshold or beyond, of a reference that the loop follows, steps the clock. -/
theorem disciplineWith_steps {s : State} {th : Int} (hfresh : s.time.fresh = false) (hstate : s.timeState = 2 ∨ s.timeState = 0)
    (hlarge : s.num 0x1400 0x07 * 65536 ≤ th.natAbs) :
    (s.disciplineWith th).time.ns = (s.time.set48 (s.time.t48 - th * 2 ^ 32)).ns ∧
      (s.disciplineWith th).time.frac = (s.time.set48 (s.time.t48 - th * 2 ^ 32)).frac ∧
      (s.disciplineWith th).time.integ = s.time.integ ∧ (s.disciplineWith th).num 0x1400 0x28 = incWrap (s.num 0x1400 0x28) 1 32 := by
  obtain ⟨u, hu⟩ : ∃ u, s.putI 0x1400 0x23 64 th = u := ⟨_, rfl⟩
  have htime : u.time = s.time := hu ▸ State.putI_time ..
  have hnum : ∀ j, objKey 0x1400 0x23 ≠ objKey 0x1400 j → u.num 0x1400 j = s.num 0x1400 j := fun j hj =>
    hu ▸ (State.num_putI ..).trans (if_neg hj)
  have hdecide : u.decideFresh th = u := if_neg (by simp [htime, hfresh])
  have hstate' : u.timeState = 2 ∨ u.timeState = 0 := by
    unfold State.timeState
    rw [hnum 0x20 (by decide)]
    exact hstate
  have hmove : u.moveClock th = ((u.stepTime (u.time.t48 - th * 2 ^ 32)).bump 0x1400 0x28 1).steer 0 := if_pos (by
    rw [hnum 0x07 (by decide)]
    rcases hstate' with h | h <;> simp [h, hlarge])
  have hframe := timeFrame_trans (timeFrame_steer ((u.stepTime (u.time.t48 - th * 2 ^ 32)).bump 0x1400 0x28 1) 0) (judge_frame _ th)
  rw [disciplineWith_eq, hu, hdecide, hmove]
  obtain ⟨hns, hfrac, hinteg, -⟩ := timeFrame_time hframe
  rw [hns, hfrac, hinteg, timeFrame_num hframe _ _ (by decide), State.num_bump, if_pos rfl, ← htime, ← hnum 0x28 (by decide)]
  exact ⟨rfl, rfl, rfl, rfl⟩

/-- The measurements of this second are taken. -/
def State.takeThetas (s : State) : State := s.modTime (fun t => { t with ppsTheta := none, ptpThetas := [], syncTheta := none })

/-- A θ of the reference in use lies within its 64 bits. -/
theorem sat_of_theta {s : State} {th : Int} (h : s.theta = some th) : sat th 64 = th := by
  unfold State.theta at h
  obtain ⟨x, -, rfl⟩ := Option.map_eq_some_iff.mp h
  exact sat_sat x 64

/-- The sixteenth θ in a row within the threshold locks the loop, the fourth in a row far from it unlocks it. -/
theorem disciplineWith_judges {s : State} {th : Int} (hfresh : s.time.fresh = false) :
    (s.timeState = 2 → s.time.lockRun = 15 → (th.natAbs : Int) ≤ s.lockLimit → (s.disciplineWith th).timeState = 3) ∧
      (s.timeState = 3 → s.time.farRun = 3 → 4 * s.lockLimit < (th.natAbs : Int) → (s.disciplineWith th).timeState = 2) := by
  obtain ⟨u, hu⟩ : ∃ u, s.putI 0x1400 0x23 64 th = u := ⟨_, rfl⟩
  have htime : u.time = s.time := hu ▸ State.putI_time ..
  have hnum : ∀ j, objKey 0x1400 0x23 ≠ objKey 0x1400 j → u.num 0x1400 j = s.num 0x1400 j := fun j hj =>
    hu ▸ (State.num_putI ..).trans (if_neg hj)
  have hdecide : u.decideFresh th = u := if_neg (by simp [htime, hfresh])
  have hstate : (u.moveClock th).timeState = s.timeState := (moveClock_timeState u th).trans (hnum 0x20 (by decide))
  have hruns : (u.moveClock th).time.runs = s.time.runs := (moveClock_runs u th).trans (congrArg TimeUnit.runs htime)
  have hlimit : (u.moveClock th).lockLimit = s.lockLimit := by
    rw [moveClock_lockLimit]
    unfold State.lockLimit
    rw [hnum 0x06 (by decide)]
  rw [disciplineWith_eq, hu, hdecide]
  generalize u.moveClock th = v at hstate hruns hlimit
  exact ⟨fun h2 hrun hnear => judge_lock _ _ (hstate.trans h2) ((congrArg Prod.fst hruns).trans hrun) (hnear.trans_eq hlimit.symm),
    fun h3 hrun hfar => judge_far _ _ (hstate.trans h3) ((congrArg Prod.snd hruns).trans hrun) (by rw [hlimit]; exact hfar)⟩

/-! ### References (R344, R346) -/

theorem toTimeState_pair (s : State) {n : Nat} (h : n = 0 ∨ n = 2) : (s.toTimeState n).timeState = 0 ∨ (s.toTimeState n).timeState = 2 := by
  rw [ts_to]
  exact h

/-- A reference chosen while the unit is free or acquires leaves it free or acquiring. -/
theorem useReference_pair {s : State} (kind : Nat) (h : s.timeState = 0 ∨ s.timeState = 2) :
    (s.useReference kind).timeState = 0 ∨ (s.useReference kind).timeState = 2 := by
  unfold State.useReference
  split
  · exact h
  · extract_lets u w
    have hw : w.timeState = 0 ∨ w.timeState = 2 := by
      have hsame : w.timeState = s.timeState := (State.num_put ..).trans (if_neg (by decide))
      rwa [hsame]
    have h1 : ¬ (w.timeState == 1) = true := by rcases hw with h | h <;> simp [h]
    have h3 : ¬ (w.timeState == 3) = true := by rcases hw with h | h <;> simp [h]
    rw [if_neg h1, if_neg h3]
    split
    · split
      · exact toTimeState_pair _ (.inr rfl)
      · exact hw
    · split
      · exact toTimeState_pair _ (.inl rfl)
      · exact hw

theorem chooseReference_pair {s : State} (back : Bool) (h : s.timeState = 0 ∨ s.timeState = 2) :
    (s.chooseReference back).timeState = 0 ∨ (s.chooseReference back).timeState = 2 := by
  unfold State.chooseReference
  extract_lets a b cur
  split
  · exact h
  · split
    · exact useReference_pair _ h
    · split
      · exact useReference_pair _ h
      · exact useReference_pair _ h

/-- The end of WARMUP leaves the unit free or acquiring. -/
theorem warm_ends {s : State} {level : Bool} (h1 : s.timeState = 1) (hw : level = (s.num 0x1400 0x0C == 0)) :
    (doOcxoWarmChange level s).time.warm = level ∧
      ((doOcxoWarmChange level s).timeState = 0 ∨ (doOcxoWarmChange level s).timeState = 2) := by
  obtain ⟨u, hu⟩ : ∃ u, s.modTime (fun t => { t with warm := level }) = u := ⟨_, rfl⟩
  have hlevel : u.time.warm = level := hu ▸ rfl
  have hstate : u.timeState = 1 := hu ▸ h1
  have hdo : doOcxoWarmChange level s = ((u.endWarmup).steer 0).chooseReference false := by
    unfold doOcxoWarmChange
    simp only [hu]
    refine if_pos ?_
    have hpol : u.num 0x1400 0x0C = s.num 0x1400 0x0C := hu ▸ rfl
    simp [hstate, hpol, hw]
  have hend : u.endWarmup = (u.modTime (fun t => { t with warmDone := true })).toTimeState
      (if (u.modTime (fun t => { t with warmDone := true })).refInUse == 0 then 0 else 2) := if_pos (by
    show (u.timeState == 1) = true
    simp [hstate])
  have hframe := timeFrame_trans (timeFrame_toTimeState (u.modTime (fun t => { t with warmDone := true }))
    (if (u.modTime (fun t => { t with warmDone := true })).refInUse == 0 then 0 else 2))
      (timeFrame_trans (timeFrame_steer _ 0) (timeFrame_chooseReference _ false))
  obtain ⟨-, -, -, -, -, hwarm⟩ := timeFrame_time hframe
  rw [hdo, hend]
  refine ⟨hwarm.trans hlevel, chooseReference_pair _ ?_⟩
  rw [steer_ts]
  exact toTimeState_pair _ (by split <;> simp)

/-! ### Presence (R347, R355) -/

/-- What a stamp of the TDC leaves: a draw taken, or the mark of the unlocked DLL. -/
def Stamped (s t : State) : Prop := ∃ free od, t = { s with free := free, od := od } ∧ ∀ k, objKey 0x1438 0x10 ≠ k → dictGet od k = dictGet s.od k

theorem stamped_tdcStamp (s : State) (ch cycle : Nat) (tap : Fin 128) (latency : Int) : Stamped s (s.tdcStamp ch cycle tap latency).2 := by
  unfold State.tdcStamp State.tapTime
  by_cases h : (!bit (s.num 0x1500 0x03) 9) = true
  · rw [if_pos h]
    exact ⟨s.free, _, rfl, fun k hk => by rw [dictGet_dictSet, if_neg hk]⟩
  · rw [if_neg h]
    simp only
    split
    · exact ⟨s.free, s.od, rfl, fun _ _ => rfl⟩
    · exact ⟨s.free + 1, s.od, rfl, fun _ _ => rfl⟩

theorem stamped_time {s t : State} (h : Stamped s t) : t.time = s.time := by
  obtain ⟨f, od, rfl, -⟩ := h
  rfl

theorem stamped_num {s t : State} (h : Stamped s t) {i j : Nat} (hk : objKey 0x1438 0x10 ≠ objKey i j) : t.num i j = s.num i j := by
  obtain ⟨f, od, rfl, hod⟩ := h
  exact congrArg Val.toNat (hod _ hk)

/-- The edges counted in a gate are the only change to the unit. -/
theorem countEdge_time (s : State) (input : Nat) (t : Int) : ∃ g, s.countEdge input t = s.modTime (fun u => { u with gateEdges := g }) := by
  unfold State.countEdge
  split
  · exact ⟨s.time.gateEdges, rfl⟩
  · exact ⟨_, rfl⟩

/-- A presence bit reads as set, and what else the loop leaves is as it was. -/
theorem setPresent_leaves (s : State) (b : Nat) (v : Bool) : bit ((s.setPresent b v).num 0x1400 0x26) b = v ∧
    (s.setPresent b v).time.lastPps = s.time.lastPps ∧ (s.setPresent b v).time.ppsMiss = s.time.ppsMiss := by
  refine ⟨setPresent_bit s b v (fun n => by rw [bit_setBit, if_pos rfl]), ?_⟩
  obtain ⟨-, -, -, hlast, hmiss, -⟩ := timeFrame_time (timeFrame_setPresent s b v)
  rw [hlast, hmiss]
  split
  · exact ⟨rfl, rfl⟩
  · exact ⟨rfl, rfl⟩

/-- The third edge in a row at its second makes PPS_IN present. -/
theorem doPpsInEdge_third {s : State} {rising : Bool} {tap : Fin 128} {last : Int} (hclock : s.sampleClock = true)
    (hedge : edgeTaken (s.num 0x1400 0x0E) rising = true) (hlast : s.time.lastPps = some last)
    (hnear : ((s.tdcStamp 6 s.cyc tap 0).1 - last - sec16).natAbs ≤ 6553600000) (hgood : s.time.ppsGood = 2) :
    ∃ u : State, doPpsInEdge rising tap none s = u.setPresent 0 true ∧ u.time.lastPps = some (s.tdcStamp 6 s.cyc tap 0).1 ∧ u.time.ppsMiss = 0 := by
  obtain ⟨g, hg⟩ := countEdge_time (s.tdcStamp 6 s.cyc tap 0).2 2 (s.tdcStamp 6 s.cyc tap 0).1
  have htime := stamped_time (stamped_tdcStamp s 6 s.cyc tap 0)
  generalize htd : s.tdcStamp 6 s.cyc tap 0 = x at *
  have hregular : decide ((x.1 - last - sec16).natAbs ≤ 100000 * 65536) = true := decide_eq_true (by omega)
  refine ⟨(x.2.countEdge 2 x.1).modTime (fun u => { u with
    lastPps := some x.1, ppsMiss := 0, ppsGood := u.ppsGood + 1
    ppsTheta := some (x.1 - ps16 (s.int 0x1400 0x0F 32) - rhuDiv (x.1 - ps16 (s.int 0x1400 0x0F 32)) sec16 * sec16) }), ?_, rfl, rfl⟩
  have hgo : ¬ (!s.sampleClock || !edgeTaken (s.num 0x1400 0x0E) rising) = true := by simp [hclock, hedge]
  unfold doPpsInEdge
  rw [if_neg hgo]
  simp only [htd, hlast, hregular, if_true]
  refine if_pos ?_
  have hgood' : (x.2.countEdge 2 x.1).time.ppsGood = 2 := by
    rw [hg]
    exact (congrArg TimeUnit.ppsGood htime).trans hgood
  show 3 ≤ (x.2.countEdge 2 x.1).time.ppsGood + 1
  omega

/-! ### Setting the time (R344) -/

/-- The ten bytes of a TIME80 give its instant. -/
theorem ofTime80_bytes (ns : BitVec 64) (frac : BitVec 16) :
    ofTime80 (beBytes 8 ns.toNat ++ beBytes 2 frac.toNat) = ((ns.toNat * 65536 + frac.toNat : Nat) : Int) := by
  have hns : beField (beBytes 8 ns.toNat ++ beBytes 2 frac.toNat) 0 8 = ns.toNat := by
    unfold beField slice
    rw [List.drop_zero, List.take_left' (length_beBytes 8 _)]
    simp only [length_beBytes]
    exact (congrArg beNat (List.append_nil _)).trans ((beNat_beBytes 8 _).trans (Nat.mod_eq_of_lt ns.isLt))
  have hfrac : beField (beBytes 8 ns.toNat ++ beBytes 2 frac.toNat) 8 2 = frac.toNat := by
    unfold beField slice
    rw [List.drop_left' (length_beBytes 8 _), List.take_of_length_le (length_beBytes 2 _).le]
    simp only [length_beBytes]
    exact (congrArg beNat (List.append_nil _)).trans (beNat_mask frac)
  unfold ofTime80
  rw [hns, hfrac]

/-- The row of the time that the host sets takes any ten bytes. -/
theorem time_row {b : Bytes} (h : b.length = 10) : actRow 0x1400 0x12 2 b = true := by
  have hfind : findObj 0x1400 0x12 = .row (rowX 0x12 0x12 .time80 none (some 2) (.blob (List.replicate 10 0)) .any) := rfl
  unfold actRow
  rw [hfind]
  simp only [h]
  rfl

/-- What discipline takes first leaves the state, the limit and the runs of the clock as they were. -/
theorem takeThetas_kept (s : State) : s.takeThetas.timeState = s.timeState ∧ s.takeThetas.lockLimit = s.lockLimit ∧
    s.takeThetas.time.fresh = s.time.fresh ∧ s.takeThetas.time.lockRun = s.time.lockRun ∧ s.takeThetas.time.farRun = s.time.farRun :=
  ⟨rfl, rfl, rfl, rfl, rfl⟩

theorem settle_timeState (s : State) : s.settle.timeState = s.timeState := rfl

/-- The run of good and of far measurements locks and unlocks, past what discipline takes first. -/
theorem discipline_judges {s : State} {th : Int} (hfresh : s.time.fresh = false) :
    (s.timeState = 2 → s.time.lockRun = 15 → (th.natAbs : Int) ≤ s.lockLimit → (s.takeThetas.disciplineWith th).settle.timeState = 3) ∧
      (s.timeState = 3 → s.time.farRun = 3 → 4 * s.lockLimit < (th.natAbs : Int) → (s.takeThetas.disciplineWith th).settle.timeState = 2) := by
  obtain ⟨hstate, hlimit, hfresh', hlock, hfar⟩ := takeThetas_kept s
  rw [settle_timeState, ← hstate, ← hlimit, ← hlock, ← hfar]
  exact disciplineWith_judges (hfresh'.trans hfresh)

/-- Settles O57. -/
theorem deviceTimeFollowsItsReference : Obligations.DeviceTimeFollowsItsReference := by
  unfold Obligations.DeviceTimeFollowsItsReference
  intro s v level ns frac th last rising warm tap count x stamp present size
  refine ⟨fun hr hl hmode hstate => ?_, fun h => ?_, fun hth h1 => ?_, fun hclock hedge hlast hnear hgood => ?_, fun h => ?_, fun h => ?_,
    fun hlow hhigh hgood => ?_, fun hlow hbad => ?_, fun hpresent => ⟨_, rfl, ?_⟩, fun h4 => ⟨_, rfl, ?_⟩, fun h4 => ?_, fun h1 hw => ⟨_, rfl, ?_⟩,
    fun h1 hw => ?_, fun hclock => ?_, rfl⟩
  · refine does_unitWrite (n := 0) rfl hr (time_row (by simp [length_beBytes])) hl (.inl hmode) (by decide) (by decide) (.inl rfl) ?_
    show (timeSetWrite (ofTime80 (beBytes 8 ns.toNat ++ beBytes 2 frac.toNat)) (Opened v s)).acted = _
    have hfree : ((Opened v s).timeState == 0 || (Opened v s).timeState == 2) = true := by
      have hsame : (Opened v s).timeState = s.timeState := by cases v <;> rfl
      rcases hstate with h | h <;> simp [hsame, h]
    rw [timeSetWrite, if_pos hfree, ofTime80_bytes]
    rfl
  · exact next_of_eq (u := doDiscipline s) rfl (by simp only [doDiscipline, h])
  · have hsat := sat_of_theta hth
    have hdo : doDiscipline s = s.takeThetas.disciplineWith th := by
      unfold doDiscipline
      simp only [hth]
      exact if_neg (fun h => h1 (eq_of_beq h))
    obtain ⟨htheta, hthetas⟩ := disciplineWith_reports s.takeThetas th
    refine ⟨_, congrArg (fun w : State => Host.Outcome.next w.settle) hdo, htheta.trans (congrArg (ofSigned · 64) hsat), congrArg (·.1) hthetas,
      congrArg (·.2.2) hthetas, congrArg (·.2.1) hthetas, fun hfresh hstate hlarge => ?_, fun hsmall => ?_, fun hfresh h2 hrun hnear => ?_,
      fun hfresh h3 hrun hfar => ?_⟩
    · exact disciplineWith_steps (s := s.takeThetas) hfresh hstate (Int.ofNat_le.mp hlarge)
    · exact disciplineWith_slews (s := s.takeThetas) (Int.ofNat_lt.mp hsmall)
    · exact (discipline_judges hfresh).1 h2 hrun hnear
    · exact (discipline_judges hfresh).2 h3 hrun hfar
  · obtain ⟨w, hw, hwlast, hwmiss⟩ := doPpsInEdge_third hclock hedge hlast hnear hgood
    obtain ⟨hbit, hlast', hmiss'⟩ := setPresent_leaves w 0 true
    exact ⟨_, congrArg (fun u : State => Host.Outcome.next u.settle) hw, hbit, hlast'.trans hwlast, hmiss'.trans hwmiss⟩
  · replace h : s.time.ppsMiss = 0 := h
    refine next_of_eq (u := doPpsInTimeout s) rfl ?_
    unfold doPpsInTimeout State.modTime
    simp only [h]
    exact if_neg (by decide)
  · replace h : 1 ≤ s.time.ppsMiss := h
    have hdo : doPpsInTimeout s = (s.modTime (fun u => { u with ppsMiss := u.ppsMiss + 1, ppsGood := 0 })).setPresent 0 false :=
      if_pos (Nat.succ_le_succ h)
    exact ⟨_, congrArg (fun u : State => Host.Outcome.next u.settle) hdo, (setPresent_leaves _ 0 false).1⟩
  · replace hgood : 1 ≤ s.time.refinGood := hgood
    have hdo : doRefinGate count s = (s.modTime (fun u => { u with refinGood := u.refinGood + 1, refinBad := 0 })).setPresent 1 true := by
      unfold doRefinGate State.modTime
      simp only [hlow, hhigh, decide_true, Bool.and_self, if_true]
      exact if_pos (Nat.succ_le_succ hgood)
    exact ⟨_, congrArg (fun u : State => Host.Outcome.next u.settle) hdo, (setPresent_leaves _ 1 true).1⟩
  · replace hbad : 1 ≤ s.time.refinBad := hbad
    have hdo : doRefinGate count s = (s.modTime (fun u => { u with refinGood := 0, refinBad := u.refinBad + 1 })).setPresent 1 false := by
      unfold doRefinGate State.modTime
      simp only [show ¬ 9999000000 ≤ count by omega, decide_false, Bool.false_and, Bool.false_eq_true, if_false]
      exact (if_neg (by decide)).trans (if_pos (Nat.succ_le_succ hbad))
    exact ⟨_, congrArg (fun u : State => Host.Outcome.next u.settle) hdo, (setPresent_leaves _ 1 false).1⟩
  · have hchoose : doReferenceRevert s = s.useReference (s.num 0x1400 0x02) := by
      unfold doReferenceRevert State.chooseReference
      simp only [Bool.not_true, Bool.and_false, Bool.false_eq_true, if_false, hpresent, if_true]
    exact (congrArg State.refInUse hchoose).trans (refInUse_useReference s _)
  · exact (congrArg State.timeState (if_pos (by simpa using h4) : doHoldoverLimitExpiry s = _)).trans (ts_to s 5)
  · exact next_of_eq (u := doHoldoverLimitExpiry s) rfl (if_neg (by simpa using h4))
  · exact warm_ends h1 hw
  · refine next_of_eq (u := doOcxoWarmChange warm s) rfl ?_
    unfold doOcxoWarmChange
    extract_lets u level' used
    have hstate : u.timeState = 1 := h1
    have hcold : level' = false := beq_eq_false_iff_ne.mpr hw
    simp [hstate, hcold, u]
  · exact next_of_eq (u := doPpsOutPulse s) rfl (if_pos hclock)

end Sys2Proof.Machine

/-! The housekeeping converters: passes, injected conversions, calibration and excitation (R394 to R409). -/

namespace Sys2Proof.Machine

open Sys2Proof Sys2Proof.Safety

/-! ### What the converters' own work moves -/

/-- The objects that the converters move beside their result registers. -/
def converterKeys : List Nat :=
  [objKey 0x1800 0x10, objKey 0x1800 0x11, objKey 0x1800 0x12, objKey 0x1800 0x13, objKey 0x1830 0x11, objKey 0x1850 0x10]

/-- State t is s but for the converters and what they report. -/
def OnlyHka (s t : State) : Prop :=
  ∃ hka od, t = { s with hka := hka, od := od } ∧ ∀ k, k ∉ converterKeys → dictGet od k = dictGet s.od k

theorem onlyHka_refl (s : State) : OnlyHka s s := ⟨s.hka, s.od, rfl, fun _ _ => rfl⟩

theorem onlyHka_trans {s t u : State} (h : OnlyHka s t) (h' : OnlyHka t u) : OnlyHka s u := by
  obtain ⟨a, od, rfl, hk⟩ := h
  obtain ⟨a', od', rfl, hk'⟩ := h'
  exact ⟨a', od', rfl, fun k hn => (hk' k hn).trans (hk k hn)⟩

theorem onlyHka_hka (s : State) (x : Housekeeping) : OnlyHka s { s with hka := x } := ⟨x, s.od, rfl, fun _ _ => rfl⟩

theorem onlyHka_put (s : State) {idx sub : Nat} (n : Nat) (h : objKey idx sub ∈ converterKeys) : OnlyHka s (s.put idx sub n) := by
  refine ⟨s.hka, _, rfl, fun k hk => ?_⟩
  rw [dictGet_dictSet, if_neg]
  rintro rfl
  exact hk h

theorem onlyHka_ite {s t u : State} {c : Prop} [Decidable c] (h : OnlyHka s t) (h' : OnlyHka s u) : OnlyHka s (if c then t else u) := by
  split
  · exact h
  · exact h'

theorem onlyHka_num {s t : State} (h : OnlyHka s t) {i j : Nat} (hk : objKey i j ∉ converterKeys) : t.num i j = s.num i j := by
  obtain ⟨a, od, rfl, hod⟩ := h
  exact congrArg Val.toNat (hod _ hk)

theorem modConv_eq (s : State) (c : Fin 2) (f : Hka → Hka) : ∃ x, s.modConv c f = { s with hka := x } := by
  unfold State.modConv
  split
  · exact ⟨_, rfl⟩
  · exact ⟨_, rfl⟩

theorem onlyHka_modConv (s : State) (c : Fin 2) (f : Hka → Hka) : OnlyHka s (s.modConv c f) := by
  obtain ⟨x, hx⟩ := modConv_eq s c f
  rw [hx]
  exact onlyHka_hka s x

theorem conv_modConv (s : State) (c d : Fin 2) (f : Hka → Hka) : (s.modConv c f).conv d = if c = d then f (s.conv d) else s.conv d := by
  match c, d with
  | 0, 0 => rfl
  | 0, 1 => rfl
  | 1, 0 => rfl
  | 1, 1 => rfl

/-! ### What a pass or a run in progress keeps -/

/-- Whether a pass and a run are in progress, and what of each is held. -/
def Housekeeping.flags (h : Housekeeping) : Bool × Bool × Bool × Bool := (h.passing, h.calRunning, h.calHeld, h.trigHeld)

/-- The converters work on: neither a pass nor a run begins or ends, and none retires. -/
def WorksOn (s t : State) : Prop := OnlyHka s t ∧ t.hka.flags = s.hka.flags ∧ ∀ c, (t.conv c).retired = (s.conv c).retired

theorem worksOn_refl (s : State) : WorksOn s s := ⟨onlyHka_refl s, rfl, fun _ => rfl⟩

theorem worksOn_trans {s t u : State} (h : WorksOn s t) (h' : WorksOn t u) : WorksOn s u :=
  ⟨onlyHka_trans h.1 h'.1, h'.2.1.trans h.2.1, fun c => (h'.2.2 c).trans (h.2.2 c)⟩

theorem worksOn_put (s : State) {idx sub : Nat} (n : Nat) (h : objKey idx sub ∈ converterKeys) : WorksOn s (s.put idx sub n) :=
  ⟨onlyHka_put s n h, rfl, fun _ => rfl⟩

theorem worksOn_modConv (s : State) (c : Fin 2) {f : Hka → Hka} (hf : ∀ h, (f h).retired = h.retired) : WorksOn s (s.modConv c f) := by
  refine ⟨onlyHka_modConv s c f, ?_, fun d => ?_⟩
  · unfold State.modConv
    split <;> rfl
  · rw [conv_modConv]
    split
    · exact hf _
    · rfl

theorem worksOn_takeHkaCfg (s : State) (c : Fin 2) : WorksOn s (s.takeHkaCfg c) := by
  unfold State.takeHkaCfg
  extract_lets new old u
  split
  · exact worksOn_refl s
  · split
    · exact worksOn_refl s
    · have hu : WorksOn s u := worksOn_modConv s c (fun _ => rfl)
      split
      · exact worksOn_trans hu (worksOn_put u _ (by decide))
      · exact hu

theorem worksOn_takeIdle (s : State) : WorksOn s s.takeIdle := by
  have hgo : ∀ (u : State) (c : Fin 2), WorksOn u (if (u.conv c).job == .idle then u.takeHkaCfg c else u) := by
    intro u c
    split
    · exact worksOn_takeHkaCfg u c
    · exact worksOn_refl u
  exact worksOn_trans (hgo s 0) (hgo _ 1)

theorem worksOn_startCoil (s : State) : WorksOn s s.startCoil := by
  refine ⟨onlyHka_hka s _, rfl, fun c => ?_⟩
  have hgo : ∀ h : Hka, (if h.retired then h else { h with job := .coil, coilDue := false }).retired = h.retired := by
    intro h
    split <;> rfl
  match c with
  | 0 => exact hgo _
  | 1 => exact hgo _

theorem worksOn_coilTogether (s : State) (c : Fin 2) : WorksOn s (s.coilTogether c).2 := by
  have hskip : ∀ u : State, WorksOn u (u.modConv c (fun h => { h with coilDue := false })) := fun u => worksOn_modConv u c (fun _ => rfl)
  unfold State.coilTogether
  extract_lets o skip u
  have hu : WorksOn s u := worksOn_takeHkaCfg s o
  split
  · exact worksOn_startCoil s
  · split
    · exact hskip s
    · split
      · exact worksOn_refl s
      · split
        · exact worksOn_trans hu (worksOn_startCoil u)
        · exact hskip s

/-- What an idle converter takes leaves its configuration and its service, and never makes a busy converter idle. -/
theorem take_kept (h : Hka) (c : Fin 2) : (h.take c).retired = h.retired ∧ (h.take c).cfg = h.cfg := by
  have hcal : (h.beginCal c).retired = h.retired ∧ (h.beginCal c).cfg = h.cfg := by
    unfold Hka.beginCal
    split <;> exact ⟨rfl, rfl⟩
  unfold Hka.take
  split
  · exact ⟨rfl, rfl⟩
  · extract_lets u
    split
    · exact hcal
    · exact iteInduction (motive := fun x : Hka => x.retired = h.retired ∧ x.cfg = h.cfg) (fun _ => hcal) (fun _ =>
        iteInduction (motive := fun x : Hka => x.retired = h.retired ∧ x.cfg = h.cfg) (fun _ => hcal) (fun _ =>
          iteInduction (motive := fun x : Hka => x.retired = h.retired ∧ x.cfg = h.cfg) (fun _ => hcal) (fun _ => hcal)))

theorem worksOn_hkaNext (s : State) (c : Fin 2) : WorksOn s (s.hkaNext c) := by
  unfold State.hkaNext
  split
  · exact worksOn_refl s
  · extract_lets u x
    have hu : WorksOn s u := worksOn_takeHkaCfg s c
    have hx : WorksOn s x.2 := by
      refine worksOn_trans hu ?_
      unfold x
      split
      · exact worksOn_coilTogether u c
      · exact worksOn_refl u
    split
    · exact worksOn_trans hu (worksOn_modConv u c (fun _ => rfl))
    · split
      · exact worksOn_trans hx (worksOn_modConv x.2 c (fun h => (take_kept h c).1))
      · exact hx

theorem worksOn_reportHka (s : State) : WorksOn s s.reportHka :=
  worksOn_trans (worksOn_put s (idx := 0x1800) (sub := 0x13) _ (by decide)) (worksOn_put _ (idx := 0x1850) (sub := 0x10) _ (by decide))

theorem worksOn_hkaKick (s : State) : WorksOn s s.hkaKick :=
  worksOn_trans (worksOn_trans (worksOn_hkaNext s 0) (worksOn_hkaNext _ 1)) (worksOn_reportHka _)

/-! ### Passes and runs -/

theorem onlyHka_startPass (s : State) : OnlyHka s s.startPass := by
  unfold State.startPass
  extract_lets u fresh go begin' x w
  have hu : OnlyHka s u := (worksOn_takeIdle s).1
  split
  · exact hu
  · exact onlyHka_trans hu (onlyHka_trans (onlyHka_hka u _) (worksOn_hkaKick w).1)

theorem onlyHka_hkaTrigger (s : State) : OnlyHka s s.hkaTrigger :=
  onlyHka_ite (onlyHka_refl s) (onlyHka_ite (onlyHka_put s _ (by decide)) (onlyHka_ite (onlyHka_hka s _) (onlyHka_startPass s)))

theorem onlyHka_passEnd (s : State) : OnlyHka s s.passEnd := by
  unfold State.passEnd
  split
  · extract_lets x u w
    have hw : OnlyHka s w :=
      onlyHka_trans (onlyHka_trans (onlyHka_hka s _) (onlyHka_put _ (idx := 0x1800) (sub := 0x10) _ (by decide))) (worksOn_takeIdle _).1
    exact onlyHka_ite (onlyHka_trans hw (onlyHka_trans (onlyHka_hkaTrigger w) (worksOn_reportHka _).1)) (onlyHka_trans hw (worksOn_reportHka w).1)
  · exact onlyHka_refl s

theorem onlyHka_startCal (s : State) : OnlyHka s s.startCal := onlyHka_trans (onlyHka_hka s _) (worksOn_hkaKick _).1

/-- A pass that starts is in progress, with no trigger held, and leaves a run as it was. -/
theorem startPass_starts {s : State} (h : s.hka.hka0.retired = false) :
    s.startPass.hka.passing = true ∧ s.startPass.hka.trigHeld = false ∧ s.startPass.hka.calRunning = s.hka.calRunning := by
  unfold State.startPass
  extract_lets u fresh go begin' x w
  obtain ⟨-, hflags, hretired⟩ := worksOn_takeIdle s
  have hin : ¬ (u.hka.hka0.retired && u.hka.hka1.retired) = true := by
    have h0 : u.hka.hka0.retired = false := (hretired 0).trans h
    simp [h0]
  rw [if_neg hin]
  obtain ⟨-, hkick, -⟩ := worksOn_hkaKick w
  exact ⟨congrArg (·.1) hkick, congrArg (·.2.2.2) hkick, (congrArg (·.2.1) hkick).trans (congrArg (·.2.1) hflags)⟩

/-- The start of a pass leaves a run as it was. -/
theorem startPass_calRunning (s : State) : s.startPass.hka.calRunning = s.hka.calRunning := by
  unfold State.startPass
  extract_lets u fresh go begin' x w
  obtain ⟨-, hflags, -⟩ := worksOn_takeIdle s
  obtain ⟨-, hkick, -⟩ := worksOn_hkaKick w
  split
  · exact congrArg (·.2.1) hflags
  · exact (congrArg (·.2.1) hkick).trans (congrArg (·.2.1) hflags)

/-! ### The configuration at an entry boundary (R408) -/

theorem filter_mapSet {α : Type} (q : Nat → Bool) (m : Map α) {k : Nat} (v : α) (h : q k = false) :
    (mapSet m k v).filter (fun e => q e.1) = m.filter (fun e => q e.1) := by
  induction m with
  | nil => simp [mapSet, h]
  | cons e t ih =>
    obtain ⟨j, w⟩ := e
    unfold mapSet
    split
    · exact List.filter_cons_of_neg (by simp [h])
    · split
      · subst_vars
        rw [List.filter_cons_of_neg (by simp [h]), List.filter_cons_of_neg (by simp [h])]
      · simp only [List.filter_cons, ih]

theorem filter_mapDel {α : Type} (q : Nat → Bool) (m : Map α) {k : Nat} (h : q k = false) :
    (mapDel m k).filter (fun e => q e.1) = m.filter (fun e => q e.1) := by
  unfold mapDel
  rw [List.filter_filter]
  refine List.filter_congr (fun e _ => ?_)
  cases hq : q e.1 with
  | false => rfl
  | true =>
    have hne : e.1 ≠ k := fun he => by simp [he, h] at hq
    simp [hne]

/-- An object outside the draft leaves the base of the draft as it was. -/
theorem base_put (s : State) {idx sub : Nat} (n : Nat) (h : isDraftObj (objKey idx sub) = false) : (s.put idx sub n).base = s.base := by
  have hpart : draftPart (s.put idx sub n).od = draftPart s.od := by
    show (dictSet s.od (objKey idx sub) (.num n)).filter (fun e => isDraftObj e.1) = s.od.filter (fun e => isDraftObj e.1)
    unfold dictSet
    split
    · exact filter_mapDel isDraftObj s.od h
    · exact filter_mapSet isDraftObj s.od _ h
  unfold State.base
  rw [hpart]
  rfl

/-- A converter at an entry boundary runs on what has been committed for it. -/
def Taken (s : State) (c : Fin 2) : Prop :=
  (s.conv c).job = .idle → (s.cyc < s.hka.cfgFrom ∨ s.mode = 7) ∨ (s.conv c).cfg = chapter15 s.base

theorem takeHkaCfg_of_taken {s : State} {c : Fin 2} (h : Taken s c) (hidle : (s.conv c).job = .idle) : s.takeHkaCfg c = s := by
  unfold State.takeHkaCfg
  rcases h hidle with hwait | hcfg
  · exact if_pos (by rcases hwait with h | h <;> simp [h])
  · exact (ite_eq_left_iff.mpr fun _ => if_pos (by simp [hcfg]))

/-- What decides whether a converter has taken its configuration stays, and no converter falls idle. -/
def SameCfg (s t : State) : Prop :=
  t.base = s.base ∧ t.cyc = s.cyc ∧ t.mode = s.mode ∧ t.hka.cfgFrom = s.hka.cfgFrom ∧
    ∀ c, (t.conv c).cfg = (s.conv c).cfg ∧ (t.conv c).retired = (s.conv c).retired ∧ ((t.conv c).job = .idle → (s.conv c).job = .idle)

theorem sameCfg_refl (s : State) : SameCfg s s := ⟨rfl, rfl, rfl, rfl, fun _ => ⟨rfl, rfl, id⟩⟩

theorem sameCfg_trans {s t u : State} (h : SameCfg s t) (h' : SameCfg t u) : SameCfg s u := by
  obtain ⟨hbase, hcyc, hmode, hfrom, hconv⟩ := h
  obtain ⟨hbase', hcyc', hmode', hfrom', hconv'⟩ := h'
  exact ⟨hbase'.trans hbase, hcyc'.trans hcyc, hmode'.trans hmode, hfrom'.trans hfrom, fun c =>
    ⟨(hconv' c).1.trans (hconv c).1, (hconv' c).2.1.trans (hconv c).2.1, fun h => (hconv c).2.2 ((hconv' c).2.2 h)⟩⟩

theorem taken_of_sameCfg {s t : State} (h : SameCfg s t) {c : Fin 2} (hc : Taken s c) : Taken t c := by
  obtain ⟨hbase, hcyc, hmode, hfrom, hconv⟩ := h
  obtain ⟨hcfg, -, hidle⟩ := hconv c
  unfold Taken
  rw [hbase, hcyc, hmode, hfrom, hcfg]
  exact fun h => hc (hidle h)

/-- A converter's own state decides nothing of the draft or of the clock. -/
theorem base_modConv (s : State) (c : Fin 2) (f : Hka → Hka) : (s.modConv c f).base = s.base ∧ (s.modConv c f).cyc = s.cyc ∧
    (s.modConv c f).mode = s.mode ∧ (s.modConv c f).hka.cfgFrom = s.hka.cfgFrom := by
  unfold State.modConv
  split <;> exact ⟨rfl, rfl, rfl, rfl⟩

/-- A converter that was at an entry boundary goes on to other work. -/
theorem sameCfg_modConv {s t : State} (h : SameCfg s t) {c : Fin 2} {f : Hka → Hka} (hidle : (s.conv c).job = .idle)
    (hf : ∀ h, (f h).cfg = h.cfg ∧ (f h).retired = h.retired) : SameCfg s (t.modConv c f) := by
  obtain ⟨hbase, hcyc, hmode, hfrom, hconv⟩ := h
  obtain ⟨hb, hy, hm, hc⟩ := base_modConv t c f
  refine ⟨hb.trans hbase, hy.trans hcyc, hm.trans hmode, hc.trans hfrom, fun d => ?_⟩
  · rw [conv_modConv]
    split
    · rename_i hcd
      rw [← hcd]
      exact ⟨(hf _).1.trans (hconv c).1, (hf _).2.trans (hconv c).2.1, fun _ => hidle⟩
    · exact hconv d

theorem sameCfg_put (s : State) {idx sub : Nat} (n : Nat) (h : isDraftObj (objKey idx sub) = false) (hmode : objKey idx sub ≠ objKey 0x1300 0x02) :
    SameCfg s (s.put idx sub n) :=
  ⟨base_put s n h, rfl, (State.num_put ..).trans (if_neg hmode), rfl, fun _ => ⟨rfl, rfl, id⟩⟩

theorem sameCfg_startCoil (s : State) : SameCfg s s.startCoil := by
  have hgo : ∀ h : Hka, (if h.retired then h else { h with job := .coil, coilDue := false }).cfg = h.cfg ∧
      (if h.retired then h else { h with job := .coil, coilDue := false }).retired = h.retired ∧
      ((if h.retired then h else { h with job := .coil, coilDue := false }).job = .idle → h.job = .idle) := by
    intro h
    split
    · exact ⟨rfl, rfl, id⟩
    · exact ⟨rfl, rfl, fun h => by cases h⟩
  refine ⟨rfl, rfl, rfl, rfl, fun c => ?_⟩
  match c with
  | 0 => exact hgo _
  | 1 => exact hgo _

theorem sameCfg_coilTogether {s : State} {c : Fin 2} (h : Taken s (otherConv c)) (hidle : (s.conv c).job = .idle) :
    SameCfg s (s.coilTogether c).2 := by
  have hskip : SameCfg s (s.modConv c (fun h => { h with coilDue := false })) := sameCfg_modConv (sameCfg_refl s) hidle (fun _ => ⟨rfl, rfl⟩)
  unfold State.coilTogether
  extract_lets o skip u
  split
  · exact sameCfg_startCoil s
  · split
    · exact hskip
    · split
      · exact sameCfg_refl s
      · rename_i hbusy
        simp only [Bool.or_eq_true, bne_iff_ne, ne_eq, not_or, not_not] at hbusy
        have hu : u = s := takeHkaCfg_of_taken h hbusy.1
        split
        · rw [hu]
          exact sameCfg_startCoil s
        · exact hskip

theorem sameCfg_hkaNext {s : State} (h : ∀ c, Taken s c) (c : Fin 2) : SameCfg s (s.hkaNext c) := by
  unfold State.hkaNext
  split
  · exact sameCfg_refl s
  · rename_i hbusy
    simp only [Bool.or_eq_true, bne_iff_ne, ne_eq, not_or, not_not] at hbusy
    obtain ⟨hidle, -⟩ := hbusy
    extract_lets u x
    have hu : u = s := takeHkaCfg_of_taken (h c) hidle
    have hx : SameCfg s x.2 := by
      unfold x
      rw [hu]
      split
      · exact sameCfg_coilTogether (h _) hidle
      · exact sameCfg_refl s
    rw [hu]
    split
    · exact sameCfg_modConv (sameCfg_refl s) hidle (fun _ => ⟨rfl, rfl⟩)
    · split
      · exact sameCfg_modConv hx hidle (fun h => ⟨(take_kept h c).2, (take_kept h c).1⟩)
      · exact hx

theorem sameCfg_hkaKick {s : State} (h : ∀ c, Taken s c) : SameCfg s s.hkaKick := by
  have h0 := sameCfg_hkaNext h 0
  have h1 := sameCfg_hkaNext (fun c => taken_of_sameCfg h0 (h c)) 1
  exact sameCfg_trans (sameCfg_trans h0 h1) (sameCfg_trans (sameCfg_put _ (idx := 0x1800) (sub := 0x13) _ (by decide) (by decide))
    (sameCfg_put _ (idx := 0x1850) (sub := 0x10) _ (by decide) (by decide)))

/-- A number that both converters share stays with their configurations. -/
theorem hkaNum_of_sameCfg {s t : State} (h : SameCfg s t) (sub : Nat) : t.hkaNum sub = s.hkaNum sub := by
  obtain ⟨-, -, -, -, hconv⟩ := h
  have h0 := hconv 0
  have h1 := hconv 1
  show dictNum (if (t.conv 0).retired then (t.conv 1).cfg else (t.conv 0).cfg) 0x1800 sub =
    dictNum (if (s.conv 0).retired then (s.conv 1).cfg else (s.conv 0).cfg) 0x1800 sub
  rw [h0.1, h0.2.1, h1.1]

/-- A converter takes what was committed, and nothing that decides the other's changes. -/
theorem takeHkaCfg_kept (s : State) (c : Fin 2) : let t := s.takeHkaCfg c
    (t.base = s.base ∧ t.cyc = s.cyc ∧ t.mode = s.mode ∧ t.hka.cfgFrom = s.hka.cfgFrom) ∧ (∀ d, c ≠ d → t.conv d = s.conv d) ∧
      ((s.cyc < s.hka.cfgFrom ∨ s.mode = 7) ∨ (t.conv c).cfg = chapter15 s.base) := by
  intro t
  generalize ht : t = u
  unfold t State.takeHkaCfg at ht
  split at ht
  · subst ht
    rename_i hwait
    exact ⟨⟨rfl, rfl, rfl, rfl⟩, fun _ _ => rfl, .inl (by simpa using hwait)⟩
  · extract_lets new old m at ht
    split at ht
    · subst ht
      rename_i hcfg
      exact ⟨⟨rfl, rfl, rfl, rfl⟩, fun _ _ => rfl, .inr (eq_of_beq hcfg).symm⟩
    · have hm : (m.base = s.base ∧ m.cyc = s.cyc ∧ m.mode = s.mode ∧ m.hka.cfgFrom = s.hka.cfgFrom) ∧ (∀ d, c ≠ d → m.conv d = s.conv d) ∧
          ((s.cyc < s.hka.cfgFrom ∨ s.mode = 7) ∨ (m.conv c).cfg = chapter15 s.base) := by
        have hbase := base_modConv s c (fun h => { h with cfg := new })
        refine ⟨hbase, fun d hd => (conv_modConv ..).trans (if_neg hd), .inr ?_⟩
        exact congrArg Hka.cfg ((conv_modConv s c c _).trans (if_pos rfl))
      split at ht
      · subst ht
        obtain ⟨⟨hbase, hcyc, hmode, hfrom⟩, hother, htaken⟩ := hm
        have hput := sameCfg_put m (idx := 0x1830) (sub := 0x11) (setBit (m.num 0x1830 0x11) 0 false) (by decide) (by decide)
        obtain ⟨hbase', hcyc', hmode', hfrom', -⟩ := hput
        exact ⟨⟨hbase'.trans hbase, hcyc'.trans hcyc, hmode'.trans hmode, hfrom'.trans hfrom⟩, hother, htaken⟩
      · subst ht
        exact hm

/-- What decides whether the other converter has taken its configuration stays when one takes its own. -/
theorem taken_takeHkaCfg {s : State} {c d : Fin 2} (h : c = d ∨ Taken s d) : Taken (s.takeHkaCfg c) d := by
  obtain ⟨⟨hbase, hcyc, hmode, hfrom⟩, hother, htaken⟩ := takeHkaCfg_kept s c
  unfold Taken
  rw [hbase, hcyc, hmode, hfrom]
  by_cases hcd : c = d
  · rw [← hcd]
    exact fun _ => htaken
  · rw [hother d hcd]
    exact h.resolve_left hcd

/-- Once the idle converters have taken what was committed, each at a boundary runs on it. -/
theorem taken_takeIdle (s : State) (c : Fin 2) : Taken s.takeIdle c := by
  have hgo : ∀ (u : State) (c d : Fin 2), c = d ∨ Taken u d → Taken (if (u.conv c).job == .idle then u.takeHkaCfg c else u) d := by
    intro u c d h
    split
    · exact taken_takeHkaCfg h
    · rename_i hbusy
      rcases h with rfl | h
      · exact fun hidle => absurd (beq_iff_eq.mpr hidle) hbusy
      · exact h
  match c with
  | 0 => exact hgo _ 1 0 (.inr (hgo s 0 0 (.inl rfl)))
  | 1 => exact hgo _ 1 1 (.inl rfl)

theorem takeIdle_of_taken {s : State} (h : ∀ c, Taken s c) : s.takeIdle = s := by
  have hgo : ∀ c, (if (s.conv c).job == .idle then s.takeHkaCfg c else s) = s := by
    intro c
    split
    · exact takeHkaCfg_of_taken (h c) (eq_of_beq ‹_›)
    · rfl
  unfold State.takeIdle
  extract_lets go
  show go (go s 0) 1 = s
  rw [show go s 0 = s from hgo 0]
  exact hgo 1

/-- A converter's queue of injected entries decides nothing of its configuration. -/
theorem sameCfg_injected (s : State) (c : Fin 2) (l : List Nat) : SameCfg s (s.modConv c (fun h => { h with injected := l })) := by
  obtain ⟨hb, hy, hm, hc⟩ := base_modConv s c (fun h => { h with injected := l })
  refine ⟨hb, hy, hm, hc, fun d => ?_⟩
  rw [conv_modConv]
  split <;> exact ⟨rfl, rfl, id⟩

/-- An injected trigger changes no configuration that is taken. -/
theorem sameCfg_injectTrigger {s : State} (h : ∀ c, Taken s c) : SameCfg s s.injectTrigger := by
  unfold State.injectTrigger
  split
  · exact sameCfg_refl s
  · split
    · exact sameCfg_put s _ (by decide) (by decide)
    · rw [takeIdle_of_taken h]
      extract_lets u all queue
      have hqueue := sameCfg_trans (sameCfg_injected s 0 (queue 0)) (sameCfg_injected _ 1 (queue 1))
      exact sameCfg_trans hqueue (sameCfg_hkaKick fun c => taken_of_sameCfg hqueue (h c))

/-! ### The trigger of a pass -/

theorem runs_of_onlyHka {s t : State} (h : OnlyHka s t) : t.hkaRuns = s.hkaRuns := by
  have hmode : t.mode = s.mode := onlyHka_num h (i := 0x1300) (j := 0x02) (by decide)
  obtain ⟨a, od, rfl, -⟩ := h
  unfold State.hkaRuns
  rw [hmode]

theorem launching_of_onlyHka {s t : State} (h : OnlyHka s t) : t.anyLaunching = s.anyLaunching := by
  obtain ⟨a, od, rfl, -⟩ := h
  rfl

/-- A trigger 1 is a sequence trigger. -/
theorem doSequencePassStart_of_one {s : State} (h : s.takeIdle.hkaNum 0x01 = 1) (hinj : s.takeIdle.hkaNum 0x06 ≠ 7 ∨ s.anyLaunching = true) :
    doSequencePassStart s = s.takeIdle.hkaTrigger := by
  unfold doSequencePassStart
  extract_lets u w
  have hw : w = u := if_neg (by
    rw [launching_of_onlyHka (worksOn_takeIdle s).1]
    rcases hinj with h6 | hl
    · simp [h6, u]
    · simp [hl])
  rw [hw, show u.hkaNum 0x01 = 1 from h]
  rfl

/-- Trigger 2 waits for the frame boundary while a route launches. -/
theorem doSequencePassStart_of_two {s : State} (h : s.takeIdle.hkaNum 0x01 = 2) (hl : s.anyLaunching = true) :
    doSequencePassStart s = s.takeIdle := by
  have hlaunch : s.takeIdle.anyLaunching = true := (launching_of_onlyHka (worksOn_takeIdle s).1).trans hl
  unfold doSequencePassStart
  extract_lets u w
  have hw : w = u := if_neg (by rw [hlaunch]; simp)
  rw [hw, show u.hkaNum 0x01 = 2 from h]
  exact if_pos hlaunch

/-- Under trigger 3 the period injects alone, and the pass waits for its request. -/
theorem doSequencePassStart_of_three {s : State} (h : s.takeIdle.hkaNum 0x01 = 3) (h6 : s.takeIdle.hkaNum 0x06 = 7) (hl : s.anyLaunching = false) :
    doSequencePassStart s = s.takeIdle.injectTrigger := by
  have hlaunch : s.takeIdle.anyLaunching = false := (launching_of_onlyHka (worksOn_takeIdle s).1).trans hl
  have hnum : s.takeIdle.injectTrigger.hkaNum 0x01 = 3 := (hkaNum_of_sameCfg (sameCfg_injectTrigger (taken_takeIdle s)) 0x01).trans h
  unfold doSequencePassStart
  extract_lets u w
  have hw : w = u.injectTrigger := if_pos (by rw [hlaunch, show u.hkaNum 0x06 = 7 from h6]; rfl)
  rw [hw, show u.injectTrigger.hkaNum 0x01 = 3 from hnum]
  rfl

/-- What a sequence trigger does is decided by the flags alone. -/
theorem hkaTrigger_cases {s : State} (h : s.hkaRuns = true) :
    (s.hka.passing = true → s.hkaTrigger = s.bump 0x1800 0x11 1) ∧
    (s.hka.passing = false → s.hka.calRunning = true → s.hkaTrigger = { s with hka := { s.hka with trigHeld := true } }) ∧
    (s.hka.passing = false → s.hka.calRunning = false → s.hkaTrigger = s.startPass) := by
  unfold State.hkaTrigger
  refine ⟨fun hp => ?_, fun hp hc => ?_, fun hp hc => ?_⟩
  · simp [h, hp]
  · simp [h, hp, hc]
  · simp [h, hp, hc]

/-! ### Conversions and runs -/

theorem result_not_converterKey (c : Fin 2) {e : Nat} (h : e < 64) : objKey (0x1820 + c.val) (e + 1) ∉ converterKeys := by
  have hc := c.isLt
  simp only [converterKeys, objKey, List.mem_cons, List.not_mem_nil, or_false]
  omega

/-- The conversion of an entry writes its result, and what the converters go on with leaves it. -/
theorem doConversionComplete_result {s : State} {c : Fin 2} {outputs : List Int} {e : Nat} (hruns : s.hkaRuns = true) (hgate : s.convGated c = false)
    (hjob : (s.conv c).job = .entry e) (he : e < 64) (hlen : outputs.length = ((s.conv c).profile c).a) :
    (doConversionComplete c outputs s).num (0x1820 + c.val) (e + 1) =
      hkaResult (s.num (0x1820 + c.val) (e + 1)) ((s.conv c).correct ((s.conv c).gain c) (rhuDiv (sumI outputs) ((s.conv c).profile c).a))
        (s.unsettled c ((s.conv c).profile c)) (fullScale outputs) (s.calHas c) := by
  have hin : ¬ (!s.hkaRuns || s.convGated c || (s.conv c).job == .idle || outputs.length != ((s.conv c).profile c).a) = true := by
    simp [hruns, hgate, hjob, hlen]
  have hkey := result_not_converterKey c he
  unfold doConversionComplete
  extract_lets h p x v unset clip w last u
  rw [if_neg hin]
  have hw : w = s.writeResult c (0x1820 + c.val) (e + 1) v unset clip := by
    unfold w
    rw [show h.job = .entry e from hjob]
  have hu : OnlyHka w u := onlyHka_modConv w c _
  have hlast : OnlyHka w u.passEnd.hkaKick.passEnd :=
    onlyHka_trans hu (onlyHka_trans (onlyHka_passEnd u) (onlyHka_trans (worksOn_hkaKick _).1 (onlyHka_passEnd _)))
  rw [onlyHka_num hlast hkey, hw]
  exact (State.num_put ..).trans (if_pos rfl)

/-- A run that is asked for during a run is held. -/
theorem requestCal_holds {s : State} (hruns : s.hkaRuns = true) (hcal : s.hka.calRunning = true) :
    s.requestCal.hka.calHeld = true ∧ s.requestCal.hka.calRunning = true := by
  have heq : s.requestCal = ({ s with hka := { s.hka with calHeld := true } } : State).reportHka := by
    unfold State.requestCal
    simp [hruns, hcal]
  obtain ⟨-, hflags, -⟩ := worksOn_reportHka ({ s with hka := { s.hka with calHeld := true } } : State)
  rw [heq]
  exact ⟨congrArg (·.2.2.1) hflags, (congrArg (·.2.1) hflags).trans hcal⟩

/-- The corrections of a run that is over wait on a converter in service. -/
def Hka.corrected (h : Hka) : Hka :=
  if h.retired then h else { h with corrNew := some (h.calNew, (h.corrNew.map (·.2)).getD [] ++ h.calGains) }

/-- The state in which a run that is over is counted. -/
def calCounted (s : State) : State :=
  ({ s with hka := { s.hka with calRunning := false, calHeld := false, hka0 := s.hka.hka0.corrected, hka1 := s.hka.hka1.corrected } } : State).bump
    0x1850 0x11 1

theorem calCounted_num (s : State) : (calCounted s).num 0x1850 0x11 = incWrap (s.num 0x1850 0x11) 1 32 :=
  (State.num_bump ..).trans (if_pos rfl)

theorem calCounted_conv (s : State) (c : Fin 2) : (calCounted s).conv c = (s.conv c).corrected := by
  match c with
  | 0 => rfl
  | 1 => rfl

theorem doHkaCalibrationComplete_of_over {s : State} (hrun : s.hka.calRunning = true) (h0 : s.hka.hka0.calOver = true) (h1 : s.hka.hka1.calOver = true) :
    doHkaCalibrationComplete s =
      (if s.hka.calHeld then (if s.hka.trigHeld then (calCounted s).startPass else calCounted s).startCal
        else (if s.hka.trigHeld then (calCounted s).startPass else calCounted s)).reportHka :=
  if_neg (by simp [hrun, h0, h1])

/-- A run that is over is counted, and ends unless another was held. -/
theorem doHkaCalibrationComplete_counts {s : State} (hrun : s.hka.calRunning = true) (h0 : s.hka.hka0.calOver = true)
    (h1 : s.hka.hka1.calOver = true) :
    (doHkaCalibrationComplete s).num 0x1850 0x11 = incWrap (s.num 0x1850 0x11) 1 32 ∧
      (s.hka.calHeld = false → (doHkaCalibrationComplete s).hka.calRunning = false) := by
  rw [doHkaCalibrationComplete_of_over hrun h0 h1]
  have hpass : OnlyHka (calCounted s) (if s.hka.trigHeld then (calCounted s).startPass else calCounted s) :=
    onlyHka_ite (onlyHka_startPass _) (onlyHka_refl _)
  refine ⟨?_, fun hheld => ?_⟩
  · have hlast := onlyHka_trans (onlyHka_trans hpass (onlyHka_ite (c := s.hka.calHeld = true) (onlyHka_startCal _) (onlyHka_refl _)))
      (worksOn_reportHka _).1
    rw [onlyHka_num hlast (by decide), calCounted_num]
  · rw [if_neg (by simp [hheld])]
    refine (congrArg (·.2.1) (worksOn_reportHka _).2.1).trans ?_
    show (if s.hka.trigHeld = true then (calCounted s).startPass else calCounted s).hka.calRunning = false
    split
    · exact startPass_calRunning _
    · rfl

/-- The new corrections of a run wait for the next pass. -/
theorem doHkaCalibrationComplete_corrections {s : State} {c : Fin 2} (hrun : s.hka.calRunning = true) (h0 : s.hka.hka0.calOver = true)
    (h1 : s.hka.hka1.calOver = true) (htrig : s.hka.trigHeld = false) (hheld : s.hka.calHeld = false) (hin : (s.conv c).retired = false) :
    ((doHkaCalibrationComplete s).conv c).corrNew =
      some ((s.conv c).calNew, ((s.conv c).corrNew.map (·.2)).getD [] ++ (s.conv c).calGains) ∧
    ((doHkaCalibrationComplete s).conv c).corr = (s.conv c).corr := by
  have hconv : (doHkaCalibrationComplete s).conv c = (s.conv c).corrected := by
    rw [doHkaCalibrationComplete_of_over hrun h0 h1, if_neg (by simp [hheld]), if_neg (by simp [htrig])]
    exact calCounted_conv s c
  rw [hconv, Hka.corrected, if_neg (by simp [hin])]
  exact ⟨rfl, rfl⟩

/-- Committed excitation is applied, and both converters reset their filters. -/
theorem doExcitationChange_of_due {s : State} {x : Nat × Nat} (h : s.hka.excitationDue = some x) (hruns : s.hkaRuns = true) (hmode : s.mode ≠ 7) :
    doExcitationChange s = { s with hka := { s.hka with
      iexc := x, excitationDue := none, hka0 := s.hka.hka0.resetFilter s.cyc, hka1 := s.hka.hka1.resetFilter s.cyc } } := by
  unfold doExcitationChange
  rw [h]
  exact if_neg (by simp [hruns, hmode])

/-- Settles O60. -/
theorem convertersRunTheirSequences : Obligations.ConvertersRunTheirSequences := by
  unfold Obligations.ConvertersRunTheirSequences
  intro s v level c outputs e x h p u w held
  have hu : OnlyHka s u := (worksOn_takeIdle s).1
  have hflags : u.hka.flags = s.hka.flags := (worksOn_takeIdle s).2.1
  have hpassing : u.hka.passing = s.hka.passing := congrArg (·.1) hflags
  have hcal : u.hka.calRunning = s.hka.calRunning := congrArg (·.2.1) hflags
  refine ⟨fun h1 h6 hruns => ?_, fun h2 hl => ?_, fun h3 h6 hl => ?_, fun h0 => ?_, fun hr hl hmode => ⟨fun h3 => ?_, fun h3 => ?_⟩,
    fun hr hl hmode => ⟨fun h6 => ?_, fun h6 => ?_⟩, fun hruns hbusy => ?_, fun hruns hgate hjob he hlen => ?_, fun hout => ?_,
    fun hr hl hmode => ?_, fun hruns hrun => ?_, fun hruns hrun => ?_, fun hrun h0 h1 => ?_, fun hrun => ?_, fun hdue hruns hmode => ?_, fun hnone => ?_⟩
  · obtain ⟨hoverrun, hhold, hstart⟩ := hkaTrigger_cases ((runs_of_onlyHka hu).trans hruns)
    have hone := doSequencePassStart_of_one h1 h6
    refine ⟨fun hp => ?_, fun hp hc => ?_, fun hp hc => ?_⟩
    · exact next_of_eq (u := doSequencePassStart s) rfl (hone.trans (hoverrun (hpassing.trans hp)))
    · exact next_of_eq (u := doSequencePassStart s) rfl (hone.trans (hhold (hpassing.trans hp) (hcal.trans hc)))
    · exact next_of_eq (u := doSequencePassStart s) rfl (hone.trans (hstart (hpassing.trans hp) (hcal.trans hc)))
  · exact next_of_eq (u := doSequencePassStart s) rfl (doSequencePassStart_of_two h2 hl)
  · exact next_of_eq (u := doSequencePassStart s) rfl (doSequencePassStart_of_three h3 h6 hl)
  · obtain ⟨hp, ht, -⟩ := startPass_starts h0
    exact ⟨hp, ht⟩
  · refine does_unitWrite (n := 0) rfl hr (by decide) hl (.inl hmode) (by decide) (by decide) (.inl rfl) ?_
    exact congrArg (fun t => (⟨some 0, t, id⟩ : Acted)) (if_pos (beq_iff_eq.mpr h3))
  · refine does_unitWrite (n := 0) rfl hr (by decide) hl (.inl hmode) (by decide) (by decide) (.inl rfl) ?_
    exact congrArg (fun t => (⟨some 0, t, id⟩ : Acted)) (if_neg (by simpa using h3))
  · refine does_unitWrite (n := 0) rfl hr (by decide) hl (.inl hmode) (by decide) (by decide) (.inl rfl) ?_
    exact congrArg (fun t => (⟨some 0, t, id⟩ : Acted)) (if_pos (beq_iff_eq.mpr h6))
  · refine does_unitWrite (n := 0) rfl hr (by decide) hl (.inl hmode) (by decide) (by decide) (.inl rfl) ?_
    exact congrArg (fun t => (⟨some 0, t, id⟩ : Acted)) (if_neg (by simpa using h6))
  · refine next_of_eq (u := s.injectTrigger) rfl ((if_neg (by simp [hruns])).trans (if_pos ?_))
    rcases hbusy with h | h <;> simp [h]
  · exact ⟨_, rfl, doConversionComplete_result hruns hgate hjob he hlen⟩
  · refine next_of_eq (u := doConversionComplete c outputs s) rfl (if_pos ?_)
    rcases hout with hjob | hgate | hlen
    · simp [show (s.conv c).job = .idle from hjob]
    · simp [hgate]
    · simp [show outputs.length ≠ ((s.conv c).profile c).a from hlen]
  · exact does_unitWrite (n := 0) rfl hr (by decide) hl (.inl hmode) (by decide) (by decide) (.inl rfl) rfl
  · obtain ⟨hheld, hrunning⟩ := requestCal_holds hruns hrun
    exact ⟨_, rfl, hheld, hrunning⟩
  · exact next_of_eq (u := s.requestCal) rfl ((if_neg (by simp [hruns])).trans (if_neg (by simp [hrun])))
  · obtain ⟨hcount, hends⟩ := doHkaCalibrationComplete_counts hrun h0 h1
    exact ⟨_, rfl, hcount, hends, fun htrig hheld hin => doHkaCalibrationComplete_corrections hrun h0 h1 htrig hheld hin⟩
  · exact next_of_eq (u := doHkaCalibrationComplete s) rfl (if_pos (by simp [hrun]))
  · exact next_of_eq (u := doExcitationChange s) rfl (doExcitationChange_of_due hdue hruns hmode)
  · refine next_of_eq (u := doExcitationChange s) rfl ?_
    unfold doExcitationChange
    split
    · rename_i y hy
      exact if_pos (by simp [hnone.resolve_left (by simp [hy])])
    · rfl

end Sys2Proof.Machine

/-! Memory: where bursts lie, refreshes, training, the patrol and the rows of the on-chip stores (R371 to R390). -/

namespace Sys2Proof.Machine

open Sys2Proof Sys2Proof.Safety

/-! ### Where a burst lies (R371, R372) -/

theorem deinterleave_interleave (g a : Nat) : deinterleave g (interleave g a).1 (interleave g a).2 = a := by
  have hpos : 0 < 2 ^ g := Nat.two_pow_pos g
  have hgrain : a / 2 ^ g * 2 ^ g + a % 2 ^ g = a := Nat.div_add_mod' a (2 ^ g)
  have hpair : a / 2 ^ g / 2 * 2 + a / 2 ^ g % 2 = a / 2 ^ g := Nat.div_add_mod' _ 2
  have hdiv : (a / (2 * 2 ^ g) * 2 ^ g + a % 2 ^ g) / 2 ^ g = a / 2 ^ g / 2 := by
    rw [Nat.add_comm, Nat.add_mul_div_right _ _ hpos, Nat.div_eq_of_lt (Nat.mod_lt _ hpos), Nat.zero_add, Nat.div_div_eq_div_mul, Nat.mul_comm]
  have hmod : (a / (2 * 2 ^ g) * 2 ^ g + a % 2 ^ g) % 2 ^ g = a % 2 ^ g := by
    rw [Nat.add_comm, Nat.add_mul_mod_self_right, Nat.mod_mod]
  show (a / (2 * 2 ^ g) * 2 ^ g + a % 2 ^ g) / 2 ^ g * (2 * 2 ^ g) + a / 2 ^ g % 2 * 2 ^ g +
    (a / (2 * 2 ^ g) * 2 ^ g + a % 2 ^ g) % 2 ^ g = a
  rw [hdiv, hmod, ← Nat.mul_assoc, ← Nat.add_mul, hpair, hgrain]

theorem interleaved_injective {s : State} {a b : Nat} (h : s.interleaved a = s.interleaved b) : a = b := by
  unfold State.interleaved at h
  split at h
  · rw [← deinterleave_interleave (s.geo 4) a, h, deinterleave_interleave]
  · exact congrArg Prod.snd h

theorem burstPlace_row {s : State} {a b : Nat} (h : s.burstPlace a = s.burstPlace b) : a / 62 = b / 62 := by
  have hrank : a / 62 / 8 / Nat.max s.rpr 1 = b / 62 / 8 / Nat.max s.rpr 1 := congrArg Prod.fst h
  have hbank : a / 62 % 8 ^^^ a / 62 / 8 % 8 = b / 62 % 8 ^^^ b / 62 / 8 % 8 := congrArg (fun p : Nat × Nat × Nat => p.2.1) h
  have hrow : a / 62 / 8 % Nat.max s.rpr 1 = b / 62 / 8 % Nat.max s.rpr 1 := congrArg (fun p : Nat × Nat × Nat => p.2.2) h
  have hgroup : a / 62 / 8 = b / 62 / 8 := by
    rw [← Nat.div_add_mod' (a / 62 / 8) (Nat.max s.rpr 1), hrank, hrow, Nat.div_add_mod']
  have hlow : a / 62 % 8 = b / 62 % 8 := by
    have hcancel := congrArg (· ^^^ b / 62 / 8 % 8) hbank
    simpa [hgroup, Nat.xor_assoc] using hcancel
  omega

/-! ### A channel's objects and its state -/

theorem dram_modDram (s : State) (ch : Fin 2) (f : Dram → Dram) : (s.modDram ch f).dram.get ch = f (s.dram.get ch) := by
  exact (vget_set _ ch.val ch.isLt ch _).trans (if_pos rfl)

/-- The reported debt is of the objects. -/
theorem dram_reportDebt (s : State) (ch : Fin 2) : (s.reportDebt ch).dram = s.dram := rfl

theorem dram_modDram_other (s : State) {ch c : Fin 2} (f : Dram → Dram) (h : ch ≠ c) : (s.modDram ch f).dram.get c = s.dram.get c := by
  exact (vget_set _ ch.val ch.isLt c _).trans (if_neg fun hv => h (Fin.ext hv))

theorem chKey_eq (ch : Fin 2) {a b : Nat} : objKey (chIdx ch) a = objKey (chIdx ch) b ↔ a = b := by simp [objKey]

theorem chKey_not_record (ch : Fin 2) {a : Nat} (h : a < 256) : objKey (chIdx ch) a ∉ recordKeys := by
  have hc := ch.isLt
  simp only [recordKeys, objKey, chIdx, List.mem_cons, List.not_mem_nil, or_false]
  omega

/-- A channel's object is none of another index. -/
theorem chKey_ne_fixed (ch : Fin 2) {a idx sub : Nat} (ha : a < 256) (hs : sub < 256) (h : idx < 0x1610 ∨ 0x1611 < idx) :
    objKey (chIdx ch) a ≠ objKey idx sub := by
  have hc := ch.isLt
  simp only [objKey, chIdx]
  omega

/-- State t is s but for objects of a channel that tell nothing of its service. -/
def ServesAs (s t : State) : Prop :=
  t.num 0x1500 0x03 = s.num 0x1500 0x03 ∧ ∀ c, t.chState c = s.chState c

theorem serving_of_servesAs {s t : State} (h : ServesAs s t) (ch : Fin 2) : t.chServing ch = s.chServing ch := by
  obtain ⟨hclk, hstate⟩ := h
  unfold State.chServing State.clkBit
  rw [hclk, hstate]

/-! ### Refreshes (R377 to R381) -/

theorem issueRefresh_one (s : State) (ch rank : Fin 2) :
    ((s.issueRefresh ch rank 1).dram.get ch).debt = (s.dram.get ch).debt ∧ (s.issueRefresh ch rank 1).out = s.out ++ [.refresh ch rank.val 1] := by
  unfold State.issueRefresh
  rw [if_neg (by decide)]
  extract_lets busyUntil
  rw [dram_modDram]
  exact ⟨rfl, rfl⟩

theorem doRefreshDue_postpones {s : State} {ch rank : Fin 2} (hserve : s.chServing ch = true) (hrank : rank.val < s.ranks)
    (hwait : (s.dram.get ch).waits rank (fun c => c == 1 || c == 2) = true) (hdebt : (s.dram.get ch).debt.get rank < debtLimit (s.dram.get ch).hot) :
    ((doRefreshDue ch rank s).dram.get ch).debt.get rank = (s.dram.get ch).debt.get rank + 1 ∧ (doRefreshDue ch rank s).out = s.out := by
  have heq : doRefreshDue ch rank s =
      (s.modDram ch (fun d => { d with debt := d.debt.set rank ((s.dram.get ch).debt.get rank + 1) })).reportDebt ch :=
    (if_neg (by simp [hserve]; omega)).trans (if_pos (by simp [hwait, hdebt]))
  rw [heq, dram_reportDebt, dram_modDram]
  exact ⟨(vget_set _ rank.val rank.isLt rank _).trans (if_pos rfl), rfl⟩

theorem doRefreshDue_issues {s : State} {ch rank : Fin 2} (hserve : s.chServing ch = true) (hrank : rank.val < s.ranks)
    (h : (s.dram.get ch).waits rank (fun c => c == 1 || c == 2) = false ∨ debtLimit (s.dram.get ch).hot ≤ (s.dram.get ch).debt.get rank) :
    doRefreshDue ch rank s = s.issueRefresh ch rank 1 := by
  refine (if_neg (by simp [hserve]; omega)).trans (if_neg ?_)
  rcases h with h | h
  · simp [h]
  · simp only [Bool.and_eq_true, decide_eq_true_eq, not_and, Nat.not_lt]
    exact fun _ => h

theorem repayDebt_pays {s : State} {ch rank : Fin 2} (hserve : s.chServing ch = true) (hdebt : 0 < (s.dram.get ch).debt.get rank)
    (hwait : (s.dram.get ch).waits rank (fun _ => true) = false) (hbusy : (s.dram.get ch).busy.get rank ≤ s.cyc) :
    ((s.repayDebt ch rank).dram.get ch).debt.get rank = (s.dram.get ch).debt.get rank - 1 ∧
      (s.repayDebt ch rank).out = s.out ++ [.refresh ch rank.val 1] := by
  have heq : s.repayDebt ch rank = ((s.issueRefresh ch rank 1).modDram ch
      (fun d => { d with debt := d.debt.set rank ((s.dram.get ch).debt.get rank - 1) })).reportDebt ch :=
    if_neg (by simp [hserve, hwait]; omega)
  obtain ⟨-, hout⟩ := issueRefresh_one s ch rank
  rw [heq, dram_reportDebt, dram_modDram]
  exact ⟨(vget_set _ rank.val rank.isLt rank _).trans (if_pos rfl), hout⟩

/-! ### The hot state (R378, R380) -/

/-- The flush of a rank leaves every object but the counts of refreshes. -/
theorem hotFlush_val (s : State) (ch rank : Fin 2) {k : Nat} (h : objKey (chIdx ch) 0x14 ≠ k) : (s.hotFlush ch rank).val k = s.val k := by
  have hissue : ∀ n, (s.issueRefresh ch rank n).od = s.od := by
    intro n
    unfold State.issueRefresh
    split <;> rfl
  unfold State.hotFlush
  extract_lets n
  split
  · rfl
  · refine (val_put_of_ne h).trans ?_
    exact congrArg (dictGet · k) (hissue n)

/-- MR4 decides the hot state. -/
theorem doMr4Read_hot {s : State} {ch : Fin 2} {c0 c1 : Fin 8} (hserve : s.chServing ch = true)
    (hcode : (if s.ranks ≤ 1 then c0.val else Nat.max c0.val c1.val) ≤ 5) :
    (doMr4Read ch c0 c1 s).num (chIdx ch) 0x12 = (if s.ranks ≤ 1 then c0.val else Nat.max c0.val c1.val) ∧
    ((doMr4Read ch c0 c1 s).dram.get ch).hot =
      if (if s.ranks ≤ 1 then c0.val else Nat.max c0.val c1.val) ≤ 3 then (s.dram.get ch).hot && decide ((s.dram.get ch).coolReads + 1 < 2) else true := by
  unfold doMr4Read
  rw [if_neg (by simp [hserve])]
  extract_lets code d u n w x
  replace hcode : code ≤ 5 := hcode
  change _ = code ∧ _ = if code ≤ 3 then _ else _
  have hu : u.num (chIdx ch) 0x12 = code := (State.num_put ..).trans (if_pos rfl)
  by_cases h3 : code ≤ 3
  · rw [if_pos h3, if_pos h3]
    exact ⟨hu, congrArg Dram.hot (dram_modDram ..)⟩
  · rw [if_neg h3, if_neg h3, if_pos hcode]
    have hw : w.num (chIdx ch) 0x12 = code := by
      refine (congrArg Val.toNat (?_ : w.val _ = u.val _)).trans hu
      unfold w
      split
      · rfl
      · rw [hotFlush_val _ ch 1 (by rw [ne_eq, chKey_eq]; decide), hotFlush_val _ ch 0 (by rw [ne_eq, chKey_eq]; decide)]
    have hx : x.num (chIdx ch) 0x12 = code ∧ (x.dram.get ch).hot = true := by
      have hdram : x.dram = (w.modDram ch (fun d => { d with hot := true, coolReads := 0 })).dram := rfl
      refine ⟨?_, by rw [hdram, dram_modDram]⟩
      exact (State.num_put ..).trans ((if_neg (by rw [chKey_eq]; decide)).trans hw)
    split
    · obtain ⟨hrec, -⟩ := records_issue x 0x2A 0x25 ch.val 0 (by decide)
      obtain ⟨free, streams, od, dram, hnext, -, hsame⟩ := id hrec
      refine ⟨(recorded_num hrec _ _ (chKey_not_record ch (by decide))).trans hx.1, ?_⟩
      rw [hnext]
      exact (congrArg Dram.hot (hsame ch)).trans hx.2
    · exact hx

/-! ### Rows and neighbour refresh (R374, R381) -/

/-- Rows of a channel are activated or closed: what waits stays in its order, the patrol stands, and no object but the count of draws that
were dropped moves. -/
def RowsWork (ch : Fin 2) (s t : State) : Prop :=
  (s.dram.get ch).neighbours <+: (t.dram.get ch).neighbours ∧ (t.dram.get ch).scrub = (s.dram.get ch).scrub ∧
    (∀ k, objKey (chIdx ch) 0x16 ≠ k → t.val k = s.val k) ∧ t.control = s.control

theorem rowsWork_refl (ch : Fin 2) (s : State) : RowsWork ch s s := ⟨List.prefix_rfl, rfl, fun _ _ => rfl, rfl⟩

theorem rowsWork_trans {ch : Fin 2} {s t u : State} (h : RowsWork ch s t) (h' : RowsWork ch t u) : RowsWork ch s u := by
  obtain ⟨hn, hs, hv, hc⟩ := h
  obtain ⟨hn', hs', hv', hc'⟩ := h'
  exact ⟨hn.trans hn', hs'.trans hs, fun k hk => (hv' k hk).trans (hv k hk), hc'.trans hc⟩

theorem rowsWork_modDram (ch : Fin 2) (s : State) {f : Dram → Dram} (hn : ∀ d : Dram, d.neighbours <+: (f d).neighbours)
    (hs : ∀ d, (f d).scrub = d.scrub) : RowsWork ch s (s.modDram ch f) := by
  refine ⟨?_, ?_, fun _ _ => rfl, rfl⟩
  · rw [dram_modDram]
    exact hn _
  · rw [dram_modDram]
    exact hs _

theorem rowsWork_bump (ch : Fin 2) (s : State) : RowsWork ch s (s.bump (chIdx ch) 0x16 1) :=
  ⟨List.prefix_rfl, rfl, fun _ hk => val_put_of_ne hk, rfl⟩

/-- A row is opened in its bank, and the activate leaves the channel. -/
def State.openRow (s : State) (ch : Fin 2) (place : Nat × Nat × Nat) : State :=
  (s.draw.2.emit (.activate ch place.1 place.2.1 place.2.2)).modDram ch (fun d => { d with
    openRows := d.openRows.filter (fun e => !(e.1 == place.1 && e.2.1 == place.2.1)) ++ [place] })

theorem openRow_works (s : State) (ch : Fin 2) (place : Nat × Nat × Nat) : RowsWork ch s (s.openRow ch place) ∧
    (s.openRow ch place).out = s.out ++ [.activate ch place.1 place.2.1 place.2.2] :=
  ⟨rowsWork_modDram ch (s.draw.2.emit (.activate ch place.1 place.2.1 place.2.2)) (fun _ => List.prefix_rfl) (fun _ => rfl), rfl⟩

/-- The draw of an activate queues a neighbour refresh, or drops it, or does nothing. -/
theorem activate_eq (s : State) (ch : Fin 2) (place : Nat × Nat × Nat) : s.activate ch place =
    if s.draw.1 % 2 ^ (s.openRow ch place).num 0x1600 0x07 != 0 then s.openRow ch place
    else if 8 ≤ ((s.openRow ch place).dram.get ch).neighbours.length then (s.openRow ch place).bump (chIdx ch) 0x16 1
    else (s.openRow ch place).modDram ch (fun d => { d with neighbours := d.neighbours ++ [(place, (s.openRow ch place).cyc)] }) := rfl

theorem activate_works (s : State) (ch : Fin 2) (place : Nat × Nat × Nat) : RowsWork ch s (s.activate ch place) ∧
    (s.activate ch place).out = s.out ++ [.activate ch place.1 place.2.1 place.2.2] := by
  obtain ⟨hwork, hout⟩ := openRow_works s ch place
  rw [activate_eq]
  split
  · exact ⟨hwork, hout⟩
  · split
    · exact ⟨rowsWork_trans hwork (rowsWork_bump ch _), hout⟩
    · exact ⟨rowsWork_trans hwork (rowsWork_modDram ch _ (fun _ => List.prefix_append _ _) (fun _ => rfl)), hout⟩

theorem touchRow_works (s : State) (ch : Fin 2) (place : Nat × Nat × Nat) : RowsWork ch s (s.touchRow ch place) ∧
    (s.touchRow ch place).out = s.out ++ [.activate ch place.1 place.2.1 place.2.2] := by
  obtain ⟨hwork, hout⟩ := activate_works s ch place
  exact ⟨rowsWork_trans hwork (rowsWork_modDram ch _ (fun _ => List.prefix_rfl) (fun _ => rfl)), hout⟩

theorem accessRow_works (s : State) (ch : Fin 2) (place : Nat × Nat × Nat) : RowsWork ch s (s.accessRow ch place) := by
  unfold State.accessRow
  extract_lets u
  have hu : RowsWork ch s u := by
    unfold u
    split
    · exact rowsWork_refl ch s
    · exact (activate_works s ch place).1
  split
  · exact rowsWork_trans hu (rowsWork_modDram ch u (fun _ => List.prefix_rfl) (fun _ => rfl))
  · exact hu

/-- The oldest queued row leaves the queue, and its bank is closed. -/
def State.takeNeighbour (s : State) (ch : Fin 2) (rk bank : Nat) (rest : List ((Nat × Nat × Nat) × Nat)) : State :=
  s.modDram ch (fun d => { d with neighbours := rest, openRows := d.openRows.filter (fun e => !(e.1 == rk && e.2.1 == bank)) })

/-- The row below a row is activated. -/
def State.touchBelow (s : State) (ch : Fin 2) (rk bank row : Nat) : State := if row = 0 then s else s.touchRow ch (rk, bank, row - 1)

/-- The row above a row is activated. -/
def State.touchAbove (s : State) (ch : Fin 2) (rk bank row : Nat) : State :=
  if row + 1 < s.rpr then s.touchRow ch (rk, bank, row + 1) else s

theorem doNeighbourRefresh_of_front {s : State} {ch : Fin 2} {rk bank row since : Nat} {rest : List ((Nat × Nat × Nat) × Nat)}
    (hserve : s.chServing ch = true) (hfront : (s.dram.get ch).neighbours = ((rk, bank, row), since) :: rest) :
    doNeighbourRefresh ch s = (((s.takeNeighbour ch rk bank rest).touchBelow ch rk bank row).touchAbove ch rk bank row).bump (chIdx ch) 0x15 1 := by
  unfold doNeighbourRefresh
  rw [if_pos hserve, hfront]
  rfl

theorem touchBelow_works (s : State) (ch : Fin 2) (rk bank row : Nat) : RowsWork ch s (s.touchBelow ch rk bank row) ∧
    (s.touchBelow ch rk bank row).out = s.out ++ if row = 0 then [] else [.activate ch rk bank (row - 1)] := by
  unfold State.touchBelow
  split
  · exact ⟨rowsWork_refl ch s, (List.append_nil _).symm⟩
  · exact touchRow_works s ch (rk, bank, row - 1)

theorem touchAbove_works (s : State) (ch : Fin 2) (rk bank row : Nat) : RowsWork ch s (s.touchAbove ch rk bank row) ∧
    (s.touchAbove ch rk bank row).out = s.out ++ if row + 1 < s.rpr then [.activate ch rk bank (row + 1)] else [] := by
  unfold State.touchAbove
  split
  · exact touchRow_works s ch (rk, bank, row + 1)
  · exact ⟨rowsWork_refl ch s, (List.append_nil _).symm⟩

theorem rpr_of_control {s t : State} (h : t.control = s.control) : t.rpr = s.rpr := by
  have hgeo : ∀ i, t.geo i = s.geo i := fun i => congrArg (fun c : Control => c.geometry.getD i 0) h
  simp only [State.rpr, State.chBytes, State.ranks, hgeo]

/-- The neighbours of the row that waits longest are activated. -/
theorem doNeighbourRefresh_front {s : State} {ch : Fin 2} {rk bank row since : Nat} {rest : List ((Nat × Nat × Nat) × Nat)}
    (hserve : s.chServing ch = true) (hfront : (s.dram.get ch).neighbours = ((rk, bank, row), since) :: rest) :
    rest <+: ((doNeighbourRefresh ch s).dram.get ch).neighbours ∧
    (doNeighbourRefresh ch s).num (chIdx ch) 0x15 = incWrap (s.num (chIdx ch) 0x15) 1 32 ∧
    (doNeighbourRefresh ch s).out = s.out ++ (if row = 0 then [] else [.activate ch rk bank (row - 1)]) ++
      (if row + 1 < s.rpr then [.activate ch rk bank (row + 1)] else []) := by
  rw [doNeighbourRefresh_of_front hserve hfront]
  have htaken : ((s.takeNeighbour ch rk bank rest).dram.get ch).neighbours = rest := by rw [State.takeNeighbour, dram_modDram]
  obtain ⟨hbelow, hout⟩ := touchBelow_works (s.takeNeighbour ch rk bank rest) ch rk bank row
  have hrpr : ((s.takeNeighbour ch rk bank rest).touchBelow ch rk bank row).rpr = s.rpr := rpr_of_control hbelow.2.2.2
  obtain ⟨habove, hout'⟩ := touchAbove_works ((s.takeNeighbour ch rk bank rest).touchBelow ch rk bank row) ch rk bank row
  obtain ⟨hprefix, -, hval, -⟩ := rowsWork_trans hbelow habove
  refine ⟨?_, ?_, ?_⟩
  · rw [htaken] at hprefix
    exact hprefix
  · refine (State.num_bump ..).trans ((if_pos rfl).trans ?_)
    exact congrArg (fun v : Val => incWrap v.toNat 1 32) (hval _ (by rw [ne_eq, chKey_eq]; decide))
  · rw [hrpr, hout] at hout'
    exact hout'

/-! ### Late work (R376) -/

theorem trackDone_modThermal (s : State) (q r : Route) {f : Thermal → Thermal} (h : ∀ t, (f t).trackDone = t.trackDone) :
    ((s.modThermal q f).route r).thermal.trackDone = (s.route r).thermal.trackDone := by
  cases q <;> cases r
  · exact h _
  · rfl
  · rfl
  · exact h _

theorem trackDone_enterTrack (s : State) (get : CfgRead) (r q : Route) (l : Launch) (pos : Nat) (c : Option Int) (rebased : Bool) (fl : Nat) :
    ((s.enterTrack get r l pos c rebased fl).route q).thermal.trackDone = (s.route q).thermal.trackDone := by
  unfold State.enterTrack
  split
  · rfl
  · extract_lets kg src v changed w
    refine (trackDone_modThermal w _ q ?_).trans (trackDone_modThermal s _ q fun t => ?_)
    · exact fun _ => rfl
    · split <;> rfl

/-- A late record counts as the one update of its position. -/
theorem positionTrack_done (s : State) (r : Route) (h : Handoff) (pos : Nat) :
    ((s.positionTrack r h pos none true).route r).thermal.trackDone = (s.route r).thermal.trackDone ++ [pos] := by
  unfold State.positionTrack
  extract_lets get g o go t lq w0 live k tr put lg new fresh out sh
  have hput : ∀ (u : State) (x : Track), (u.route r).thermal.trackDone = (s.route r).thermal.trackDone →
      ((put u x).route r).thermal.trackDone = (s.route r).thermal.trackDone ++ [pos] := by
    intro u x hu
    show ((u.modThermal r _).route r).thermal.trackDone = _
    rw [State.route_modThermal, ← hu]
  have henter : ∀ (u : State) (c : Option Int) (b : Bool) (fl : Nat), (u.route r).thermal.trackDone = (s.route r).thermal.trackDone ++ [pos] →
      ((u.enterTrack get r h.launch pos c b fl).route r).thermal.trackDone = (s.route r).thermal.trackDone ++ [pos] := fun u c b fl hu =>
    (trackDone_enterTrack u get r r h.launch pos c b fl).trans hu
  have hbump : ∀ sub, ((s.bump o sub 1).route r).thermal.trackDone = (s.route r).thermal.trackDone := fun sub =>
    congrArg (fun x : RouteState => x.thermal.trackDone) (State.route_bump ..)
  split
  · have hfresh : (fresh.route r).thermal.trackDone = (s.route r).thermal.trackDone ++ [pos] := hput s _ rfl
    split
    · refine henter _ _ _ _ ?_
      rw [State.route_bump]
      exact hfresh
    · exact hfresh
  · have hsh : sh = none := if_pos (by simp)
    simp only [hsh]
    split
    · exact henter _ _ _ _ (hput _ _ ((congrArg (fun x : RouteState => x.thermal.trackDone) (State.route_bump ..)).trans (hbump 0x16)))
    · exact henter _ _ _ _ (hput _ _ (hbump 0x16))

/-- A late request of the tracker leaves the position updated once. -/
theorem dropWork_tracker {s : State} {r : Route} {h : Handoff} {pos : Nat} (hhand : s.handoff r = some h)
    (hseq : (s.route r).thermal.trackSeq = some h.launch.seq) (hdone : (s.route r).thermal.trackDone.contains pos = false) :
    ((s.dropWork (.tracker r pos)).route r).thermal.trackDone = (s.route r).thermal.trackDone ++ [pos] := by
  have hdrop : s.dropWork (.tracker r pos) = s.positionTrack r h pos none true := by
    show s.lateTrack r pos = _
    unfold State.lateTrack
    rw [hhand]
    exact if_neg (by rw [hseq, hdone]; simp)
  rw [hdrop]
  exact positionTrack_done s r h pos

/-- Whether a request of class 1 of a stream and route is late. -/
def isLate (s : State) (stream : Nat) (r : Route) (q : DramReq) : Bool :=
  q.cls == 1 && q.serves stream r && (q.deadline.map (fun t => decide (t ≤ s.cyc + 200000))).getD false

theorem doLateRequestDiscard_none {s : State} {ch : Fin 2} {stream : Nat} {r : Route} (h : (s.dram.get ch).queue.find? (isLate s stream r) = none) :
    doLateRequestDiscard ch stream r s = s := by
  unfold isLate at h
  simp only [doLateRequestDiscard, h]

theorem doLateRequestDiscard_some {s : State} {ch : Fin 2} {stream : Nat} {r : Route} {q : DramReq}
    (h : (s.dram.get ch).queue.find? (isLate s stream r) = some q) : doLateRequestDiscard ch stream r s =
      ((s.bump (chIdx ch) 0x1A 1).modDram ch (fun d => { d with queue := d.queue.filter (fun x => !(x.cls == 1 && x.work == q.work)) })).dropWork q.work := by
  unfold isLate at h
  simp only [doLateRequestDiscard, h]

/-! ### Training (R382, R383) -/

theorem eyeWidth_le {eyes : List Byte} {e : Byte} (h : e ∈ eyes) : eyeWidth eyes ≤ e.toNat := by
  have hfold : ∀ (l : List Nat) (a : Nat), l.foldl Nat.min a ≤ a ∧ ∀ x ∈ l, l.foldl Nat.min a ≤ x := by
    intro l
    induction l with
    | nil => exact fun a => ⟨Nat.le_refl a, by simp⟩
    | cons y t ih =>
      intro a
      obtain ⟨hle, hmem⟩ := ih (Nat.min a y)
      refine ⟨hle.trans (Nat.min_le_left a y), fun x hx => ?_⟩
      rcases List.mem_cons.mp hx with rfl | hx
      · exact hle.trans (Nat.min_le_right a x)
      · exact hmem x hx
  exact (hfold _ 255).2 _ (List.mem_map_of_mem h)

/-- A retraining that finds good settings puts the channel back into service, with its narrowest eye reported. -/
def trained (s : State) (ch : Fin 2) (setting : Training) (eyes : List Byte) (temp : Int) : State :=
  ((((s.bump (chIdx ch) 0x19 1).putI (chIdx ch) 0x1B 16 temp).put (chIdx ch) 0x11 (eyeWidth eyes)).modDram ch
    (fun d => { d with training := some setting, lastTrainNs := s.cyc, lastTemp := temp })).put (chIdx ch) 0x10 2

theorem doDramTrainingComplete_good {s : State} {ch : Fin 2} {setting : Training} {eyes : List Byte} {temp : Int} (hstate : s.chState ch = 3)
    (hclk : s.clkBit 7 = true) (hlaunch : s.noLaunch = false) (hboot : s.power.bringUp = none) (heye : s.num 0x1600 0x0A ≤ eyeWidth eyes) :
    doDramTrainingComplete ch (some setting) eyes temp s = trained s ch setting eyes temp := by
  unfold doDramTrainingComplete
  extract_lets boot u w good x y z
  have hnoboot : boot = false := by simp [boot, hboot]
  have hw : w = ((s.bump (chIdx ch) 0x19 1).putI (chIdx ch) 0x1B 16 temp).put (chIdx ch) 0x11 (eyeWidth eyes) := if_pos rfl
  have hgood : good = true := by
    have hnum : w.num 0x1600 0x0A = s.num 0x1600 0x0A := by
      have hkey : ∀ {sub}, sub < 256 → objKey (chIdx ch) sub ≠ objKey 0x1600 0x0A := fun hs => chKey_ne_fixed ch hs (by decide) (by decide)
      rw [hw, State.num_put, if_neg (hkey (by decide)), State.num_putI, if_neg (hkey (by decide)), State.num_bump, if_neg (hkey (by decide))]
    simp [good, hnum, heye]
  rw [hnoboot, if_neg (by simp [hstate, hclk]), if_neg (by decide)]
  have hz : z = y := if_pos hgood
  have hy : y.noLaunch = false := by
    unfold y x
    rw [hw]
    exact hlaunch
  rw [hz]
  refine (if_neg (by simp [hy])).trans ?_
  unfold y x
  rw [hw]
  rfl

theorem trained_reports (s : State) (ch : Fin 2) (setting : Training) (eyes : List Byte) (temp : Int) : let t := trained s ch setting eyes temp
    t.chState ch = 2 ∧ t.num (chIdx ch) 0x11 = eyeWidth eyes ∧ t.num (chIdx ch) 0x19 = incWrap (s.num (chIdx ch) 0x19) 1 32 ∧
      (t.dram.get ch).training = some setting ∧ (t.dram.get ch).lastTemp = temp ∧ (t.dram.get ch).lastTrainNs = s.cyc := by
  intro t
  have hdram : t.dram.get ch = { s.dram.get ch with training := some setting, lastTrainNs := s.cyc, lastTemp := temp } := by
    have hmod : t.dram = (s.modDram ch (fun d => { d with training := some setting, lastTrainNs := s.cyc, lastTemp := temp })).dram := rfl
    rw [hmod, dram_modDram]
  have hkey : ∀ {a b : Nat}, a ≠ b → ¬ objKey (chIdx ch) a = objKey (chIdx ch) b := fun h he => h ((chKey_eq ch).mp he)
  refine ⟨(State.num_put ..).trans (if_pos rfl), ?_, ?_, by rw [hdram], by rw [hdram], by rw [hdram]⟩
  · exact (State.num_put ..).trans ((if_neg (hkey (by decide))).trans ((State.num_put ..).trans (if_pos rfl)))
  · refine (State.num_put ..).trans ((if_neg (hkey (by decide))).trans ((State.num_put ..).trans ((if_neg (hkey (by decide))).trans ?_)))
    exact (State.num_putI ..).trans ((if_neg (hkey (by decide))).trans ((State.num_bump ..).trans (if_pos rfl)))

/-- A write of OD 1600.0D makes both channels in service due. -/
theorem retrainWrite_both {s : State} (hclk : s.clkBit 7 = true) (h0 : s.chState 0 = 2) (h1 : s.chState 1 = 2) :
    retrainWrite s = ⟨0, ((s.modDram 0 (fun d => { d with retrainDue := true })).modDram 1 (fun d => { d with retrainDue := true })).idleRetrain, id⟩ := by
  unfold retrainWrite
  rw [if_neg (by simp [h0, h1])]
  extract_lets due
  have hserve : ∀ (u : State) (c : Fin 2), u.clkBit 7 = true → u.chState c = 2 → due u c = u.modDram c (fun d => { d with retrainDue := true }) :=
    fun u c hc hs => if_pos (by simp [State.chServing, hc, hs])
  exact congrArg (fun w : State => (⟨0, w.idleRetrain, id⟩ : Reply)) ((hserve _ 1 (by rw [hserve s 0 hclk h0]; exact hclk) (by rw [hserve s 0 hclk h0]; exact h1)).trans
    (congrArg (·.modDram 1 (fun d => { d with retrainDue := true })) (hserve s 0 hclk h0)))

/-! ### Errors of bursts (R384, R386) -/

/-- State t is s with an error of a burst counted, recorded and under test. -/
def ErrorNoted (s t : State) : Prop :=
  (∀ c, { t.dram.get c with queue := (s.dram.get c).queue } = s.dram.get c) ∧ t.routeA = s.routeA ∧ t.routeB = s.routeB

theorem dramUncorrectable_notes (s : State) (ch : Fin 2) (row : Nat) : ErrorNoted s (s.dramUncorrectable ch row) ∧
    (s.dramUncorrectable ch row).num (chIdx ch) 0x18 = incWrap (s.num (chIdx ch) 0x18) 1 32 := by
  obtain ⟨w, hw⟩ : ∃ w, (s.bump (0x1610 + ch.val) 0x18 1).issue 0x28 0x25 ch.val 0 = w := ⟨_, rfl⟩
  obtain ⟨hrec, -⟩ := records_issue (s.bump (0x1610 + ch.val) 0x18 1) 0x28 0x25 ch.val 0 (by decide)
  rw [hw] at hrec
  have hnum : w.num (chIdx ch) 0x18 = incWrap (s.num (chIdx ch) 0x18) 1 32 :=
    (recorded_num hrec _ _ (chKey_not_record ch (by decide))).trans ((State.num_bump ..).trans (if_pos rfl))
  have hnoted : ErrorNoted s w := by
    obtain ⟨free, streams, od, dram, hnext, -, hsame⟩ := hrec
    rw [hnext]
    exact ⟨hsame, rfl, rfl⟩
  have hdetect : s.dramUncorrectable ch row = w.detect (.dramRow ch row) false := by rw [← hw]; rfl
  obtain ⟨-, -, -, -, hval⟩ := detect_kept w (.dramRow ch row) false
  rw [hdetect]
  refine ⟨?_, (congrArg Val.toNat (hval _ (chKey_ne_fixed ch (by decide) (by decide) (by decide)).symm)).trans hnum⟩
  unfold State.detect
  split
  · exact hnoted
  · exact hnoted

/-- A copy that is over is noted on the channel that retires, while some route launches. -/
theorem doBacklogCopyComplete_copied {s : State} {errors : List (Nat × BurstError)} {ch : Fin 2} (hretire : (s.dram.get ch).retiring = true)
    {u : State} (hu : errors.foldl (fun (s : State) e => if e.2.bad then s.loseFrame e.1 else s) (s.readErrors (errors.map (·.2))) = u)
    (hkept : ErrorNoted s u) (hlaunch : s.noLaunch = false) :
    ((doBacklogCopyComplete errors s).dram.get ch).copied = true ∧ (doBacklogCopyComplete errors s).od = u.od := by
  obtain ⟨hdram, ha, hb⟩ := hkept
  have hin : ¬ (!(s.dram.get 0).retiring && !(s.dram.get 1).retiring) = true := by
    match ch with
    | 0 => simp [hretire]
    | 1 => simp [hretire]
  unfold doBacklogCopyComplete
  rw [if_neg hin]
  extract_lets x y mark z
  have hy : y = u := hu
  have hz : z.noLaunch = false := by
    show (!y.routeA.optics.launching && !y.routeB.optics.launching) = false
    rw [hy, ha, hb]
    exact hlaunch
  rw [if_neg (by simp [hz])]
  have hret : (u.dram.get ch).retiring = true := by
    have hsame := congrArg Dram.retiring (hdram ch)
    exact hsame.trans hretire
  refine ⟨?_, by rw [← hy]; rfl⟩
  have hmark : ∀ (w : State) (c : Fin 2), (mark w c).dram.get c = { w.dram.get c with copied := (w.dram.get c).retiring } := fun w c => dram_modDram ..
  have hother : ∀ (w : State) {c d : Fin 2}, c ≠ d → (mark w c).dram.get d = w.dram.get d := fun w c d hcd => dram_modDram_other w _ hcd
  unfold z
  rw [hy]
  match ch with
  | 0 => rw [hother _ (by decide), hmark]; exact hret
  | 1 => rw [hmark, hother _ (by decide)]; exact hret


/-! ### The patrol (R387) -/

theorem serving_of_val {s t : State} (hclk : t.val (objKey 0x1500 0x03) = s.val (objKey 0x1500 0x03))
    (hstate : ∀ c, t.val (objKey (chIdx c) 0x10) = s.val (objKey (chIdx c) 0x10)) (ch : Fin 2) : t.chServing ch = s.chServing ch := by
  have hclk' : t.num 0x1500 0x03 = s.num 0x1500 0x03 := congrArg Val.toNat hclk
  have hstate' : t.chState ch = s.chState ch := congrArg Val.toNat (hstate ch)
  unfold State.chServing State.clkBit
  rw [hclk', hstate']

/-- The patrol goes on to the next burst, and a corrected one is counted. -/
theorem doPatrolScrub_goes {s : State} {ch : Fin 2} {res : BurstRead} (hstate : s.chState ch = 2) (hclk : s.clkBit 7 = true)
    (hkeeper : s.keeperServes = true) :
    (res ≠ .uncorrectable → ((doPatrolScrub ch res s).dram.get ch).scrub = ((s.dram.get ch).scrub + 1) % Nat.max s.chBursts 1) ∧
    (res = .corrected → (doPatrolScrub ch res s).num (chIdx ch) 0x17 = incWrap (s.num (chIdx ch) 0x17) 1 32) := by
  unfold doPatrolScrub
  rw [if_neg (by simp [hstate, hclk, hkeeper])]
  extract_lets b u w
  obtain ⟨-, hscrub, hval, -⟩ := accessRow_works u ch (u.burstPlace b)
  have hscrub' : (w.dram.get ch).scrub = ((s.dram.get ch).scrub + 1) % Nat.max s.chBursts 1 :=
    hscrub.trans (congrArg Dram.scrub (dram_modDram s ch _))
  have hserve : w.chServing ch = true := by
    refine (serving_of_val (hval _ (chKey_ne_fixed ch (by decide) (by decide) (by decide))) (fun c => hval _ ?_) ch).trans ?_
    · have hc := c.isLt
      have hch := ch.isLt
      simp only [objKey, chIdx]
      omega
    · show s.chServing ch = true
      simp [State.chServing, hclk, hstate]
  cases res with
  | clean => exact ⟨fun _ => hscrub', fun h => by cases h⟩
  | corrected =>
    have hread : w.readErrors [⟨ch, b, false⟩] = w.bump (chIdx ch) 0x17 1 := (if_neg (by simp [hserve])).trans (if_neg (by simp))
    refine ⟨fun _ => ?_, fun _ => ?_⟩
    · show ((w.readErrors [⟨ch, b, false⟩]).dram.get ch).scrub = _
      rw [hread]
      exact hscrub'
    · show (w.readErrors [⟨ch, b, false⟩]).num (chIdx ch) 0x17 = _
      rw [hread]
      refine (State.num_bump ..).trans ((if_pos rfl).trans ?_)
      exact congrArg (fun v : Val => incWrap v.toNat 1 32) (hval _ (by rw [ne_eq, chKey_eq]; decide))
  | uncorrectable => exact ⟨fun h => absurd rfl h, fun h => by cases h⟩

/-! ### The rows of the on-chip stores (R390) -/

/-- A row's first corrected error is counted and kept in mind. -/
theorem doHiveScrub_first {s : State} {st : Store} {bk : Fin 16} {row : Fin 1024} {word : Fin 256} {own : Option (Route × Nat)}
    (hkeeper : s.keeperServes = true) (hnew : ∀ e ∈ s.rows.corrected, (e.1, e.2.1, e.2.2.1) ≠ (storeNum st, bk.val, row.val)) :
    (doHiveScrub st bk row word .corrected own s).num 0x1620 0x12 = incWrap (s.num 0x1620 0x12) 1 32 ∧
    (storeNum st, bk.val, row.val, s.cyc) ∈ (doHiveScrub st bk row word .corrected own s).rows.corrected ∧
    (doHiveScrub st bk row word .corrected own s).rows.suspects = s.rows.suspects := by
  have hagain : ¬ (s.rows.corrected.any (fun e => e.1 == storeNum st && e.2.1 == bk.val && e.2.2.1 == row.val && decide (s.cyc < e.2.2.2 + day))) = true := by
    rw [List.any_eq_true]
    rintro ⟨e, he, hsame⟩
    simp only [Bool.and_eq_true, beq_iff_eq] at hsame
    obtain ⟨⟨⟨hst, hbk⟩, hrow⟩, -⟩ := hsame
    exact hnew e he (by rw [hst, hbk, hrow])
  unfold doHiveScrub
  rw [if_neg (by simp [hkeeper])]
  extract_lets again u recent rows w
  show (if again then w.suspectRow st bk row else w).num _ _ = _ ∧ _ ∈ (if again then w.suspectRow st bk row else w).rows.corrected ∧
    (if again then w.suspectRow st bk row else w).rows.suspects = _
  rw [if_neg hagain]
  exact ⟨(State.num_bump ..).trans (if_pos rfl), List.mem_append_right _ (List.mem_singleton.mpr rfl), rfl⟩

/-- A record of a row leaves the rows, and is the newest. -/
theorem rowRecord_newest (s : State) {type : Nat} (route position : Nat) (aux : Int) (h : isLogged type = true) :
    (s.rowRecord type route position aux).rows = s.rows ∧ NewestRecord s (s.rowRecord type route position aux) type := by
  obtain ⟨hrec, hnewest⟩ := records_issueAt s.draw.2 type 0x25 route position (toSigned (s.draw.1 % 2 ^ 32) 32) aux 0 h
  refine ⟨?_, hnewest⟩
  obtain ⟨free, streams, od, dram, hnext, -⟩ := hrec
  show (s.draw.2.issueAt type 0x25 route position (toSigned (s.draw.1 % 2 ^ 32) 32) aux 0).rows = s.rows
  rw [hnext]
  rfl

/-- A row with a lasting fault is replaced by a spare of its bank, or retired. -/
theorem doHiveRowSpare_lasting {s : State} {st : Store} {bk : Fin 16} {row : Fin 1024} (hkeeper : s.keeperServes = true)
    (hlasting : s.rows.lasting.contains (storeNum st, bk.val, row.val) = true) :
    let key := (storeNum st, bk.val, row.val)
    let t := doHiveRowSpare st bk row s
    let used := (s.rows.spared.filter (fun e => e.1 == key.1 && e.2.1 == key.2.1)).length
    t.rows.lasting.contains key = false ∧ t.rows.suspects.contains key = false ∧ NewestRecord s t 0x27 ∧
      (used < 8 → t.rows.spared = s.rows.spared ++ [key] ∧ t.rows.retired = s.rows.retired) ∧
      (8 ≤ used → t.rows.retired = s.rows.retired ++ [key] ∧ t.rows.spared = s.rows.spared) := by
  intro key t used
  have hgone : ∀ l : List (Nat × Nat × Nat), (l.filter (fun e => e != key)).contains key = false := by
    intro l
    simp
  unfold t doHiveRowSpare
  rw [if_neg (by rw [hlasting, hkeeper]; decide)]
  extract_lets k n rows u w x y
  by_cases hused : used < 8
  · rw [if_pos hused]
    obtain ⟨hrows, hnewest⟩ := rowRecord_newest (w.bump 0x1620 0x14 1) (type := 0x27) 3 0 3 (by decide)
    have hw : (w.bump 0x1620 0x14 1).rows = u.rows ∧ (w.bump 0x1620 0x14 1).power = s.power := by
      unfold w
      split <;> exact ⟨rfl, rfl⟩
    rw [hrows, hw.1]
    refine ⟨hgone _, hgone _, ?_, fun _ => ⟨rfl, rfl⟩, fun h => absurd hused (Nat.not_lt.mpr h)⟩
    unfold NewestRecord at hnewest ⊢
    rw [hw.2] at hnewest
    exact hnewest
  · rw [if_neg hused]
    obtain ⟨hrows, hnewest⟩ := rowRecord_newest y (type := 0x27) 3 0 4 (by decide)
    have hy : y.rows = x.rows ∧ y.power = s.power := by
      unfold y
      split <;> exact ⟨rfl, rfl⟩
    rw [hrows, hy.1]
    refine ⟨hgone _, hgone _, ?_, fun h => absurd h hused, fun _ => ⟨rfl, rfl⟩⟩
    unfold NewestRecord at hnewest ⊢
    rw [hy.2] at hnewest
    exact hnewest

/-- Settles O59. -/
theorem memoryIsRefreshedAndScrubbed : Obligations.MemoryIsRefreshedAndScrubbed := by
  unfold Obligations.MemoryIsRefreshedAndScrubbed
  intro s v level ch rank b c0 c1 rk bank row since rest setting eyes temp res grain addr addr' st bk rw' word own stream r q bad place pos h
    i d n waits hotter late told key used
  refine ⟨interleaved_injective, deinterleave_interleave grain addr, burstPlace_row, fun hserve hrank => ⟨fun hwait hdebt => ?_, fun hwait => ?_⟩,
    fun hserve hdebt hwait hbusy => repayDebt_pays hserve hdebt hwait hbusy, fun hserve => ⟨fun hcode => ?_, fun hdue => ?_, fun hdue => ?_⟩,
    fun hserve hfront => ?_, fun hnone => ?_, rfl, fun hnone => ?_, fun hsome => ?_, fun hhand hseq hdone => dropWork_tracker hhand hseq hdone,
    fun hr hl hmode hclk h0 h1 => ?_, fun hstate hclk hlaunch hboot heye => ⟨fun e he => eyeWidth_le he, ?_⟩,
    fun hretire hlaunch => ⟨?_, fun hbad hserve => ?_⟩, fun h0 h1 => ?_, fun hstate hclk hkeeper => ?_, fun hno => ?_, ?_, fun hkeeper hnew => ?_,
    fun hkeeper hlasting => ?_, fun hno => ?_⟩
  · exact ⟨_, rfl, doRefreshDue_postpones hserve hrank hwait hdebt⟩
  · obtain ⟨hdebt, hout⟩ := issueRefresh_one s ch rank
    refine ⟨_, congrArg (fun u : State => Host.Outcome.next u.settle) (doRefreshDue_issues hserve hrank hwait), ?_, hout⟩
    exact congrArg (fun x : Vector Nat 2 => x.get rank) hdebt
  · exact ⟨_, rfl, doMr4Read_hot hserve hcode⟩
  · exact next_of_eq (u := doRetrainTrigger ch temp s) rfl ((if_neg (by simp [hserve])).trans (if_pos hdue))
  · exact next_of_eq (u := doRetrainTrigger ch temp s) rfl ((if_neg (by simp [hserve])).trans (if_neg (by simp [hdue])))
  · exact ⟨_, rfl, doNeighbourRefresh_front hserve hfront⟩
  · refine next_of_eq (u := doNeighbourRefresh ch s) rfl ?_
    have hqueue : (if s.chServing ch then (s.dram.get ch).neighbours else []) = [] := by
      rcases hnone with h | h
      · exact if_neg (by simp [h])
      · split
        · exact h
        · rfl
    unfold doNeighbourRefresh
    rw [hqueue]
  · refine next_of_eq (u := doLateRequestDiscard ch stream.val r s) rfl ?_
    exact doLateRequestDiscard_none hnone
  · refine next_of_eq (u := doLateRequestDiscard ch stream.val r s) rfl ?_
    exact doLateRequestDiscard_some hsome
  · refine does_unitWrite (n := 0) rfl hr (by decide) hl (.inl hmode) (by decide) (by decide) (.inl rfl) ?_
    have hopen : (Opened v s).clkBit 7 = true ∧ (Opened v s).chState 0 = 2 ∧ (Opened v s).chState 1 = 2 := by
      cases v <;> exact ⟨hclk, h0, h1⟩
    exact congrArg Reply.acted (retrainWrite_both hopen.1 hopen.2.1 hopen.2.2)
  · refine ⟨_, congrArg (fun u : State => Host.Outcome.next u.settle) (doDramTrainingComplete_good hstate hclk hlaunch hboot heye), ?_⟩
    exact trained_reports s ch setting eyes temp
  · obtain ⟨hcopied, hod⟩ := doBacklogCopyComplete_copied (errors := []) hretire (u := s) rfl ⟨fun _ => rfl, rfl, rfl⟩ hlaunch
    exact ⟨_, rfl, hcopied, hod⟩
  · obtain ⟨hnoted, hcount⟩ := dramUncorrectable_notes s bad.ch (rowOfBurst bad.burst).1
    have hread : s.readErrors [bad] = s.dramUncorrectable bad.ch (rowOfBurst bad.burst).1 := (if_neg (by simp [hserve])).trans (if_pos hbad)
    have herrors : [(place, bad)].foldl (fun (s : State) e => if e.2.bad then s.loseFrame e.1 else s) (s.readErrors ([(place, bad)].map (·.2))) =
        (s.dramUncorrectable bad.ch (rowOfBurst bad.burst).1).loseFrame place :=
      (if_pos hbad).trans (congrArg (State.loseFrame · place) hread)
    obtain ⟨hcopied, hod⟩ := doBacklogCopyComplete_copied hretire herrors hnoted hlaunch
    exact ⟨_, rfl, hcopied, (State.num_of_od hod _ _).trans hcount⟩
  · exact next_of_eq (u := doBacklogCopyComplete [] s) rfl (if_pos (by simp [h0, h1]))
  · exact ⟨_, rfl, doPatrolScrub_goes hstate hclk hkeeper⟩
  · refine next_of_eq (u := doPatrolScrub ch res s) rfl (if_pos ?_)
    rcases hno with h | h | h <;> simp [h]
  · refine next_of_eq (u := doHiveScrub st bk rw' word .clean own s) rfl ?_
    unfold doHiveScrub
    split <;> rfl
  · exact ⟨_, rfl, doHiveScrub_first hkeeper hnew⟩
  · exact ⟨_, rfl, doHiveRowSpare_lasting hkeeper hlasting⟩
  · refine next_of_eq (u := doHiveRowSpare st bk rw' s) rfl (if_pos ?_)
    rcases hno with h | h
    · rw [show s.rows.lasting.contains (storeNum st, bk.val, rw'.val) = false from h]
      rfl
    · simp [h]

end Sys2Proof.Machine

/-! Time-stamps, the frequency counter, PTP and the SYNC bus (R354 to R365). -/

namespace Sys2Proof.Machine

open Sys2Proof Sys2Proof.Safety

/-! ### A frame handed over -/

/-- The objects in which a hand-over counts. -/
def handOverKeys (stream : Nat) : List Nat := [objKey (streamIdx stream) 0x13, objKey (streamIdx stream) 0x11, objKey 0x2000 0x18]

/-- State t is s but for the stream engine, the counts of a hand-over and the requests of the memory. -/
def HandedOver (stream : Nat) (s t : State) : Prop := ∃ streams od dram, t = { s with streams := streams, od := od, dram := dram } ∧
  ∀ k, k ∉ handOverKeys stream → dictGet od k = dictGet s.od k

theorem handedOver_trans {stream : Nat} {s t u : State} (h : HandedOver stream s t) (h' : HandedOver stream t u) : HandedOver stream s u := by
  obtain ⟨streams, od, dram, rfl, hk⟩ := h
  obtain ⟨streams', od', dram', rfl, hk'⟩ := h'
  exact ⟨streams', od', dram', rfl, fun k hn => (hk' k hn).trans (hk k hn)⟩

theorem handedOver_streams (stream : Nat) (s : State) (x : Streams) : HandedOver stream s { s with streams := x } :=
  ⟨x, s.od, s.dram, rfl, fun _ _ => rfl⟩

theorem handedOver_bump {stream : Nat} (s : State) {idx sub : Nat} (n : Nat) (h : objKey idx sub ∈ handOverKeys stream) :
    HandedOver stream s (s.bump idx sub n) := by
  refine ⟨s.streams, _, s.dram, rfl, fun k hk => ?_⟩
  rw [dictGet_dictSet, if_neg]
  rintro rfl
  exact hk h

theorem handedOver_requested {stream : Nat} {s t : State} (h : Requested s t) : HandedOver stream s t := by
  obtain ⟨dram, rfl, -⟩ := h
  exact ⟨s.streams, s.od, dram, rfl, fun _ _ => rfl⟩

theorem handOver_moves (s : State) (d : FrameDesc) : HandedOver d.stream s (s.handOver d).2 := by
  cases hl : (s.streamLinks d.stream).isEmpty with
  | true =>
    simp only [State.handOver, hl, if_true]
    exact ⟨s.streams, s.od, s.dram, rfl, fun _ _ => rfl⟩
  | false =>
    simp only [State.handOver, hl, Bool.false_eq_true, if_false]
    refine handedOver_trans (handedOver_trans ?_ (handedOver_streams _ _ _)) (handedOver_requested (requested_requestFrame ..))
    have hcount : ∀ n, HandedOver d.stream s (s.bump (streamIdx d.stream) 0x13 n) := fun n => handedOver_bump s n (by simp [handOverKeys])
    exact iteInduction (motive := HandedOver d.stream s) (fun _ => hcount _)
      (fun _ => handedOver_trans (handedOver_trans (hcount _) (handedOver_bump _ _ (by simp [handOverKeys])))
        (handedOver_bump _ _ (by simp [handOverKeys])))

theorem handOver_time (s : State) (d : FrameDesc) : (s.handOver d).2.time = s.time := by
  obtain ⟨streams, od, dram, h, -⟩ := handOver_moves s d
  rw [h]

/-! ### What the stream of stamps leaves of the inputs (R359, R360) -/

/-- The counts of the edges, of each input and of its millisecond, stand. -/
def StampFlow (s t : State) : Prop :=
  (∀ i : Fin 8, (t.inputs.get i).inMs = (s.inputs.get i).inMs) ∧ ∀ i : Fin 8, t.num (0x1420 + i.val) 0x10 = s.num (0x1420 + i.val) 0x10

theorem stampFlow_refl (s : State) : StampFlow s s := ⟨fun _ => rfl, fun _ => rfl⟩

theorem stampFlow_trans {s t u : State} (h : StampFlow s t) (h' : StampFlow t u) : StampFlow s u :=
  ⟨fun i => (h'.1 i).trans (h.1 i), fun i => (h'.2 i).trans (h.2 i)⟩

theorem stampFlow_foldl {α : Type} {f : State → α → State} (h : ∀ s x, StampFlow s (f s x)) (l : List α) (s : State) : StampFlow s (l.foldl f s) := by
  induction l generalizing s with
  | nil => exact stampFlow_refl s
  | cons x l ih => exact stampFlow_trans (h s x) (ih _)

theorem stampFlow_time (s : State) (f : TimeUnit → TimeUnit) : StampFlow s (s.modTime f) := ⟨fun _ => rfl, fun _ => rfl⟩

/-- An object that counts no edge of an input. -/
def noEdgeCount (k : Nat) : Prop := ∀ i : Fin 8, k ≠ objKey (0x1420 + i.val) 0x10

theorem stampFlow_bump (s : State) {idx sub : Nat} (n : Nat) (h : noEdgeCount (objKey idx sub)) : StampFlow s (s.bump idx sub n) :=
  ⟨fun _ => rfl, fun i => (State.num_bump ..).trans (if_neg (h i))⟩

/-- The other counts of an input are none of its edges. -/
theorem input_noEdgeCount (j : Fin 8) {sub : Nat} (h : sub < 256) (hsub : sub ≠ 0x10) : noEdgeCount (objKey (0x1420 + j.val) sub) := by
  intro i
  have hi := i.isLt
  have hj := j.isLt
  simp only [objKey]
  omega

/-- The counts of a core are of no input. -/
theorem core_noEdgeCount (c : Fin 8) {sub : Nat} (h : sub < 256) : noEdgeCount (objKey (coreIdx c) sub) := by
  intro i
  have hi := i.isLt
  have hc := c.isLt
  simp only [objKey, coreIdx]
  omega

theorem inMs_modInput (s : State) (i j : Fin 8) {f : TsInput → TsInput} (h : ∀ x, (f x).inMs = x.inMs) :
    ((s.modInput i f).inputs.get j).inMs = (s.inputs.get j).inMs := by
  have hget : (s.modInput i f).inputs.get j = if i.val = j.val then f (s.inputs.get i) else s.inputs.get j := vget_set _ i.val i.isLt j _
  rw [hget]
  split
  · rename_i hij
    rw [h, Fin.ext hij]
  · rfl

theorem stampFlow_modInput (s : State) (i : Fin 8) {f : TsInput → TsInput} (h : ∀ x, (f x).inMs = x.inMs) : StampFlow s (s.modInput i f) :=
  ⟨fun j => inMs_modInput s i j h, fun _ => rfl⟩

theorem stampFlow_handOver (s : State) (d : FrameDesc) (hd : d.stream = 10) : StampFlow s (s.handOver d).2 := by
  obtain ⟨streams, od, dram, h, hod⟩ := handOver_moves s d
  rw [h]
  refine ⟨fun _ => rfl, fun i => congrArg Val.toNat (hod _ ?_)⟩
  have hi := i.isLt
  simp only [handOverKeys, hd, streamIdx, objKey, List.mem_cons, List.not_mem_nil, or_false]
  omega

theorem stampFlow_closeStamps (s : State) : StampFlow s s.closeStamps := by
  unfold State.closeStamps
  split
  · exact stampFlow_refl s
  · extract_lets l u
    have hu : StampFlow s (u.deviceCount 10).2 := ⟨fun _ => rfl, fun _ => rfl⟩
    show StampFlow s (if (u.deviceCount 10).2.stampsRun then ((u.deviceCount 10).2.handOver _).2 else (u.deviceCount 10).2)
    split
    · exact stampFlow_trans hu (stampFlow_handOver _ _ rfl)
    · exact hu

/-- A frame of stamps that closes is empty, or goes on to the next. -/
theorem closeStamps_stamps (s : State) : s.closeStamps.time.stamps = [] := by
  unfold State.closeStamps
  split
  · assumption
  · extract_lets l u
    show (if (u.deviceCount 10).2.stampsRun then ((u.deviceCount 10).2.handOver _).2 else (u.deviceCount 10).2).time.stamps = []
    split
    · rw [handOver_time]
      rfl
    · rfl

theorem stampFlow_mergeStamps (k : Nat) (s : State) : StampFlow s (s.mergeStamps k) := by
  induction k generalizing s with
  | zero => exact stampFlow_refl s
  | succ k ih =>
    unfold State.mergeStamps
    split
    · exact stampFlow_refl s
    · split
      · exact stampFlow_refl s
      · rename_i e _ _
        extract_lets i input u w
        have hu : StampFlow s u := stampFlow_modInput s i (f := fun x => { x with queue := x.queue.drop 1 }) (fun _ => rfl)
        have hw : StampFlow s w := stampFlow_trans hu (stampFlow_time u _)
        refine stampFlow_trans ?_ (ih _)
        split
        · exact stampFlow_trans hw (stampFlow_closeStamps w)
        · exact hw

theorem stampFlow_queueEvent (s : State) (e : EventRec) (p : SlotRec → Bool) : StampFlow s (s.queueEvent e p) := by
  unfold State.queueEvent
  split
  · exact stampFlow_refl s
  · refine stampFlow_foldl (fun s c => stampFlow_foldl (fun s k => ?_) _ s) _ s
    extract_lets r
    split
    · exact stampFlow_refl s
    · split
      · exact stampFlow_bump s 1 (core_noEdgeCount c (by decide))
      · exact ⟨fun _ => rfl, fun _ => rfl⟩

/-! ### Edges of the inputs (R358, R359) -/

theorem onlyHka_injectTrigger (s : State) : OnlyHka s s.injectTrigger := by
  unfold State.injectTrigger
  split
  · exact onlyHka_refl s
  · split
    · exact onlyHka_put s _ (by decide)
    · extract_lets u all queue
      exact onlyHka_trans (worksOn_takeIdle s).1 (onlyHka_trans (onlyHka_trans (onlyHka_modConv u 0 _) (onlyHka_modConv _ 1 _)) (worksOn_hkaKick _).1)

theorem stampFlow_hkaInput (s : State) (input : Nat) : StampFlow s (s.hkaInput input) := by
  unfold State.hkaInput
  split
  · have hhka := onlyHka_trans (worksOn_takeIdle s).1 (onlyHka_injectTrigger s.takeIdle)
    refine ⟨fun i => ?_, fun i => onlyHka_num hhka ?_⟩
    · obtain ⟨hka, od, heq, -⟩ := hhka
      rw [heq]
    · have hi := i.isLt
      simp only [converterKeys, objKey, List.mem_cons, List.not_mem_nil, or_false]
      omega
  · exact stampFlow_refl s

theorem countEdge_num (s : State) (input : Nat) (t : Int) (i j : Nat) : (s.countEdge input t).num i j = s.num i j := by
  obtain ⟨g, hg⟩ := countEdge_time s input t
  rw [hg]
  rfl

/-- A stamped edge counts once, whatever becomes of it. -/
theorem recordEdge_count (s : State) (i : Fin 8) (rising : Bool) (t : Int) :
    (s.recordEdge i rising t).num (0x1420 + i.val) 0x10 = incWrap (s.num (0x1420 + i.val) 0x10) 1 32 := by
  unfold State.recordEdge
  extract_lets o u n dest w x y
  have hu : u.num (0x1420 + i.val) 0x10 = incWrap (s.num (0x1420 + i.val) 0x10) 1 32 :=
    (countEdge_num (s.bump o 0x10 1) (3 + i.val) t _ _).trans ((State.num_bump ..).trans (if_pos rfl))
  have hw : StampFlow u w := by
    unfold w
    split
    · exact stampFlow_hkaInput u i.val
    · exact stampFlow_refl u
  have hx : StampFlow w x := by
    unfold x
    split
    · exact stampFlow_queueEvent w _ _
    · exact stampFlow_refl w
  have hy : StampFlow x y := by
    unfold y
    split
    · exact stampFlow_modInput x i (fun _ => rfl)
    · exact stampFlow_refl x
  have hdrop : ∀ {sub}, sub < 256 → sub ≠ 0x10 → (w.bump o sub 1).num (0x1420 + i.val) 0x10 = u.num (0x1420 + i.val) 0x10 := fun h hsub =>
    (stampFlow_trans hw (stampFlow_bump w 1 (input_noEdgeCount i h hsub))).2 i
  refine Eq.trans ?_ hu
  refine iteInduction (motive := fun t : State => t.num (0x1420 + i.val) 0x10 = u.num (0x1420 + i.val) 0x10) (fun _ => ?_) (fun _ =>
    iteInduction (motive := fun t : State => t.num (0x1420 + i.val) 0x10 = u.num (0x1420 + i.val) 0x10) (fun _ => ?_) (fun _ => ?_))
  · exact hdrop (sub := 0x13) (by decide) (by decide)
  · exact hdrop (sub := 0x11) (by decide) (by decide)
  · exact (stampFlow_trans (stampFlow_trans hw hx) (stampFlow_trans hy (stampFlow_mergeStamps 8192 y))).2 i

/-- The tap of an edge reads the clock unit, the objects and the next free value. -/
theorem tapTime_congr {s t : State} (hod : t.od = s.od) (htime : t.time = s.time) (hfree : t.free = s.free) (ch : Nat) (tap : Fin 128) :
    (t.tapTime ch tap).1 = (s.tapTime ch tap).1 := by
  have hchannel : t.tdcChannel ch = s.tdcChannel ch := by
    unfold State.tdcChannel
    rw [htime]
  unfold State.tapTime
  rw [State.num_of_od hod, hchannel]
  split
  · rfl
  · extract_lets c
    cases ((if c.line1 then c.table1 else c.table0)[tap.val]?) with
    | some f => rfl
    | none =>
      show (((Config.freeValue t.free % 65536 : Nat)) : Int) = ((Config.freeValue s.free % 65536 : Nat) : Int)
      rw [hfree]

theorem seen_kept (x : TsInput) (rising : Bool) (held : Nat) : (x.seen rising held).last = x.last := rfl

/-- An edge that is recognised goes on to its class. -/
theorem doTsEdge_recognised {s : State} {input : Fin 8} {rising : Bool} {held : Nat} {tap : Fin 128} (hclock : s.sampleClock = true)
    (hon : s.num (0x1420 + input.val) 0x01 = 1) (hnew : (s.inputs.get input).recognises rising held = true)
    (hedge : edgeTaken (s.num (0x1420 + input.val) 0x02) rising = true) :
    let o := 0x1420 + input.val
    let u := s.modInput input (fun x => x.seen rising held)
    let x := u.tdcStamp (input.val - 4) s.cyc tap (s.int o 0x05 32)
    doTsEdge input rising held tap s =
      if input.val < 6 then u.recordEdge input rising (s.now16 - ps16 (s.int o 0x05 32))
      else if inDeadTime (s.inputs.get input).last (s.localTime (input.val - 4) tap) then u.bump o 0x12 1
      else (x.2.modInput input (fun y => { y with last := some (s.localTime (input.val - 4) tap) })).recordEdge input rising x.1 := by
  intro o u x
  have hlast : (u.inputs.get input).last = (s.inputs.get input).last := by
    have hget : u.inputs.get input = (s.inputs.get input).seen rising held := (vget_set _ input.val input.isLt input _).trans (if_pos rfl)
    rw [hget, seen_kept]
  have hlocal : u.localTime (input.val - 4) tap = s.localTime (input.val - 4) tap :=
    congrArg (fun n : Int => (s.cyc : Int) * 65536 + n) (tapTime_congr (s := s) (t := u) rfl rfl rfl _ _)
  unfold doTsEdge
  extract_lets new x' t
  have hgo : ¬ (!new || u.num o 0x01 != 1 || !edgeTaken (u.num o 0x02) rising) = true := by
    have hon' : u.num o 0x01 = 1 := hon
    have hedge' : edgeTaken (u.num o 0x02) rising = true := hedge
    have hnew' : new = true := hnew
    simp [hon', hedge', hnew']
  rw [if_neg (by simp [hclock]), if_neg hgo]
  have ht : t = s.localTime (input.val - 4) tap := hlocal
  rw [ht, hlast]
  rfl

/-! ### The frequency counter (R361) and the calibration of the TDC (R356) -/

theorem gateFrequency_eq (n : Nat) (tf tl : Int) :
    gateFrequency n tf tl = min (rhuDiv (((n - 1) * 65536 * 10 ^ 15 : Nat) : Int) (tl - tf)).toNat (2 ^ 64 - 1) := by
  unfold gateFrequency satU
  split
  · rename_i hneg
    rw [Int.toNat_of_nonpos (Int.le_of_lt hneg)]
    rfl
  · rfl

/-- The end of a gate counts, and its result is the rate of the edges counted. -/
theorem doFrequencyGateEnd_counts {s : State} {n : Nat} {tf tl : Int} (hon : s.num 0x1440 0x01 ≠ 0) (hclock : s.sampleClock = true) :
    let g := s.gateCount (n, tf, tl)
    let t := doFrequencyGateEnd n tf tl s
    t.num 0x1440 0x11 = incWrap (s.num 0x1440 0x11) 1 32 ∧ t.time.gateEdges = none ∧ (g.1 < 2 → t.num 0x1440 0x10 = 0) ∧
      (2 ≤ g.1 → g.2.1 < g.2.2 → t.num 0x1440 0x10 = gateFrequency g.1 g.2.1 g.2.2) := by
  intro g t
  generalize ht : t = w
  unfold t doFrequencyGateEnd at ht
  rw [if_neg (by simp [hon, hclock])] at ht
  extract_lets u at ht
  have hu : u.num 0x1440 0x11 = incWrap (s.num 0x1440 0x11) 1 32 ∧ u.time.gateEdges = none := ⟨(State.num_bump ..).trans (if_pos rfl), rfl⟩
  have hput : ∀ (v : State) (k : Nat), v.od = u.od → v.time = u.time → (v.put 0x1440 0x10 k).num 0x1440 0x11 = incWrap (s.num 0x1440 0x11) 1 32 ∧
      (v.put 0x1440 0x10 k).time.gateEdges = none ∧ (v.put 0x1440 0x10 k).num 0x1440 0x10 = k := fun v k hod htime =>
    ⟨(State.num_put ..).trans ((if_neg (by decide)).trans ((State.num_of_od hod _ _).trans hu.1)), (congrArg TimeUnit.gateEdges htime).trans hu.2,
      (State.num_put ..).trans (if_pos rfl)⟩
  by_cases hfew : g.1 < 2
  · obtain ⟨hcount, hgate, hres⟩ := hput u 0 rfl rfl
    rw [← ht, if_pos hfew]
    exact ⟨hcount, hgate, fun _ => hres, fun h => absurd hfew (Nat.not_lt.mpr h)⟩
  · rw [← ht, if_neg hfew]
    by_cases hstill : g.2.2 ≤ g.2.1
    · rw [if_pos hstill]
      obtain ⟨hcount, hgate, -⟩ := hput u.draw.2 (u.draw.1 % 2 ^ 64) rfl rfl
      exact ⟨hcount, hgate, fun h => absurd h hfew, fun _ h => absurd hstill (Int.not_le.mpr h)⟩
    · rw [if_neg hstill]
      obtain ⟨hcount, hgate, hres⟩ := hput u (gateFrequency g.1 g.2.1 g.2.2) rfl rfl
      exact ⟨hcount, hgate, fun h => absurd h hfew, fun _ _ => hres⟩

/-- The line that a good calibration measured takes over. -/
def TdcChannel.exchanged (c : TdcChannel) (f : List Int) : TdcChannel :=
  if c.line1 then { c with table0 := f, line1 := false } else { c with table1 := f, line1 := true }

theorem exchanged_reads (c : TdcChannel) (f : List Int) : (c.exchanged f).line1 = !c.line1 ∧
    (if (c.exchanged f).line1 then (c.exchanged f).table1 else (c.exchanged f).table0) = f := by
  unfold TdcChannel.exchanged
  cases hline : c.line1 <;> simp

/-- The reports of channels that pass keep the clock unit and the count. -/
theorem tdcReports_kept {good : Nat → Bool} (l : List Nat) (h : ∀ i ∈ l, good i = true) (u : State) :
    (l.foldl (fun s i => if good i then s.putBit 0x1438 0x10 i true else s.issueOpen 0x38 0x28 0) u).time = u.time ∧
    (l.foldl (fun s i => if good i then s.putBit 0x1438 0x10 i true else s.issueOpen 0x38 0x28 0) u).num 0x1438 0x11 = u.num 0x1438 0x11 := by
  induction l generalizing u with
  | nil => exact ⟨rfl, rfl⟩
  | cons i l ih =>
    obtain ⟨htime, hnum⟩ := ih (fun j hj => h j (List.mem_cons_of_mem _ hj)) (u.putBit 0x1438 0x10 i true)
    rw [List.foldl_cons, if_pos (h i (List.mem_cons_self ..))]
    exact ⟨htime, hnum.trans ((State.num_putBit ..).trans (if_neg (by decide)))⟩

/-- A calibration in which every channel passes exchanges their lines. -/
theorem doTdcCalibrationComplete_good {s : State} {hits : List (List Nat)} (hcal : s.time.calibrating = true) (hboot : s.power.bringUp = none)
    (hlen : s.time.channels.length = 10) (hgood : ∀ i < 10, tdcGood (hits.getD i []) = true) :
    let t := doTdcCalibrationComplete hits s
    t.time.calibrating = false ∧ t.num 0x1438 0x11 = incWrap (s.num 0x1438 0x11) 1 32 ∧
      ∀ i < 10, t.tdcChannel i = (s.tdcChannel i).exchanged (tdcTable (hits.getD i [])) := by
  intro t
  have hlist : ∀ i < 10, ((List.range 10).map (fun i => tdcGood (hits.getD i []))).getD i false = true := by
    intro i hi
    rw [List.getD_eq_getElem?_getD, List.getElem?_map, List.getElem?_range hi]
    exact hgood i hi
  have hall : ((List.range 10).map (fun i => tdcGood (hits.getD i []))).all id = true := by
    rw [List.all_map, List.all_eq_true]
    exact fun i hi => hgood i (List.mem_range.mp hi)
  generalize ht : t = w
  unfold t doTdcCalibrationComplete at ht
  extract_lets boot good u x y at ht
  have hnoboot : boot = false := by simp [boot, hboot]
  rw [if_neg (by simp [hcal]), hnoboot, if_neg (by decide)] at ht
  obtain ⟨htime, hnum⟩ := tdcReports_kept (good := fun i => good.getD i false) (List.range 10) (fun i hi => hlist i (List.mem_range.mp hi)) u
  rw [← ht]
  refine ⟨?_, (State.num_bump ..).trans ((if_pos rfl).trans (congrArg (incWrap · 1 32) hnum)), fun i hi => ?_⟩
  · refine (congrArg TimeUnit.calibrating htime).trans ?_
    show (!good.all id) = false
    rw [show good.all id = true from hall]
    rfl
  · show x.time.channels.getD i _ = _
    rw [show x.time = u.time from htime]
    have hi' : i < s.time.channels.length := by omega
    show (List.map _ (s.time.channels.zip (List.range 10))).getD i _ = (s.time.channels.getD i _).exchanged _
    rw [List.getD_eq_getElem?_getD, List.getElem?_map, List.getD_eq_getElem?_getD, List.getElem?_eq_getElem hi']
    have hzip : (s.time.channels.zip (List.range 10))[i]? = some (s.time.channels[i], i) := by
      rw [List.getElem?_zip_eq_some]
      exact ⟨List.getElem?_eq_getElem hi', List.getElem?_range hi⟩
    rw [hzip]
    exact if_pos (hlist i hi)

/-! ### PTP (R353, R354) -/

/-- A Sync whose instants are known gives the offset, and the port is present. -/
theorem ptpOffset_reports (s : State) (t1 t2 : Int) :
    (s.ptpOffset t1 t2).num 0x1150 0x11 = ofSigned (sat (t2 - t1 - s.pathDelay) 64) 64 ∧ bit ((s.ptpOffset t1 t2).num 0x1400 0x26) 2 = true := by
  unfold State.ptpOffset
  extract_lets off u
  refine ⟨?_, (setPresent_leaves _ 2 true).1⟩
  have hu : u.num 0x1150 0x11 = ofSigned (sat (t2 - t1 - s.pathDelay) 64) 64 := (State.num_putI ..).trans (if_pos rfl)
  refine (timeFrame_num (timeFrame_setPresent _ 2 true) _ _ (by decide)).trans ?_
  split
  · exact hu
  · exact (State.num_putBit ..).trans ((if_neg (by decide)).trans hu)

/-- A change of presence leaves the objects of the ports and the port's own memory. -/
theorem setPresent_num (s : State) (b : Nat) (v : Bool) {i j : Nat} (h : objKey i j ∉ timeKeys) (h' : objKey 0x1400 0x26 ≠ objKey i j) :
    (s.setPresent b v).num i j = s.num i j := by
  refine (timeFrame_num (timeFrame_setPresent s b v) _ _ h).trans ?_
  split
  · rfl
  · exact (State.num_putBit ..).trans (if_neg h')

theorem setPresent_ports (s : State) (b : Nat) (v : Bool) :
    (s.setPresent b v).ptp = s.ptp ∧ (s.setPresent b v).out = s.out ∧ (s.setPresent b v).sync = s.sync := by
  have hset : ∀ u : State, u.ptp = s.ptp ∧ u.out = s.out ∧ u.sync = s.sync → TimeFrame u (s.setPresent b v) →
      (s.setPresent b v).ptp = s.ptp ∧ (s.setPresent b v).out = s.out ∧ (s.setPresent b v).sync = s.sync := by
    rintro u hu ⟨_, _, _, _, _, _, _, _, _, _, _, _, _, _, heq, -⟩
    rw [heq]
    exact hu
  refine hset _ ?_ (timeFrame_setPresent s b v)
  split <;> exact ⟨rfl, rfl, rfl⟩

/-- The port leaves SLAVE. -/
theorem toPort_state (s : State) {n : Nat} (h : n ≠ 9) : (s.toPort n).ptpState = n ∧ (s.toPort n).ptp = s.ptp := by
  unfold State.toPort
  rw [if_neg (by simp [h])]
  exact ⟨(setPresent_num _ 2 false (by decide) (by decide)).trans ((State.num_put ..).trans (if_pos rfl)), (setPresent_ports _ 2 false).1⟩

theorem sendPtp_of_link {s : State} (hlink : s.ptpLink = true) (hkeeper : s.keeperServes = true) (kind seq : Nat) (fields : List Int) :
    s.sendPtp kind seq fields = s.emit (s.ptpMsg kind seq fields) := if_pos (by simp [hlink, hkeeper])

/-- A master sends its Sync, and the Follow_Up with its instant. -/
theorem doPtpInterval_sync {s : State} (hon : s.ptpOn = true) (hmaster : s.ptpState = 6) (hlink : s.ptpLink = true) (hkeeper : s.keeperServes = true) :
    doPtpInterval .sync s = ((s.emit (s.ptpMsg 0 s.ptp.syncSeq [])).emit
      (s.ptpMsg 8 s.ptp.syncSeq [s.now16 + ps16 (s.int 0x1150 0x0E 32)])).modPtp (fun p => { p with syncSeq := (s.ptp.syncSeq + 1) % 65536 }) := by
  have hfirst : s.sendPtp 0 s.ptp.syncSeq [] = s.emit (s.ptpMsg 0 s.ptp.syncSeq []) := sendPtp_of_link hlink hkeeper ..
  have hsecond : (s.emit (s.ptpMsg 0 s.ptp.syncSeq [])).sendPtp 8 s.ptp.syncSeq [s.now16 + ps16 (s.int 0x1150 0x0E 32)] = _ :=
    sendPtp_of_link (s := s.emit (s.ptpMsg 0 s.ptp.syncSeq [])) hlink hkeeper ..
  unfold doPtpInterval
  extract_lets egr q
  rw [if_neg (by simp [hon])]
  refine (if_pos (by simp [hmaster])).trans ?_
  exact congrArg (fun u : State => u.modPtp (fun p => { p with syncSeq := (s.ptp.syncSeq + 1) % 65536 }))
    ((congrArg (State.sendPtp · 8 s.ptp.syncSeq [s.now16 + ps16 (s.int 0x1150 0x0E 32)]) hfirst).trans hsecond)

/-- A port without a master leads, or listens. -/
theorem doAnnounceReceiptTimeout_leaves {s : State} (hon : s.ptpOn = true) :
    (doAnnounceReceiptTimeout s).ptpState = (if s.num 0x1150 0x03 = 1 then 4 else 6) ∧ (doAnnounceReceiptTimeout s).ptp.master = none := by
  have hnine : (if s.num 0x1150 0x03 = 1 then 4 else 6) ≠ 9 := by split <;> decide
  obtain ⟨hstate, hptp⟩ := toPort_state (s.modPtp (fun p => { p with master := none, foreign := [], sync := none })) hnine
  have hdo : doAnnounceReceiptTimeout s = _ := if_neg (by simp [hon])
  rw [hdo]
  have hrole : (if s.num 0x1150 0x03 == 1 then 4 else 6) = if s.num 0x1150 0x03 = 1 then 4 else 6 := by simp only [beq_iff_eq]
  rw [hrole]
  exact ⟨(State.num_put ..).trans ((if_neg (by decide)).trans hstate), congrArg Ptp.master hptp⟩

/-- A message of another domain is not the port's. -/
theorem doPtpMessageReceive_other {s : State} {d : Byte} (h : d.toNat ≠ s.num 0x1150 0x06) (body : PtpBody) :
    doPtpMessageReceive ⟨d, body⟩ s = s := if_pos (by simp [h])

theorem doPtpSyncReceive_other {s : State} {m : PtpSync} (h : m.domain.toNat ≠ s.num 0x1150 0x06) : doPtpSyncReceive m s = s := if_pos (by simp [h])

/-- A Sync of the port's master in SLAVE goes on to its kind. -/
theorem doPtpSyncReceive_master {s : State} {m : PtpSync} {x : Master} (hon : s.ptpOn = true) (hdomain : m.domain.toNat = s.num 0x1150 0x06)
    (hslave : s.ptpState = 9) (hmaster : s.ptp.master = some x) (hsource : x.source = m.source) (hfirst : m.followUp = false) :
    doPtpSyncReceive m s = if m.twoStep then s.modPtp (fun p => { p with sync := some (m.seqId.toNat, m.stamp - ps16 (s.int 0x1150 0x0D 32), m.correction) })
      else s.ptpOffset (m.origin + m.correction) (m.stamp - ps16 (s.int 0x1150 0x0D 32)) := by
  unfold doPtpSyncReceive
  rw [hmaster]
  extract_lets fromMaster t2
  have hfrom : fromMaster = true := by simp [fromMaster, hsource]
  rw [if_neg (by simp [hon, hdomain, hslave, hfrom]), if_neg (by simp [hfirst])]

/-! ### The SYNC bus (R362 to R365) -/

/-- The clocks of the SYNC unit follow three objects. -/
theorem drives_of_nums {s t : State} (hclk : t.num 0x1500 0x03 = s.num 0x1500 0x03) (hmode : t.num 0x1300 0x02 = s.num 0x1300 0x02)
    (hgate : t.num 0x1520 0x02 = s.num 0x1520 0x02) : t.syncDrives = s.syncDrives := by
  unfold State.syncDrives State.syncClock State.sampleClock State.gated State.mode
  rw [hclk, hmode, hgate]

/-- What a cycle does before its message leaves the bus and the clocks alone. -/
def BusKept (s t : State) : Prop := t.out = s.out ∧ t.syncDrives = s.syncDrives

theorem busKept_trans {s t u : State} (h : BusKept s t) (h' : BusKept t u) : BusKept s u := ⟨h'.1.trans h.1, h'.2.trans h.2⟩

theorem busKept_refl (s : State) : BusKept s s := ⟨rfl, rfl⟩

theorem busKept_put (s : State) {sub : Nat} (n : Nat) (h : sub < 256) : BusKept s (s.put 0x1450 sub n) := by
  have hkey : ∀ i ∈ [objKey 0x1500 0x03, objKey 0x1300 0x02, objKey 0x1520 0x02], objKey 0x1450 sub ≠ i := by
    simp only [objKey, List.mem_cons, List.not_mem_nil, or_false]
    omega
  refine ⟨rfl, drives_of_nums ?_ ?_ ?_⟩
  · exact (State.num_put ..).trans (if_neg (hkey _ (by simp)))
  · exact (State.num_put ..).trans (if_neg (hkey _ (by simp)))
  · exact (State.num_put ..).trans (if_neg (hkey _ (by simp)))

theorem busKept_modSync (s : State) (f : SyncBus → SyncBus) : BusKept s (s.modSync f) := ⟨rfl, rfl⟩

theorem busKept_setPresent (s : State) (b : Nat) (v : Bool) : BusKept s (s.setPresent b v) := by
  refine ⟨(setPresent_ports s b v).2.1, drives_of_nums ?_ ?_ ?_⟩
  · exact setPresent_num s b v (by decide) (by decide)
  · exact setPresent_num s b v (by decide) (by decide)
  · exact setPresent_num s b v (by decide) (by decide)

theorem busKept_judgeSync (s : State) : BusKept s s.judgeSync := by
  unfold State.judgeSync
  split
  · exact busKept_refl s
  · extract_lets saw u
    have hu : BusKept s u := ⟨rfl, rfl⟩
    split
    · exact busKept_trans hu (busKept_setPresent u 3 true)
    · split
      · unfold State.loseLeader
        extract_lets w
        have hw : BusKept s w := busKept_trans hu (busKept_setPresent u 3 false)
        split
        · exact busKept_trans hw (busKept_trans (busKept_put w _ (by decide)) (busKept_put _ _ (by decide)))
        · exact hw
      · exact hu

/-- The units heard are reported at the first cycle of a second. -/
def State.reportHeard (s : State) : State :=
  if (cycleOf s.time.ns).1 = 0 then
    (s.put 0x1450 0x13 (s.sync.heard.foldl (fun a u => setBit a u true) 0)).modSync (fun x => { x with heard := [] })
  else s

theorem busKept_reportHeard (s : State) : BusKept s s.reportHeard := by
  unfold State.reportHeard
  split
  · exact busKept_trans (busKept_put s _ (by decide)) (busKept_modSync _ _)
  · exact busKept_refl s

/-- A unit that does not drive the bus sends nothing. -/
theorem doSyncCycle_silent {s : State} (h : s.syncDrives = false) : (doSyncCycle s).out = s.out := by
  unfold doSyncCycle
  split
  · rfl
  · extract_lets u c v t1
    have hu : BusKept s u := busKept_trans (busKept_judgeSync s) (busKept_modSync _ _)
    have hv : BusKept s v := busKept_trans hu (busKept_reportHeard u)
    obtain ⟨hout, hdrives⟩ := hv
    have hquiet : v.syncDrives = false := hdrives.trans h
    split
    · rw [if_neg (by simp [hquiet])]
      exact hout
    · rw [if_neg (by simp [hquiet])]
      exact hout

/-- The leader sends its message each cycle, and what it had to return is returned. -/
theorem doSyncCycle_leads {s : State} (h3 : s.syncState = 3) (hdrives : s.syncDrives = true) :
    (doSyncCycle s).out = s.out ++ [.sync s.leaderMessage] ∧ (doSyncCycle s).sync.reply = none := by
  have hclock : s.syncClock = true := (Bool.and_eq_true_iff.mp hdrives).1
  have hjudge : s.judgeSync = s := if_pos (by simp [h3])
  unfold doSyncCycle
  rw [if_neg (by simp [h3, hclock]), hjudge]
  extract_lets u c v t1
  have hv : v.syncState = 3 ∧ v.syncDrives = true ∧ v.leaderMessage = s.leaderMessage ∧ v.out = s.out := by
    have hdrive : v.syncDrives = true := (busKept_reportHeard u).2.trans hdrives
    have hnum : ∀ {i j : Nat}, objKey 0x1450 0x13 ≠ objKey i j → v.num i j = s.num i j := by
      intro i j hk
      show (if (cycleOf u.time.ns).1 = 0 then _ else u).num i j = _
      split
      · exact (State.num_put ..).trans (if_neg hk)
      · rfl
    have htime : v.time = s.time ∧ v.sync.reply = s.sync.reply := by
      unfold v
      split <;> exact ⟨rfl, rfl⟩
    refine ⟨(hnum (i := 0x1450) (j := 0x10) (by decide)).trans h3, hdrive, ?_, (busKept_reportHeard u).1⟩
    unfold State.leaderMessage State.syncUnit State.timeState
    rw [hnum (i := 0x1450) (j := 0x02) (by decide), hnum (i := 0x1400) (j := 0x20) (by decide), htime.1, htime.2]
  obtain ⟨hstate, hdrive, hmessage, hout⟩ := hv
  rw [if_pos (by simp [hstate]), if_pos hdrive, hmessage]
  refine ⟨?_, rfl⟩
  obtain ⟨g, hg⟩ := countEdge_time v 13 v.now16
  rw [hg]
  exact congrArg (· ++ [OutMsg.sync s.leaderMessage]) hout

/-- A state in which the unit follows a leader whose message it saw. -/
def Follows (lead : Nat) (t : State) : Prop := t.syncState = 2 ∧ t.num 0x1450 0x11 = lead ∧ t.sync.sawLeader = true

theorem follows_modSync {lead : Nat} {s : State} (h : Follows lead s) {f : SyncBus → SyncBus} (hf : ∀ x, (f x).sawLeader = x.sawLeader) :
    Follows lead (s.modSync f) := ⟨h.1, h.2.1, (hf _).trans h.2.2⟩

theorem follows_syncDelay {lead : Nat} {s : State} (h : Follows lead s) (d : Int) : Follows lead (s.syncDelay d) := by
  unfold State.syncDelay
  extract_lets l l' m u
  have hu : Follows lead u := by
    obtain ⟨hstate, hlead, hsaw⟩ := h
    exact ⟨(State.num_putI ..).trans ((if_neg (by decide)).trans hstate), (State.num_putI ..).trans ((if_neg (by decide)).trans hlead), hsaw⟩
  split
  · obtain ⟨hrec, -⟩ := records_issueOpen u 0x39 0x28 0 (by decide)
    obtain ⟨hstate, hlead, hsaw⟩ := hu
    refine ⟨(recorded_num hrec _ _ (by decide)).trans hstate, (recorded_num hrec _ _ (by decide)).trans hlead, ?_⟩
    obtain ⟨free, streams, od, dram, heq, -⟩ := hrec
    rw [heq]
    exact hsaw
  · exact hu

/-- What an edge of the SYNC clock leaves of the unit. -/
theorem busEdge_kept (s : State) (ch cycle : Nat) (tap : Fin 128) {i j : Nat} (h : objKey 0x1438 0x10 ≠ objKey i j) :
    ((s.tdcStamp ch cycle tap 0).2.countEdge 13 (s.tdcStamp ch cycle tap 0).1).num i j = s.num i j :=
  (countEdge_num ..).trans (stamped_num (stamped_tdcStamp s ch cycle tap 0) h)

/-- A valid leader message makes a unit follow. -/
theorem doSyncLeaderMessage_follows {s : State} {bits : List Bool} {ago : Nat} {tap : Fin 128} (hstate : s.syncState = 1 ∨ s.syncState = 2)
    (hclock : s.syncClock = true) (hvalid : syncValid 157 bits = true) (hhead : bitField bits 1 15 = 0x2B3C) (hkind : bitField bits 16 4 = 1) :
    Follows (bitField bits 20 4) (doSyncLeaderMessage bits ago tap s) := by
  have hkept : ((s.tdcStamp 8 (s.cyc - ago) tap 0).2.countEdge 13 (s.tdcStamp 8 (s.cyc - ago) tap 0).1).syncState = s.syncState :=
    busEdge_kept s 8 (s.cyc - ago) tap (by decide)
  unfold doSyncLeaderMessage
  rw [if_neg (by rcases hstate with h | h <;> simp [h, hclock])]
  extract_lets x t4 u lead v w t3 first y z
  rw [if_neg (by simp [hvalid]), if_neg (by rcases hstate with h | h <;> simp [show u.syncState = _ from hkept, h, hhead, hkind])]
  have hw : Follows lead w := ⟨(State.num_put ..).trans ((if_neg (by decide)).trans ((State.num_put ..).trans (if_pos rfl))),
    (State.num_put ..).trans (if_pos rfl), rfl⟩
  have hy : Follows lead y := by
    unfold y
    split
    · exact follows_modSync hw (fun _ => rfl)
    · exact hw
  have hz : Follows lead z := by
    unfold z
    split
    · split
      · exact follows_syncDelay hy _
      · exact hy
    · exact hy
  split
  · exact hz
  · exact hz

/-- The second nearest an instant. -/
theorem nearestSecond_near (now : Int) (low : Nat) : (nearestSecond now low - low) % 256 = 0 ∧
    ((nearestSecond now low * sec16 - now).natAbs ≤ (128 * sec16).natAbs ∨ nearestSecond now low < 256) := by
  unfold nearestSecond
  extract_lets k d
  have hd : d = ((low : Int) - k) % 256 := rfl
  have hk : k = now / sec16 := rfl
  unfold sec16 at *
  split
  · rename_i h
    simp only [Bool.or_eq_true, decide_eq_true_eq] at h
    refine ⟨by omega, ?_⟩
    rcases h with h | h
    · exact .inl (by omega)
    · exact .inr h
  · rename_i h
    simp only [Bool.or_eq_true, decide_eq_true_eq, not_or, not_lt] at h
    exact ⟨by omega, .inl (by omega)⟩

/-- What else a bus edge carries is not taken: its edge is counted, and a bad CRC. -/
theorem doSyncLeaderMessage_untaken {s : State} {bits : List Bool} {ago : Nat} {tap : Fin 128} (hstate : s.syncState ≠ 0)
    (hclock : s.syncClock = true) : let clk := s.tdcStamp 8 (s.cyc - ago) tap 0
    (syncValid 157 bits = false → doSyncLeaderMessage bits ago tap s = (clk.2.countEdge 13 clk.1).bump 0x1450 0x18 1) ∧
    (syncValid 157 bits = true → s.syncState = 3 ∨ bitField bits 1 15 ≠ 0x2B3C → doSyncLeaderMessage bits ago tap s = clk.2.countEdge 13 clk.1) := by
  intro clk
  have hkept : (clk.2.countEdge 13 clk.1).syncState = s.syncState := busEdge_kept s 8 (s.cyc - ago) tap (by decide)
  have hin : ¬ (s.syncState == 0 || !s.syncClock) = true := by simp [hstate, hclock]
  refine ⟨fun hbad => (if_neg hin).trans (if_pos (by simp [hbad])), fun hvalid hnot => (if_neg hin).trans ((if_neg (by simp [hvalid])).trans (if_pos ?_))⟩
  rcases hnot with h | h
  · exact Bool.or_eq_true_iff.mpr (.inl (Bool.or_eq_true_iff.mpr (.inl (beq_iff_eq.mpr (hkept.trans h)))))
  · simp [h]

/-- The leader stamps a delay request, to return it in its next message. -/
theorem doSyncDelayReq_stamps {s : State} {bits : List Bool} {slot : Fin 16} {ago : Nat} {tap : Fin 128} (h3 : s.syncState = 3)
    (hclock : s.syncClock = true) (hvalid : syncValid 83 bits = true) (hkind : bitField bits 1 4 = 2) :
    (doSyncDelayReq slot bits ago tap s).sync.reply = some (bitField bits 5 4, (s.tdcStamp 9 (s.cyc - ago) tap 0).1) := by
  unfold doSyncDelayReq
  rw [if_neg (by simp [h3, hclock]), if_neg (by simp [hvalid]), if_neg (by simp [hkind])]
  extract_lets u v x
  rw [if_pos (by simp [show v.syncState = 3 from h3])]
  have hstamp : x.1 = (s.tdcStamp 9 (s.cyc - ago) tap 0).1 :=
    congrArg (fun n : Int => s.stampOf (s.cyc - ago) + n - Config.tdcLatency - ps16 0) (tapTime_congr (s := s) (t := v) rfl rfl rfl 9 tap)
  exact congrArg (fun n : Int => some (u, n)) hstamp

/-- A message with a bad CRC is counted, and recorded in the unit's own slot. -/
theorem syncCrc_counts (s : State) (slot : Fin 16) : (s.syncCrc slot).num 0x1450 0x18 = incWrap (s.num 0x1450 0x18) 1 32 ∧
    (s.sync.sending = true → slot.val = s.syncUnit → NewestRecord s (s.syncCrc slot) 0x39) := by
  unfold State.syncCrc
  extract_lets u
  have hu : u.num 0x1450 0x18 = incWrap (s.num 0x1450 0x18) 1 32 := (State.num_bump ..).trans (if_pos rfl)
  obtain ⟨hrec, hnewest⟩ := records_issueOpen u 0x39 0x28 0 (by decide)
  have hunit : u.syncUnit = s.syncUnit := (State.num_bump ..).trans (if_neg (by decide))
  split
  · exact ⟨(recorded_num hrec _ _ (by decide)).trans hu, fun _ _ => hnewest⟩
  · rename_i hno
    refine ⟨hu, fun hsend hslot => absurd ?_ hno⟩
    simp [show u.sync.sending = true from hsend, hunit, hslot]

theorem doSyncTrigger_other {s : State} {bits : List Bool} {slot : Fin 16} (hstate : s.syncState ≠ 0) (hclock : s.syncClock = true)
    (hvalid : syncValid 83 bits = true) (hkind : bitField bits 1 4 = 3) :
    doSyncTrigger slot bits s = if bitField bits 5 4 = s.syncUnit then s
      else (s.modSync (fun x => { x with heard := x.heard ++ [bitField bits 5 4] })).triggerSync (bitField bits 9 4)
        ((nearestSecond s.now16 (bitField bits 13 8) * 1000000000 + (bitField bits 21 30 : Nat)) * 65536 + (bitField bits 51 16 : Nat)) := by
  unfold doSyncTrigger
  rw [if_neg (by simp [hstate, hclock]), if_neg (by simp [hvalid])]
  by_cases hown : bitField bits 5 4 = s.syncUnit
  · rw [if_pos hown, if_pos (by simp [hown])]
  · rw [if_neg hown, if_neg (by simp [hown, hkind])]
    rfl

/-- Settles O58. -/
theorem stampsAndBusMessages : Obligations.StampsAndBusMessages := by
  unfold Obligations.StampsAndBusMessages
  intro s input rising running held n unit ago tap tf tl at' hits m x bits slot rest e src q o u edge stamp here gate ing egr bus clk sec
  have hedge : edge → doTsEdge input rising held tap s = _ := fun ⟨hclock, hon, hnew, htaken⟩ =>
    doTsEdge_recognised (tap := tap) hclock hon hnew htaken
  refine ⟨?_, fun ⟨_, _, hnew, _⟩ => ?_, fun hin hlow => ?_, fun hin hhigh => ⟨fun hdead => ?_, fun hlive => ?_⟩, recordEdge_count s input rising at',
    fun hclock hshort => ?_, ⟨_, rfl, fun i => ?_⟩, fun hclock => ⟨_, rfl, ?_⟩, fun hclock => ?_, fun hon hclock => ⟨_, rfl, ?_⟩, rfl,
    fun hcal hboot hlen hgood => ⟨_, rfl, ?_⟩, fun hon hdomain => ⟨?_, ?_, ?_, ?_, ?_, ?_⟩, fun hother => ⟨?_, fun body => ?_⟩,
    fun h3 hdrives => ⟨_, rfl, doSyncCycle_leads h3 hdrives⟩, fun hquiet => ⟨_, rfl, doSyncCycle_silent hquiet⟩, fun hstate hdrives hidle hqueue => ?_,
    fun hstate hclock hvalid hhead hkind => ⟨_, rfl, doSyncLeaderMessage_follows hstate hclock hvalid hhead hkind⟩, fun hstate hclock hbad => ?_,
    fun hstate hclock hvalid hnot => ?_, fun hsend => ?_, fun h3 hclock hvalid hkind hunit => ⟨_, rfl, ?_⟩, fun hstate hclock hbad => ⟨s.syncCrc slot |>.settle, ?_, ?_⟩,
    fun hstate hclock hvalid hkind => ⟨fun hown => ?_, fun hother => ?_⟩, fun h1 h2 hclock => ?_⟩
  · simp [TsInput.recognises]
  · have hget : u.inputs.get input = (s.inputs.get input).seen rising held := (vget_set _ input.val input.isLt input _).trans (if_pos rfl)
    have hheld : 2 ≤ held := by
      simp only [TsInput.recognises, Bool.and_eq_true, decide_eq_true_eq] at hnew
      exact hnew.1
    rw [hget]
    exact if_pos hheld
  · exact next_of_eq (u := doTsEdge input rising held tap s) rfl ((hedge hin).trans (if_pos hlow))
  · exact next_of_eq (u := doTsEdge input rising held tap s) rfl ((hedge hin).trans ((if_neg (by omega)).trans (if_pos hdead)))
  · refine next_of_eq (u := doTsEdge input rising held tap s) rfl ((hedge hin).trans ((if_neg (by omega)).trans (if_neg ?_)))
    rw [show inDeadTime (s.inputs.get input).last (s.localTime (input.val - 4) tap) = false from hlive]
    decide
  · refine next_of_eq (u := doTsEdge input rising held tap s) rfl ((if_neg (by simp [hclock])).trans (if_pos ?_))
    simp [TsInput.recognises, Nat.not_le.mpr hshort]
  · refine ((stampFlow_mergeStamps 8192 _).1 i).trans ?_
    exact congrArg TsInput.inMs (Vector.getElem_map (fun x : TsInput => { x with inMs := 0 }) i.isLt)
  · have hdo : doTimestampFrameClose s = (s.mergeStamps 8192).closeStamps := if_pos hclock
    show (doTimestampFrameClose s).time.stamps = []
    rw [hdo]
    exact closeStamps_stamps _
  · exact next_of_eq (u := doTimestampFrameClose s) rfl (if_neg (by simp [hclock]))
  · obtain ⟨hcount, hgate, hfew, hrate⟩ := doFrequencyGateEnd_counts (n := n) (tf := tf) (tl := tl) hon hclock
    exact ⟨hcount, hgate, hfew, fun h h' => (hrate h h').trans (gateFrequency_eq _ _ _)⟩
  · obtain ⟨hdone, hcount, hlines⟩ := doTdcCalibrationComplete_good hcal hboot hlen hgood
    refine ⟨hdone, hcount, fun i hi => ?_⟩
    obtain ⟨hline, htable⟩ := exchanged_reads (s.tdcChannel i) (tdcTable (hits.getD i []))
    show ((doTdcCalibrationComplete hits s).tdcChannel i).line1 = _ ∧ (if ((doTdcCalibrationComplete hits s).tdcChannel i).line1 then
      ((doTdcCalibrationComplete hits s).tdcChannel i).table1 else ((doTdcCalibrationComplete hits s).tdcChannel i).table0) = _
    rw [hlines i hi]
    exact ⟨hline, htable⟩
  · intro hslave hmaster hsource hfirst hone
    have hdo := (doPtpSyncReceive_master hon hdomain hslave hmaster hsource hfirst).trans (if_neg (by simp [hone]))
    exact ⟨_, congrArg (fun u : State => Host.Outcome.next u.settle) hdo, ptpOffset_reports s (m.origin + m.correction) (m.stamp - ing)⟩
  · intro hslave hmaster hsource hfirst htwo
    exact next_of_eq (u := doPtpSyncReceive m s) rfl ((doPtpSyncReceive_master hon hdomain hslave hmaster hsource hfirst).trans (if_pos htwo))
  · intro hmaster hp2p hlink hkeeper
    refine next_of_eq (u := doPtpMessageReceive ⟨m.domain, .delayReq src q at'⟩ s) rfl ((if_neg (by simp [hon, hdomain])).trans ((if_pos ?_).trans ?_))
    · simp [hmaster, hp2p]
    · exact sendPtp_of_link hlink hkeeper 9 q.toNat [src.toNat, at' - ing]
  · exact fun hmaster hlink hkeeper => next_of_eq (u := doPtpInterval .sync s) rfl (doPtpInterval_sync hon hmaster hlink hkeeper)
  · have hdo : doPtpSyncTimeout s = s.setPresent 2 false := if_pos hon
    exact ⟨_, congrArg (fun u : State => Host.Outcome.next u.settle) hdo, (setPresent_leaves s 2 false).1⟩
  · obtain ⟨hstate, hmaster⟩ := doAnnounceReceiptTimeout_leaves hon
    exact ⟨_, rfl, hstate, hmaster⟩
  · exact next_of_eq (u := doPtpSyncReceive m s) rfl (doPtpSyncReceive_other hother)
  · exact next_of_eq (u := doPtpMessageReceive ⟨m.domain, body⟩ s) rfl (doPtpMessageReceive_other hother body)
  · refine next_of_eq (u := doSyncTriggerSend s) rfl ((if_neg ?_).trans ?_)
    · rcases hstate with h | h <;> simp [h, hdrives, hidle]
    · rw [hqueue]
  · exact next_of_eq (u := doSyncLeaderMessage bits ago tap s) rfl ((doSyncLeaderMessage_untaken hstate hclock).1 hbad)
  · exact next_of_eq (u := doSyncLeaderMessage bits ago tap s) rfl ((doSyncLeaderMessage_untaken hstate hclock).2 hvalid hnot)
  · exact next_of_eq (u := doSyncTriggerSend s) rfl (if_pos (by simp [hsend]))
  · show (doSyncDelayReq slot bits ago tap s).sync.reply = _
    rw [doSyncDelayReq_stamps h3 hclock hvalid hkind, hunit]
  · refine next_of_eq (u := doSyncDelayReq slot bits ago tap s) rfl ((if_neg (by simp [hstate, show s.syncClock = true from hclock])).trans (if_pos ?_))
    simp [hbad]
  · exact syncCrc_counts s slot
  · exact next_of_eq (u := doSyncTrigger slot bits s) rfl ((doSyncTrigger_other hstate hclock hvalid hkind).trans (if_pos hown))
  · obtain ⟨hlow, hnear⟩ := nearestSecond_near s.now16 (bitField bits 13 8)
    refine ⟨hlow, hnear, ?_⟩
    exact next_of_eq (u := doSyncTrigger slot bits s) rfl ((doSyncTrigger_other hstate hclock hvalid hkind).trans (if_neg hother))
  · exact next_of_eq (u := doSyncListenExpiry running s) rfl (if_neg (by simp [h1, h2, show s.syncClock = true from hclock]))

end Sys2Proof.Machine

/-! The capture engine: lines of a Comb, triggers of the slots, the end of a capture (R270 to R285). -/

namespace Sys2Proof.Machine

open Sys2Proof Sys2Proof.Safety

/-! ### What the slots leave of the Combs -/

/-- The slots work: neither a route nor an object of a Comb changes. -/
def CombKept (s t : State) : Prop :=
  t.routeA = s.routeA ∧ t.routeB = s.routeB ∧ ∀ (r : Route) (sub : Nat), sub < 256 → t.num (at10 0x2810 r) sub = s.num (at10 0x2810 r) sub

theorem combKept_refl (s : State) : CombKept s s := ⟨rfl, rfl, fun _ _ _ => rfl⟩

theorem combKept_trans {s t u : State} (h : CombKept s t) (h' : CombKept t u) : CombKept s u :=
  ⟨h'.1.trans h.1, h'.2.1.trans h.2.1, fun r sub hs => (h'.2.2 r sub hs).trans (h.2.2 r sub hs)⟩

theorem combKept_route {s t : State} (h : CombKept s t) (r : Route) : t.route r = s.route r := by
  cases r
  · exact h.1
  · exact h.2.1

theorem combKept_foldl {α : Type} {f : State → α → State} (h : ∀ s x, CombKept s (f s x)) (l : List α) (s : State) : CombKept s (l.foldl f s) := by
  induction l generalizing s with
  | nil => exact combKept_refl s
  | cons x l ih => exact combKept_trans (h s x) (ih _)

theorem combKept_ite {s t u : State} {c : Prop} [Decidable c] (h : CombKept s t) (h' : CombKept s u) : CombKept s (if c then t else u) := by
  split
  · exact h
  · exact h'

theorem combKept_requested {s t : State} (h : Requested s t) : CombKept s t := by
  obtain ⟨dram, rfl, -⟩ := h
  exact ⟨rfl, rfl, fun _ _ _ => rfl⟩

theorem combKept_setSlot (s : State) (k : Fin 8) (x : CapSlot) : CombKept s (s.setSlot k x) := ⟨rfl, rfl, fun _ _ _ => rfl⟩

/-- An object of a slot is none of a Comb. -/
theorem capKey_ne_comb (k : Fin 8) (r : Route) {i sub : Nat} (hi : i < 256) (hs : sub < 256) : objKey (capIdx k) i ≠ objKey (at10 0x2810 r) sub := by
  have hk := k.isLt
  cases r <;> simp only [objKey, capIdx, at10, routeNum] <;> omega

theorem combKept_slotPut (s : State) (k : Fin 8) {i : Nat} (n : Nat) (hi : i < 256) : CombKept s (s.put (capIdx k) i n) :=
  ⟨rfl, rfl, fun r _ hs => (State.num_put ..).trans (if_neg (capKey_ne_comb k r hi hs))⟩

theorem combKept_requestLineCopy (s : State) (k : Fin 8) (c : Capture) : CombKept s (s.requestLineCopy k c) := by
  have hcopy : ∀ a b n, CombKept s (s.requestCopy k c.route a b n) := fun _ _ _ => combKept_requested (requested_requestSpan ..)
  unfold State.requestLineCopy
  exact combKept_ite (combKept_trans (hcopy ..) (combKept_requested (requested_requestLocal ..))) (hcopy ..)

/-- A line is read without a change but of the free values. -/
theorem readLine_free (s : State) (c : Capture) (n : Nat) : ∃ free, (s.readLine c n).2 = { s with free := free } := by
  unfold State.readLine
  cases mapGet (s.route c.route).comb.lines n with
  | none => exact ⟨s.free, rfl⟩
  | some l =>
    simp only
    split
    · exact ⟨s.free, rfl⟩
    · exact ⟨_, rfl⟩

/-- The lines that a slot reads move the requests of the memory and the free values alone. -/
theorem readLines_reads (k : Fin 8) (n : Nat) (s : State) (c : Capture) :
    ∃ free dram, (s.readLines k n c).2 = { s with free := free, dram := dram } := by
  induction n generalizing s c with
  | zero => exact ⟨s.free, s.dram, rfl⟩
  | succ n ih =>
    unfold State.readLines
    split
    · exact ⟨s.free, s.dram, rfl⟩
    · extract_lets x
      have hcopy : Requested s (s.requestLineCopy k c) := by
        have hspan : ∀ a b n, Requested s (s.requestCopy k c.route a b n) := fun _ _ _ => requested_requestSpan ..
        unfold State.requestLineCopy
        exact iteInduction (motive := Requested s) (fun _ => requested_trans (hspan ..) (requested_requestLocal ..)) (fun _ => hspan ..)
      obtain ⟨dram, hdram, -⟩ := hcopy
      obtain ⟨free, hfree⟩ := readLine_free (s.requestLineCopy k c) c c.next
      have hx : x.2 = { s with free := free, dram := dram } := hfree.trans (by rw [hdram])
      obtain ⟨free', dram', hnext⟩ := ih x.2 { c with
        next := c.next + 1, read := c.read + 1, lines := c.lines ++ [x.1]
        cflags := if x.1.written && !x.1.bad then c.cflags else c.cflags ||| 8 }
      refine ⟨free', dram', hnext.trans ?_⟩
      rw [hx]

theorem slot_setSlot (s : State) (k : Fin 8) (x : CapSlot) : (s.setSlot k x).capture.get k = x := (vget_set _ k.val k.isLt k _).trans (if_pos rfl)

/-- The copy of a slot goes on: what it has read moves, and no object. -/
theorem catchUp_goes (s : State) (k : Fin 8) : (s.catchUp k).od = s.od ∧ (s.catchUp k).routeA = s.routeA ∧ (s.catchUp k).routeB = s.routeB ∧
    ((s.catchUp k).capture.get k).seq = (s.capture.get k).seq ∧
    (((s.catchUp k).capture.get k).copying.isSome = (s.capture.get k).copying.isSome) := by
  unfold State.catchUp
  split
  · exact ⟨rfl, rfl, rfl, rfl, rfl⟩
  · rename_i c hc
    extract_lets oldest d bytes due x
    split
    · exact ⟨rfl, rfl, rfl, rfl, rfl⟩
    · obtain ⟨free, dram, h⟩ := readLines_reads k (Nat.min (due - d.read) (d.tline + d.post + 1 - d.next)) s d
      replace h : x.2 = { s with free := free, dram := dram } := h
      rw [slot_setSlot, h]
      exact ⟨rfl, rfl, rfl, (congrArg (fun y : State => (y.capture.get k).seq) h :), (congrArg Option.isSome hc).symm⟩

theorem combKept_catchUp (s : State) (k : Fin 8) : CombKept s (s.catchUp k) := by
  obtain ⟨hod, ha, hb, -⟩ := catchUp_goes s k
  exact ⟨ha, hb, fun _ _ _ => State.num_of_od hod _ _⟩

theorem combKept_mergeTrigger (s : State) (k : Fin 8) (c : Capture) (sources : Nat) (t : Int) : CombKept s (s.mergeTrigger k c sources t) := by
  unfold State.mergeTrigger
  exact combKept_ite (combKept_setSlot ..) (combKept_slotPut s k _ (by decide))

theorem combKept_sendTrigger (s : State) (n : Nat) (t : Int) : CombKept s (s.sendTrigger n t) := by
  unfold State.sendTrigger
  refine combKept_ite (combKept_refl s) (combKept_ite ⟨rfl, rfl, fun r sub hs => ?_⟩ ⟨rfl, rfl, fun _ _ _ => rfl⟩)
  refine (State.num_bump ..).trans (if_neg ?_)
  cases r <;> simp only [objKey, at10, routeNum] <;> omega

/-- The slot that accepts a trigger captures, and what follows is the outputs and the message of the trigger. -/
theorem acceptTrigger_follows (s : State) (k : Fin 8) (src : Nat) (t : Int) :
    let u := (s.setSlot k { s.capture.get k with copying := some (s.newCapture k src t s.cyc) }).slotState k 2
    CombKept u (s.acceptTrigger k src t) ∧ (s.acceptTrigger k src t).capture = u.capture ∧
      (s.acceptTrigger k src t).num (capIdx k) 0x20 = u.num (capIdx k) 0x20 := by
  intro u
  unfold State.acceptTrigger
  extract_lets i x v v' pins w pins' y out
  have hw : CombKept u w ∧ w.capture = u.capture ∧ w.od = u.od := by
    unfold w
    split <;> exact ⟨⟨rfl, rfl, fun _ _ _ => rfl⟩, rfl, rfl⟩
  have hy : CombKept w y ∧ y.capture = w.capture ∧ y.od = w.od := by
    unfold y
    split <;> exact ⟨⟨rfl, rfl, fun _ _ _ => rfl⟩, rfl, rfl⟩
  obtain ⟨hcomb, hcap, hod⟩ := hw
  obtain ⟨hcomb', hcap', hod'⟩ := hy
  have hall : CombKept u y ∧ y.capture = u.capture ∧ y.num (capIdx k) 0x20 = u.num (capIdx k) 0x20 :=
    ⟨combKept_trans hcomb hcomb', hcap'.trans hcap, State.num_of_od (hod'.trans hod) _ _⟩
  split
  · refine ⟨combKept_trans hall.1 (combKept_sendTrigger ..), ?_, ?_⟩
    · refine Eq.trans ?_ hall.2.1
      unfold State.sendTrigger
      exact iteInduction (motive := fun z : State => z.capture = y.capture) (fun _ => rfl) (fun _ =>
        iteInduction (motive := fun z : State => z.capture = y.capture) (fun _ => rfl) (fun _ => rfl))
    · refine Eq.trans ?_ hall.2.2
      unfold State.sendTrigger
      refine iteInduction (motive := fun z : State => z.num (capIdx k) 0x20 = y.num (capIdx k) 0x20) (fun _ => rfl) (fun _ =>
        iteInduction (motive := fun z : State => z.num (capIdx k) 0x20 = y.num (capIdx k) 0x20) (fun _ => ?_) (fun _ => rfl))
      refine (State.num_bump ..).trans (if_neg ?_)
      simp only [objKey, capIdx]
      omega
  · exact hall

theorem combKept_acceptTrigger (s : State) (k : Fin 8) (src : Nat) (t : Int) : CombKept s (s.acceptTrigger k src t) :=
  combKept_trans (combKept_trans (combKept_setSlot s k _) (combKept_slotPut _ k _ (by decide))) (acceptTrigger_follows s k src t).1

theorem combKept_replaceTrigger (s : State) (k : Fin 8) (c : Capture) (src : Nat) (t : Int) : CombKept s (s.replaceTrigger k c src t) := by
  unfold State.replaceTrigger
  extract_lets out sync u d
  have hu : CombKept s u := ⟨rfl, rfl, fun _ _ _ => rfl⟩
  exact combKept_ite (combKept_trans hu (combKept_trans (combKept_setSlot u k _) (combKept_mergeTrigger _ k d _ _)))
    (combKept_trans hu (combKept_setSlot u k _))

theorem combKept_triggerSlot (s : State) (k : Fin 8) (src : Nat) (t : Int) : CombKept s (s.triggerSlot k src t) := by
  have hcount : CombKept s (s.bump (capIdx k) 0x21 1) := combKept_slotPut s k _ (by decide)
  unfold State.triggerSlot
  refine combKept_ite (combKept_refl s) (combKept_ite hcount ?_)
  split
  · exact combKept_acceptTrigger ..
  · exact combKept_ite (combKept_replaceTrigger ..) (combKept_ite (combKept_mergeTrigger ..) (combKept_setSlot ..))
  · exact hcount

theorem combKept_placeSlot (s : State) (k : Fin 8) : CombKept s (s.placeSlot k) := by
  unfold State.placeSlot
  split
  · exact combKept_refl s
  · refine combKept_ite (combKept_refl s) (combKept_trans (combKept_setSlot s k _) (combKept_foldl (fun u e => ?_) _ _))
    split
    · exact combKept_mergeTrigger ..
    · exact combKept_refl u

theorem combKept_dataTrigger (s : State) (k : Fin 8) (r : Route) (n : Nat) (v : Option Int) : CombKept s (s.dataTrigger k r n v) := by
  unfold State.dataTrigger
  extract_lets i x lam eta dir
  split
  · exact combKept_setSlot ..
  · extract_lets rise fall u c tL
    have hu : CombKept s u := combKept_setSlot ..
    exact combKept_ite (combKept_trans hu (combKept_triggerSlot u k _ _)) hu

/-! ### Lines of a Comb (R270 to R274) -/

theorem mapGet_filter {α : Type} (q : Nat → Bool) (m : Map α) (k : Nat) :
    mapGet (m.filter (fun e => q e.1)) k = if q k then mapGet m k else none := by
  induction m with
  | nil => simp
  | cons e t ih =>
    obtain ⟨j, w⟩ := e
    by_cases hq : q j = true
    · rw [List.filter_cons_of_pos (by simpa using hq), mapGet_cons, mapGet_cons, ih]
      by_cases hj : j = k
      · subst hj
        simp [hq]
      · simp [hj]
    · rw [List.filter_cons_of_neg (by simpa using hq), ih, mapGet_cons]
      by_cases hj : j = k
      · subst hj
        simp [hq]
      · simp [hj]

/-- A line takes the next number of its Comb, and its place in the ring. -/
theorem putLine_numbers (s : State) (r : Route) (src : LineSource) (l : CombLine) (vals : Nat → Option Int) : let t := s.putLine r src l vals
    (t.route r).comb.next = (s.route r).comb.next + 1 ∧ (t.route r).comb.lastSeq = some src.seq ∧
      t.num (at10 0x2810 r) 0x13 = (s.route r).comb.next + 1 ∧ t.num (at10 0x2810 r) 0x14 = s.num (at10 0x2810 r) 0x14 ∧
      ∀ x, mapGet (t.route r).comb.lines (s.route r).comb.next = some x → x = l := by
  intro t
  generalize ht : t = z
  unfold t State.putLine at ht
  extract_lets mine u d c n v w at ht
  have hu : CombKept s u := combKept_foldl (fun y k => combKept_ite (combKept_catchUp y k) (combKept_refl y)) _ s
  have hn : n = (s.route r).comb.next := congrArg (fun x : RouteState => x.comb.next) (combKept_route hu r)
  have hw : CombKept w z := by
    rw [← ht]
    refine combKept_foldl (fun y k => ?_) _ w
    extract_lets i y'
    have hy : CombKept y y' := combKept_ite (combKept_trans (combKept_placeSlot y k) (combKept_catchUp _ k)) (combKept_refl y)
    exact combKept_ite (combKept_trans hy (combKept_dataTrigger y' k r n _)) hy
  have hvw : CombKept (v.put (at10 0x2810 r) 0x13 (n + 1)) w := by
    unfold w State.requestWritten
    exact combKept_ite (combKept_requested (requested_requestSpan ..)) (combKept_refl _)
  have hlast := combKept_trans hvw hw
  have hcomb : (z.route r).comb = (v.route r).comb :=
    congrArg RouteState.comb ((combKept_route hlast r).trans (State.route_put ..))
  have hkey : ∀ {a b : Nat}, a ≠ b → ¬ objKey (at10 0x2810 r) a = objKey (at10 0x2810 r) b := fun h he => by
    simp only [objKey] at he
    omega
  rw [hcomb]
  have hv : (v.route r).comb = _ := congrArg RouteState.comb (State.route_modComb u r _)
  rw [hv, ← hn]
  refine ⟨rfl, rfl, ?_, ?_, fun x hx => ?_⟩
  · exact (hlast.2.2 r 0x13 (by decide)).trans ((State.num_put ..).trans (if_pos rfl))
  · refine (hlast.2.2 r 0x14 (by decide)).trans ((State.num_put ..).trans ((if_neg (hkey (by decide))).trans ?_))
    exact (State.num_of_od (State.modRoute_od ..) _ _).trans (hu.2.2 r 0x14 (by decide))
  · have hget : mapGet ((mapSet (u.route r).comb.lines n l).filter (fun e => decide (n < e.1 + d))) n = some x := hx
    rw [mapGet_filter (fun j => decide (n < j + d)), mapGet_mapSet, if_pos rfl] at hget
    split at hget
    · exact (Option.some.inj hget).symm
    · exact absurd hget (by simp)

/-- A line of kinds 2 and 3 whose updates are all known is written. -/
theorem doCombLineWrite_updates {s : State} {r : Route} {l : LineSource} (hopen : s.combOpen r (s.read r (at10 0x2810 r) 0x01) = some l)
    (hkind : s.read r (at10 0x2810 r) 0x01 ≠ 1) (hknown : ∀ p ∈ combPositions (s.read r) r, (s.updateEntry r p).isSome = true) :
    ∃ (free : Nat) (line : CombLine) (vals : Nat → Option Int), doCombLineWrite r s = ({ s with free := free } : State).putLine r l line vals := by
  unfold doCombLineWrite
  extract_lets get kind
  have hsome : s.combOpen r kind = some l := hopen
  rw [hsome]
  have hall : ¬ (((combPositions get r).map (fun p => (p, s.updateEntry r p))).any (fun e => e.2.isNone)) = true := by
    rw [List.any_map, List.any_eq_true]
    rintro ⟨p, hp, hnone⟩
    have hp' := hknown p hp
    simp only [Function.comp_apply, Option.isNone_iff_eq_none] at hnone
    rw [hnone] at hp'
    exact absurd hp' (by decide)
  refine ⟨_, _, _, (if_neg (by simp [kind, get, hkind])).trans (if_neg hall)⟩

/-- A line of kind 1 whose updates are all known is written. -/
theorem doCombLineWrite_samples {s : State} {r : Route} {l : LineSource} {h : Handoff} (hopen : s.combOpen r (s.read r (at10 0x2810 r) 0x01) = some l)
    (hkind : s.read r (at10 0x2810 r) 0x01 = 1) (hhand : s.handoff r = some h)
    (hknown : let g := sliceCfg (s.readAt r h.launch.seq) s.kind r
      ∀ p ∈ combPositions (s.read r) r, p ∈ g.positions.take (g.positions.length - g.gauge) → (mapGet (s.route r).ray.updates p).isSome = true) :
    ∃ (line : CombLine) (vals : Nat → Option Int), doCombLineWrite r s = s.putLine r l line vals := by
  unfold doCombLineWrite
  extract_lets get kind
  have hsome : s.combOpen r kind = some l := hopen
  rw [hsome, hhand]
  have hall : ∀ c : SliceCfg, c = sliceCfg (s.readAt r h.launch.seq) s.kind r → ¬ ((combPositions get r).any (fun p =>
      (c.positions.take (c.positions.length - c.gauge)).contains p && (mapGet (s.route r).ray.updates p).isNone)) = true := by
    rintro c rfl
    rw [List.any_eq_true]
    rintro ⟨p, hp, hnone⟩
    obtain ⟨hused, hnone⟩ := Bool.and_eq_true_iff.mp hnone
    have hp' := hknown p hp (by simpa using hused)
    rw [Option.isNone_iff_eq_none.mp hnone] at hp'
    exact absurd hp' (by decide)
  exact ⟨_, _, (if_pos (by simp [kind, get, hkind])).trans (if_neg (hall _ rfl))⟩

/-- A line that is discarded takes its number alone. -/
theorem doCombLineDiscard_numbers {s : State} {r : Route} {l : LineSource} (hopen : s.combOpen r (s.read r (at10 0x2810 r) 0x01) = some l) :
    ((doCombLineDiscard r s).route r).comb.next = (s.route r).comb.next + 1 ∧
    (doCombLineDiscard r s).num (at10 0x2810 r) 0x14 = incWrap (s.num (at10 0x2810 r) 0x14) 1 32 ∧
    ∀ x, mapGet ((doCombLineDiscard r s).route r).comb.lines (s.route r).comb.next = some x → x.written = false := by
  obtain ⟨keep, hkeep, hdo⟩ : ∃ keep : CombLine, keep.written = false ∧
      doCombLineDiscard r s = (s.bump (at10 0x2810 r) 0x14 1).putLine r l keep (fun _ => none) := by
    have hsome : s.combOpen r (s.cfg r (at10 0x2810 r) 0x01) = some l := hopen
    unfold doCombLineDiscard
    extract_lets kind c old
    rw [show s.combOpen r kind = some l from hsome]
    refine ⟨_, ?_, rfl⟩
    cases old with
    | none => rfl
    | some x => exact iteInduction (motive := fun y : CombLine => y.written = false) (fun _ => rfl) (fun _ => rfl)
  have hroute : (s.bump (at10 0x2810 r) 0x14 1).route r = s.route r := State.route_bump ..
  obtain ⟨hnext, -, -, hcount, hline⟩ := putLine_numbers (s.bump (at10 0x2810 r) 0x14 1) r l keep (fun _ => none)
  rw [hroute] at hnext hline
  rw [hdo]
  refine ⟨hnext, hcount.trans ((State.num_bump ..).trans (if_pos rfl)), fun x hx => ?_⟩
  rw [hline x hx]
  exact hkeep

/-! ### Triggers of a slot (R277, R280) -/

/-- A capture that a trigger begins carries its instant and its source. -/
theorem newCapture_trigger (s : State) (k : Fin 8) (src : Nat) (t : Int) (accepted : Nat) :
    (s.newCapture k src t accepted).ttime = t ∧ (s.newCapture k src t accepted).sources = 2 ^ src := by
  unfold State.newCapture
  extract_lets i r c
  split <;> exact ⟨rfl, rfl⟩

/-- A merged trigger leaves the instant of the capture. -/
theorem mergeTrigger_keeps {s : State} {k : Fin 8} {c : Capture} (hc : (s.capture.get k).copying = some c) (sources : Nat) (t : Int) :
    ∃ x, ((s.mergeTrigger k c sources t).capture.get k).copying = some x ∧ x.ttime = c.ttime := by
  unfold State.mergeTrigger
  split
  · rw [slot_setSlot]
    exact ⟨_, rfl, rfl⟩
  · exact ⟨c, hc, rfl⟩

/-- An earlier trigger of the recognition cycle takes the place of the accepted one. -/
theorem replaceTrigger_takes (s : State) (k : Fin 8) (c : Capture) (src : Nat) (t : Int) :
    ∃ x, ((s.replaceTrigger k c src t).capture.get k).copying = some x ∧ x.ttime = t := by
  unfold State.replaceTrigger
  extract_lets out sync u d
  have hd : d.ttime = t := (newCapture_trigger u k src t c.accepted).1
  split
  · obtain ⟨x, hx, htime⟩ := mergeTrigger_keeps (s := u.setSlot k { u.capture.get k with copying := some d }) (k := k) (c := d)
      (by rw [slot_setSlot]) c.sources c.ttime
    exact ⟨x, hx, htime.trans hd⟩
  · rw [slot_setSlot]
    exact ⟨_, rfl, hd⟩

/-- A slot offered a trigger of its own in SENSE goes by its state. -/
theorem triggerSlot_sense {s : State} {k : Fin 8} {src : Nat} (hbit : bit (s.num (capIdx k) 0x03) src = true) (hmode : s.mode = 4) (t : Int) :
    (s.num (capIdx k) 0x20 = 1 → s.triggerSlot k src t = s.acceptTrigger k src t) ∧
    (∀ c, s.num (capIdx k) 0x20 = 2 → (s.capture.get k).copying = some c → s.triggerSlot k src t =
      if s.outranks c src t then s.replaceTrigger k c src t
      else if c.placed then s.mergeTrigger k c (2 ^ src) t
      else s.setSlot k { s.capture.get k with copying := some { c with early := c.early ++ [(src, t)] } }) ∧
    (s.num (capIdx k) 0x20 = 3 → s.triggerSlot k src t = s.bump (capIdx k) 0x21 1) := by
  have hin : s.triggerSlot k src t = _ := (if_neg (by simp [hbit])).trans (if_neg (by simp [hmode]))
  rw [hin]
  refine ⟨fun h => ?_, fun c h hc => ?_, fun h => ?_⟩
  · rw [h]
    cases (s.capture.get k).copying <;> rfl
  · rw [h, hc]
    rfl
  · rw [h]
    cases (s.capture.get k).copying <;> rfl

theorem acceptTrigger_captures (s : State) (k : Fin 8) (src : Nat) (t : Int) :
    ∃ x, ((s.acceptTrigger k src t).capture.get k).copying = some x ∧ x.ttime = t ∧ x.sources = 2 ^ src ∧
      (s.acceptTrigger k src t).num (capIdx k) 0x20 = 2 := by
  obtain ⟨-, hcap, hstate⟩ := acceptTrigger_follows s k src t
  obtain ⟨htime, hsources⟩ := newCapture_trigger s k src t s.cyc
  refine ⟨s.newCapture k src t s.cyc, ?_, htime, hsources, hstate.trans ((State.num_put ..).trans (if_pos rfl))⟩
  rw [hcap]
  exact congrArg CapSlot.copying (slot_setSlot s k _)

theorem bitCount_source {src : Nat} (h : src < 8) : bitCount (2 ^ src) = 1 := by
  have hall : ∀ i : Fin 8, bitCount (2 ^ i.val) = 1 := by decide
  exact hall ⟨src, h⟩

/-! ### The end of a capture (R282) -/

/-- What follows a capture that has ended leaves the slots and their objects. -/
def SlotsKept (s t : State) : Prop := t.capture = s.capture ∧ ∀ (k : Fin 8) (sub : Nat), sub < 256 → t.num (capIdx k) sub = s.num (capIdx k) sub

theorem slotsKept_trans {s t u : State} (h : SlotsKept s t) (h' : SlotsKept t u) : SlotsKept s u :=
  ⟨h'.1.trans h.1, fun k sub hs => (h'.2 k sub hs).trans (h.2 k sub hs)⟩

/-- Every object of a slot lies between those of the Combs and those of the streams. -/
theorem capKey_range (k : Fin 8) {sub : Nat} (h : sub < 256) : objKey 0x2840 0 ≤ objKey (capIdx k) sub ∧ objKey (capIdx k) sub < objKey 0x2900 0 := by
  have hk := k.isLt
  simp only [objKey, capIdx]
  omega

theorem slotsKept_recorded {s t : State} (h : Recorded s t) : SlotsKept s t := by
  refine ⟨?_, fun k sub hs => recorded_num h _ _ ?_⟩
  · obtain ⟨free, streams, od, dram, rfl, -⟩ := h
    rfl
  · obtain ⟨hlow, hhigh⟩ := capKey_range k hs
    have hkeys : ∀ j ∈ recordKeys, j < objKey 0x2840 0 ∨ objKey 0x2900 0 ≤ j := by decide
    exact fun hm => by rcases hkeys _ hm with h | h <;> omega

theorem slotsKept_handOver (s : State) (d : FrameDesc) (hd : d.stream = 9) : SlotsKept s (s.handOver d).2 := by
  obtain ⟨streams, od, dram, h, hod⟩ := handOver_moves s d
  rw [h]
  refine ⟨rfl, fun k sub hs => congrArg Val.toNat (hod _ ?_)⟩
  obtain ⟨hlow, hhigh⟩ := capKey_range k hs
  rw [hd]
  have hkeys : ∀ j ∈ handOverKeys 9, j < objKey 0x2840 0 ∨ objKey 0x2900 0 ≤ j := by decide
  exact fun hm => by rcases hkeys _ hm with h | h <;> omega

theorem slotsKept_modRoute (s : State) (r : Route) (f : RouteState → RouteState) : SlotsKept s (s.modRoute r f) := by
  refine ⟨State.modRoute_capture .., fun k sub _ => State.num_of_od (State.modRoute_od ..) _ _⟩

theorem slotsKept_sendCapture (s : State) (c : Capture) (head data : Bytes) (q : Nat) : SlotsKept s (s.sendCapture c head data q) := by
  unfold State.sendCapture
  extract_lets cols x
  have hx : SlotsKept s x.2.2 := by
    unfold x State.codePayload
    split
    · refine ⟨rfl, fun k sub hs => (State.num_put ..).trans (if_neg ?_)⟩
      obtain ⟨-, hhigh⟩ := capKey_range k hs
      simp only [objKey, streamIdx] at hhigh ⊢
      omega
    · exact ⟨rfl, fun _ _ _ => rfl⟩
  have hcount := slotsKept_modRoute x.2.2 c.route (fun y => { y with fcount := listSet y.fcount 9 (· + 1) })
  have hcarry := slotsKept_modRoute (x.2.2.nextCount c.route 9).2 c.route (fun y => { y with carry := listSet y.carry 9 (fun _ => 0) })
  exact slotsKept_trans (slotsKept_trans hx (slotsKept_trans hcount hcarry)) (slotsKept_handOver _ _ rfl)

/-- The slot of a capture that has ended: what it held is numbered and counted. -/
def State.heldSlot (u : State) (k : Fin 8) (held : Held) : State :=
  (u.draw.2.setSlot k { u.capture.get k with copying := none, seq := ((u.capture.get k).seq + 1) % 2 ^ 32, held := some held }).bump (capIdx k) 0x22 1

/-- A capture that ends is held and counted; its slot takes its state, its record is issued, and it is sent where the slot sends. -/
theorem endCapture_parts {s : State} {k : Fin 8} {c : Capture} (hc : ((s.catchUp k).capture.get k).copying = some c) :
    ∃ (held : Held) (y : State) (e : EventRec) (d : Capture) (head data : Bytes) (q : Nat),
      (∃ n : Nat, y = if n % 4 = 0 then (s.catchUp k).heldSlot k held else ((s.catchUp k).heldSlot k held).bump (capIdx k) 0x23 1) ∧
      s.endCapture k false =
        if (s.catchUp k).num (capIdx k) 0x13 == 1 then
          ((y.slotState k (if y.num (capIdx k) 0x0C == 1 && !((s.catchUp k).num (capIdx k) 0x13 == 1) then 1 else 3)).issueRec e).sendCapture d head data q
        else (y.slotState k (if y.num (capIdx k) 0x0C == 1 && !((s.catchUp k).num (capIdx k) 0x13 == 1) then 1 else 3)).issueRec e := by
  unfold State.endCapture
  extract_lets u x
  rw [show x.copying = some c from hc]
  exact ⟨_, _, _, _, _, _, _, ⟨_, rfl⟩, rfl⟩

/-- A capture that ends is held, counted and numbered, and its slot stops or is armed again. -/
theorem endCapture_holds {s : State} {k : Fin 8} (h : ((s.capture.get k).copying).isSome = true) : let t := s.endCapture k false
    (t.capture.get k).copying = none ∧ (t.capture.get k).held.isSome = true ∧ (t.capture.get k).seq = ((s.capture.get k).seq + 1) % 2 ^ 32 ∧
      t.num (capIdx k) 0x22 = incWrap (s.num (capIdx k) 0x22) 1 32 ∧
      t.num (capIdx k) 0x20 = if s.num (capIdx k) 0x0C = 1 ∧ s.num (capIdx k) 0x13 ≠ 1 then 1 else 3 := by
  obtain ⟨hod, -, -, hseq, hcopying⟩ := catchUp_goes s k
  obtain ⟨c, hc⟩ := Option.isSome_iff_exists.mp (hcopying.trans h)
  have hnum : ∀ sub, (s.catchUp k).num (capIdx k) sub = s.num (capIdx k) sub := fun _ => State.num_of_od hod _ _
  obtain ⟨held, y, e, d, head, data, q, ⟨n, hn⟩, heq⟩ := endCapture_parts hc
  have hy : y = (s.catchUp k).heldSlot k held ∨ y = ((s.catchUp k).heldSlot k held).bump (capIdx k) 0x23 1 := by
    rw [hn]
    split
    · exact .inl rfl
    · exact .inr rfl
  intro t
  have hkey : ∀ {a b : Nat}, a ≠ b → ¬ objKey (capIdx k) a = objKey (capIdx k) b := fun h he => by
    simp only [objKey] at he
    omega
  have hheld : ((s.catchUp k).heldSlot k held).capture.get k = { (s.catchUp k).capture.get k with
      copying := none, seq := (((s.catchUp k).capture.get k).seq + 1) % 2 ^ 32, held := some held } :=
    slot_setSlot (s.catchUp k).draw.2 k _
  have hslot : y.capture.get k = { (s.catchUp k).capture.get k with
      copying := none, seq := (((s.catchUp k).capture.get k).seq + 1) % 2 ^ 32, held := some held } := by
    rcases hy with rfl | rfl
    · exact hheld
    · exact hheld
  have hother : ∀ sub, sub ≠ 0x22 → sub ≠ 0x23 → y.num (capIdx k) sub = s.num (capIdx k) sub := by
    intro sub h22 h23
    have hbase : ((s.catchUp k).heldSlot k held).num (capIdx k) sub = s.num (capIdx k) sub :=
      (State.num_bump ..).trans ((if_neg (hkey h22.symm)).trans (hnum sub))
    rcases hy with rfl | rfl
    · exact hbase
    · exact (State.num_bump ..).trans ((if_neg (hkey h23.symm)).trans hbase)
  have hcount : y.num (capIdx k) 0x22 = incWrap (s.num (capIdx k) 0x22) 1 32 := by
    have hbase : ((s.catchUp k).heldSlot k held).num (capIdx k) 0x22 = incWrap (s.num (capIdx k) 0x22) 1 32 :=
      (State.num_bump ..).trans ((if_pos rfl).trans (congrArg (incWrap · 1 32) (hnum 0x22)))
    rcases hy with rfl | rfl
    · exact hbase
    · exact (State.num_bump ..).trans ((if_neg (hkey (by decide))).trans hbase)
  obtain ⟨w, hw⟩ : ∃ w, y.slotState k (if y.num (capIdx k) 0x0C == 1 && !((s.catchUp k).num (capIdx k) 0x13 == 1) then 1 else 3) = w := ⟨_, rfl⟩
  have hstate : w.num (capIdx k) 0x20 = if s.num (capIdx k) 0x0C = 1 ∧ s.num (capIdx k) 0x13 ≠ 1 then 1 else 3 := by
    rw [← hw]
    refine (State.num_put ..).trans ((if_pos rfl).trans ?_)
    rw [hother 0x0C (by decide) (by decide), hnum]
    simp only [Bool.and_eq_true, Bool.not_eq_true', beq_iff_eq, beq_eq_false_iff_ne, ne_eq]
  have hlast : SlotsKept w t := by
    have hrec := slotsKept_recorded (recorded_issueRec w e)
    unfold t
    rw [heq, hw]
    split
    · exact slotsKept_trans hrec (slotsKept_sendCapture ..)
    · exact hrec
  have hwslot : w.capture.get k = y.capture.get k := by
    rw [← hw]
    rfl
  obtain ⟨hcap, hnums⟩ := hlast
  rw [hcap, hwslot, hslot, hnums k 0x22 (by decide), hnums k 0x20 (by decide), hstate]
  refine ⟨rfl, rfl, congrArg (fun n => (n + 1) % 2 ^ 32) hseq, ?_, rfl⟩
  rw [← hw]
  exact (State.num_put ..).trans ((if_neg (hkey (by decide))).trans hcount)

/-- A capture whose last line has been read ends, with what the errors of its lines cost. -/
theorem doCaptureComplete_ends {s : State} {k : Fin 8} {c : Capture} (hc : ((s.catchUp k).capture.get k).copying = some c) (hplaced : c.placed = true)
    (hdone : c.tline + c.post < c.next) (errors : List BurstError) :
    doCaptureComplete k errors s = ((s.catchUp k).copyErrors k errors).endCapture k false := by
  unfold doCaptureComplete
  extract_lets u
  rw [show (u.capture.get k).copying = some c from hc]
  exact if_neg (by simp [hplaced]; omega)

/-- The rows of a slot that a write acts on. -/
theorem slot_rows (k : Fin 8) : actRow (capIdx k) 0x18 1 [1] = true ∧ actRow (capIdx k) 0x19 1 [1] = true := by
  have hall : ∀ k : Fin 8, actRow (capIdx k) 0x18 1 [1] = true ∧ actRow (capIdx k) 0x19 1 [1] = true := by decide
  exact hall k

/-- The acts of a slot's two objects. -/
theorem routeWrite_slot (s : State) (c : Client) (k : Fin 8) (x : Val) :
    s.routeWrite c (capIdx k) 0x18 x = (reArmWrite k s).acted ∧ s.routeWrite c (capIdx k) 0x19 x = (hostTriggerWrite k s).acted := by
  match k with
  | 0 => exact ⟨rfl, rfl⟩
  | 1 => exact ⟨rfl, rfl⟩
  | 2 => exact ⟨rfl, rfl⟩
  | 3 => exact ⟨rfl, rfl⟩
  | 4 => exact ⟨rfl, rfl⟩
  | 5 => exact ⟨rfl, rfl⟩
  | 6 => exact ⟨rfl, rfl⟩
  | 7 => exact ⟨rfl, rfl⟩

theorem capIdx_route (k : Fin 8) : 0x2000 ≤ capIdx k := by
  unfold capIdx
  omega

/-- A stopped slot is armed again without what it held. -/
theorem reArmWrite_states (s : State) (k : Fin 8) : (s.num (capIdx k) 0x20 = 1 → reArmWrite k s = ⟨0, s, id⟩) ∧
    (s.num (capIdx k) 0x20 = 3 → reArmWrite k s = ⟨0, (s.setSlot k { s.capture.get k with held := none }).slotState k 1, id⟩) := by
  unfold reArmWrite
  refine ⟨fun h => ?_, fun h => ?_⟩
  · rw [h]
    rfl
  · rw [h]
    rfl

/-- An edge of TRIG_IN that is taken is stamped and offered to the slots, unless it comes within the dead time. -/
theorem doTrigInEdge_taken {s : State} {n : Fin 2} {rising : Bool} {tap : Fin 128} (hclock : s.sampleClock = true)
    (hedge : edgeTaken (s.num 0x2800 (0x01 + n.val)) rising = true) :
    let x := s.tdcStamp (4 + n.val) s.cyc tap 0
    let counted := x.2.countEdge (11 + n.val) x.1
    let at' := s.localTime (4 + n.val) tap
    doTrigInEdge n rising tap s =
      if inDeadTime (s.trigIn.get n).last at' then s.bump 0x1430 (0x10 + n.val) 1
      else ({ counted with trigIn := counted.trigIn.set n { counted.trigIn.get n with last := some at' } } : State).triggerSlots
        (1 + n.val) x.1 (fun _ => true) := if_neg (by simp [hclock, hedge])

/-- Settles O55. -/
theorem capturesFollowTheirTriggers : Obligations.CapturesFollowTheirTriggers := by
  unfold Obligations.CapturesFollowTheirTriggers
  intro s v r level k n src at' rising tap l c errors i kind stamp edge placed counted
  refine ⟨fun hopen => ⟨fun hkind hknown => ?_, fun h hkind hhand hknown => ?_, ?_⟩, fun hnone => ⟨?_, ?_⟩, fun hbit hmode => ⟨fun h1 => ?_,
    fun h2 hc hfirst => ?_, fun h2 hc hlater hearly => ?_, fun h2 hc hlater hplaced hline => ?_, fun h2 hc hlater hplaced hsrc hline => ?_, fun h3 => ?_⟩,
    fun hbit => if_pos (by simp [show bit (s.num (capIdx k) 0x03) src = false from hbit]), fun hr hl hmode => ?_, fun hr hl hmode => ⟨fun h1 => ?_, fun h3 => ?_⟩,
    fun ⟨hclock, htaken⟩ hlive => ?_, fun ⟨hclock, htaken⟩ t0 hlast hnear => ?_, fun hno => ?_, fun hc hplaced hdone => ⟨?_, ?_⟩, fun hnone => ?_, rfl, rfl⟩
  · obtain ⟨free, line, vals, hdo⟩ := doCombLineWrite_updates hopen hkind hknown
    obtain ⟨hnext, hseq, hcount, -⟩ := putLine_numbers { s with free := free } r l line vals
    exact ⟨_, congrArg (fun u : State => Host.Outcome.next u.settle) hdo, hnext, hseq, hcount⟩
  · obtain ⟨line, vals, hdo⟩ := doCombLineWrite_samples hopen hkind hhand hknown
    obtain ⟨hnext, hseq, -⟩ := putLine_numbers s r l line vals
    exact ⟨_, congrArg (fun u : State => Host.Outcome.next u.settle) hdo, hnext, hseq⟩
  · exact ⟨_, rfl, doCombLineDiscard_numbers hopen⟩
  · refine next_of_eq (u := doCombLineWrite r s) rfl ?_
    unfold doCombLineWrite
    extract_lets get kind'
    rw [show s.combOpen r kind' = none from hnone]
  · refine next_of_eq (u := doCombLineDiscard r s) rfl ?_
    unfold doCombLineDiscard
    extract_lets kind'
    rw [show s.combOpen r kind' = none from hnone]
  · rw [(triggerSlot_sense hbit hmode at').1 h1]
    exact acceptTrigger_captures s k src at'
  · rw [(triggerSlot_sense hbit hmode at').2.1 c h2 hc, if_pos hfirst]
    exact replaceTrigger_takes s k c src at'
  · rw [(triggerSlot_sense hbit hmode at').2.1 c h2 hc, if_neg (by simp [hlater]), if_neg (by simp [hearly])]
  · rw [(triggerSlot_sense hbit hmode at').2.1 c h2 hc, if_neg (by simp [hlater]), if_pos hplaced]
    exact if_pos hline
  · rw [(triggerSlot_sense hbit hmode at').2.1 c h2 hc, if_neg (by simp [hlater]), if_pos hplaced]
    refine (if_neg hline).trans ?_
    rw [bitCount_source hsrc]
  · exact (triggerSlot_sense hbit hmode at').2.2 h3
  · refine does_routeWrite (n := 0) rfl hr (slot_rows k).2 hl hmode (capIdx_route k) (.inl rfl) fun client => ?_
    exact (routeWrite_slot _ client k _).2
  · refine does_routeWrite (n := 0) rfl hr (slot_rows k).1 hl hmode (capIdx_route k) (.inl rfl) fun client => ?_
    have hopen : (Opened v s).num (capIdx k) 0x20 = 1 := by cases v <;> exact h1
    exact (routeWrite_slot _ client k _).1.trans (congrArg Reply.acted ((reArmWrite_states _ k).1 hopen))
  · refine does_routeWrite (n := 0) rfl hr (slot_rows k).1 hl hmode (capIdx_route k) (.inl rfl) fun client => ?_
    have hopen : (Opened v s).num (capIdx k) 0x20 = 3 ∧ (Opened v s).capture = s.capture := by cases v <;> exact ⟨h3, rfl⟩
    rw [(routeWrite_slot _ client k _).1, (reArmWrite_states _ k).2 hopen.1, hopen.2]
    rfl
  · refine next_of_eq (u := doTrigInEdge n rising tap s) rfl ((doTrigInEdge_taken hclock htaken).trans (if_neg ?_))
    rw [show inDeadTime (s.trigIn.get n).last (s.localTime (4 + n.val) tap) = false from hlive]
    decide
  · refine next_of_eq (u := doTrigInEdge n rising tap s) rfl ((doTrigInEdge_taken hclock htaken).trans (if_pos ?_))
    rw [hlast]
    exact decide_eq_true hnear
  · refine next_of_eq (u := doTrigInEdge n rising tap s) rfl (if_pos ?_)
    by_cases hclock : s.sampleClock = true
    · have htaken : edgeTaken (s.num 0x2800 (0x01 + n.val)) rising = false := Bool.eq_false_iff.mpr fun h => hno ⟨hclock, h⟩
      simp [htaken]
    · simp [hclock]
  · exact next_of_eq (u := doCaptureComplete k errors s) rfl (doCaptureComplete_ends hc hplaced hdone errors)
  · obtain ⟨hod, -, -, hseq, -⟩ := catchUp_goes s k
    have hnum : ∀ sub, (s.catchUp k).num (capIdx k) sub = s.num (capIdx k) sub := fun _ => State.num_of_od hod _ _
    obtain ⟨hcopying, hheld, hnext, hcount, hstate⟩ := endCapture_holds (s := s.catchUp k) (k := k) (by rw [hc]; rfl)
    rw [hnum, hnum] at hstate
    rw [hnum] at hcount
    rw [hseq] at hnext
    exact ⟨_, congrArg (fun u : State => Host.Outcome.next u.settle) (doCaptureComplete_ends hc hplaced hdone []), hcopying, hheld, hnext, hcount, hstate⟩
  · refine next_of_eq (u := doCaptureComplete k errors s) rfl ?_
    have hstill : s.catchUp k = s := by
      unfold State.catchUp
      rw [hnone]
    unfold doCaptureComplete
    rw [hstill]
    simp only [hnone]

end Sys2Proof.Machine

/-! The survey: runs, their phases and Register (R169 to R174). -/

namespace Sys2Proof.Machine

open Sys2Proof Sys2Proof.Safety

/-! ### The request of a run -/

theorem surveyRunWrite_starts {s : State} (hmode : s.mode = 5) (hidle : s.surveyRuns = false) :
    surveyRunWrite s = ⟨0, ({ (s.flushDues .a).flushDues .b with
      survey := { ((s.flushDues .a).flushDues .b).survey with phase := 3 } } : State).surveyIfReady, id⟩ := by
  have hmode' : (s.mode != 5) = false := by simp [hmode]
  rw [surveyRunWrite, hmode', hidle]
  rfl

theorem surveyRunWrite_refused {s : State} (h : s.mode ≠ 5 ∨ s.surveyRuns = true) : ∃ n, surveyRunWrite s = ⟨n, s, id⟩ := by
  rw [surveyRunWrite]
  by_cases hmode : s.mode = 5
  · exact ⟨1, by simp [hmode, h.resolve_left (not_not.mpr hmode)]⟩
  · exact ⟨9, by simp [hmode]⟩

theorem opened_surveyRuns (v : Via) (s : State) : (Opened v s).surveyRuns = s.surveyRuns := by cases v <;> rfl

/-! ### The start of a run -/

/-- A run that waits starts once no enabled route has a start to complete, a failure or a reduced power. -/
theorem surveyIfReady_starts {s : State} (hmode : s.mode = 5) (hphase : s.survey.phase = 3)
    (hroutes : ∀ q, s.enabled q = true → (s.route q).optics.start = some .done ∧ s.launchFail q = false ∧ s.aprState q < 2) :
    s.surveyIfReady = s.surveyStart := by
  have hok : ∀ q, (!s.enabled q || (s.route q).optics.start == some .done) = true := fun q => by
    cases hen : s.enabled q with
    | false => rfl
    | true => simp [(hroutes q hen).1]
  have hfailed : ∀ q, (s.enabled q && s.launchFail q) = false := fun q => by
    cases hen : s.enabled q with
    | false => rfl
    | true => exact (hroutes q hen).2.1
  have hheld : ∀ q, (s.enabled q && decide (2 ≤ s.aprState q)) = false := fun q => by
    cases hen : s.enabled q with
    | false => rfl
    | true => exact decide_eq_false (Nat.not_le.mpr (hroutes q hen).2.2)
  unfold State.surveyIfReady
  simp only [hfailed, hheld, hmode, hphase, Bool.or_false, hok]
  rfl

theorem surveyStart_survey (s : State) (r : Route) :
    s.surveyStart.survey.phase = 1 ∧ s.surveyStart.survey.runs = s.survey.runs + 1 ∧ s.surveyStart.num 0x2A00 0x10 = 1 ∧
      (s.surveyStart.surveyEnd r).s = [] ∧ (s.surveyStart.surveyEnd r).w = [] ∧ (s.surveyStart.surveyEnd r).launches = 0 := by
  have hnum : s.surveyStart.num 0x2A00 0x10 = ((s.put 0x2A00 0x10 1).put 0x2A00 0x11 0).num 0x2A00 0x10 := rfl
  refine ⟨rfl, rfl, ?_, ?_⟩
  · rw [hnum, State.num_put, if_neg (by decide), State.num_put, if_pos rfl]
  · cases r <;> exact ⟨rfl, rfl, rfl⟩

/-! ### Work on the ends of a run -/

/-- State t has control memory and objects of s, and of its survey all but the ends. -/
def EndsOnly (s t : State) : Prop :=
  t.control = s.control ∧ t.od = s.od ∧ t.survey = { s.survey with endA := t.survey.endA, endB := t.survey.endB }

theorem endsOnly_refl (s : State) : EndsOnly s s := ⟨rfl, rfl, rfl⟩

theorem endsOnly_trans {s t u : State} (h : EndsOnly s t) (h' : EndsOnly t u) : EndsOnly s u := by
  obtain ⟨hcontrol, hod, hsurvey⟩ := h
  obtain ⟨hcontrol', hod', hsurvey'⟩ := h'
  rw [hsurvey] at hsurvey'
  exact ⟨hcontrol'.trans hcontrol, hod'.trans hod, hsurvey'⟩

theorem endsOnly_foldl {f : State → Route → State} (h : ∀ s r, EndsOnly s (f s r)) (l : List Route) (s : State) : EndsOnly s (l.foldl f s) := by
  induction l generalizing s with
  | nil => exact endsOnly_refl s
  | cons r l ih => exact endsOnly_trans (h s r) (ih (f s r))

theorem endsOnly_modSurvey (s : State) (r : Route) (f : SurveyEnd → SurveyEnd) : EndsOnly s (s.modSurvey r f) := by
  cases r <;> exact ⟨rfl, rfl, rfl⟩

theorem endsOnly_formEvents (s : State) (r : Route) : EndsOnly s (s.formEvents r) :=
  endsOnly_trans (t := { s with free := s.free + (s.surveyEnd r).s.length + 1 }) ⟨rfl, rfl, rfl⟩ (endsOnly_modSurvey ..)

theorem endsOnly_formWindow (s : State) (r : Route) (lambda : Nat) : EndsOnly s (s.formWindow r lambda) := endsOnly_modSurvey ..

theorem endsOnly_setPump (s : State) (r : Route) (c : Nat) : EndsOnly s (s.setPump r c) := by
  cases r <;> exact ⟨rfl, rfl, rfl⟩

theorem endsOnly_beginApr (s : State) (r : Route) : EndsOnly s (s.beginApr r) := by
  refine iteInduction (motive := EndsOnly s) (fun _ => ?_) (fun _ => endsOnly_modSurvey ..)
  exact endsOnly_trans (endsOnly_modSurvey ..) (endsOnly_setPump ..)

theorem EndsOnly.phase {s t : State} (h : EndsOnly s t) : t.survey.phase = s.survey.phase := by rw [h.2.2]

theorem EndsOnly.lambda {s t : State} (h : EndsOnly s t) : t.survey.lambda = s.survey.lambda := by rw [h.2.2]

/-- The configuration of the survey follows control memory and the objects. -/
theorem surveyConfig_congr {s t : State} (hcontrol : t.control = s.control) (hod : t.od = s.od) :
    t.loopGuard = s.loopGuard ∧ t.surveyRoutes = s.surveyRoutes ∧ t.aprCode = s.aprCode ∧ t.normalCode = s.normalCode := by
  have hcfg := cfg_congr hcontrol hod
  have hloop : t.loopGuard = s.loopGuard := by rw [State.loopGuard, State.loopGuard, hcfg]
  refine ⟨hloop, ?_, ?_, ?_⟩
  · have henabled : t.enabled = s.enabled := by
      funext r
      rw [State.enabled, State.enabled, State.gov, State.gov, hcfg, hloop]
    rw [State.surveyRoutes, State.surveyRoutes, henabled]
  · funext r
    rw [State.aprCode, State.aprCode, r100_congr hcontrol hod]
  · funext r
    rw [State.normalCode, State.normalCode, r100_congr hcontrol hod]

/-! ### The end of the normal phase -/

/-- Whether an end that has the codes c and n has an APR phase. -/
@[reducible] def hasApr (c n : Nat) : Bool := decide (1 ≤ c) && decide (c < n)

theorem surveyEnd_modSurvey (s : State) (r q : Route) (f : SurveyEnd → SurveyEnd) :
    (s.modSurvey r f).surveyEnd q = if q = r then f (s.surveyEnd q) else s.surveyEnd q := by
  cases r <;> cases q <;> rfl

theorem surveyEnd_setPump (s : State) (r q : Route) (c : Nat) : (s.setPump r c).surveyEnd q = s.surveyEnd q := by
  cases r <;> cases q <;> rfl

theorem surveyEnd_beginApr (s : State) (r q : Route) : (s.beginApr r).surveyEnd q =
    if q = r then { s.surveyEnd q with ended := true, aprPhase := hasApr (s.aprCode r) (s.normalCode r), aprFrom := s.cyc + 2 * (s.sched r).t }
    else s.surveyEnd q := by
  refine iteInduction (motive := fun u : State => u.surveyEnd q = _) (fun _ => ?_) (fun _ => surveyEnd_modSurvey ..)
  rw [surveyEnd_setPump]
  exact surveyEnd_modSurvey ..

theorem foldl_beginApr_window (l : List Route) (s : State) (q : Route) :
    ((l.foldl State.beginApr s).surveyEnd q).window = (s.surveyEnd q).window ∧ ((l.foldl State.beginApr s).surveyEnd q).pn = (s.surveyEnd q).pn := by
  induction l generalizing s with
  | nil => exact ⟨rfl, rfl⟩
  | cons r l ih =>
    obtain ⟨hwindow, hpn⟩ := ih (s.beginApr r)
    rw [List.foldl_cons, hwindow, hpn, surveyEnd_beginApr]
    split
    · exact ⟨rfl, rfl⟩
    · exact ⟨rfl, rfl⟩

/-- Each end whose normal phase ends goes on to its APR phase. -/
theorem foldl_beginApr_begun {l : List Route} {s : State} {q : Route}
    (h : q ∈ l ∨ (s.surveyEnd q).ended = true ∧ (s.surveyEnd q).aprPhase = hasApr (s.aprCode q) (s.normalCode q)) :
    ((l.foldl State.beginApr s).surveyEnd q).ended = true ∧
      ((l.foldl State.beginApr s).surveyEnd q).aprPhase = hasApr (s.aprCode q) (s.normalCode q) := by
  induction l generalizing s with
  | nil => exact h.resolve_left List.not_mem_nil
  | cons r l ih =>
    obtain ⟨hcontrol, hod, -⟩ := endsOnly_beginApr s r
    obtain ⟨-, -, hapr, hnormal⟩ := surveyConfig_congr hcontrol hod
    have hbegun := ih (s := s.beginApr r)
    rw [hapr, hnormal, surveyEnd_beginApr] at hbegun
    refine hbegun ?_
    by_cases hq : q = r
    · subst hq
      rw [if_pos rfl]
      exact .inr ⟨rfl, rfl⟩
    · rw [if_neg hq]
      exact h.imp_left (List.mem_of_ne_of_mem hq)

/-- The state with Λ_p and its supporters, as a match proposes them. -/
@[reducible] def State.withMatch (s : State) (m : Option (Nat × Nat)) : State :=
  { s with survey := { s.survey with lambda := (m.map (·.1)).getD 0, supporters := (m.map (·.2)).getD 0 } }

/-- The windows of the ends that are ready. -/
@[reducible] def State.formWindows (s : State) (l : List Route) : State := l.foldl (fun (y : State) q => y.formWindow q y.survey.lambda) s

/-- The match of the reflective events of both ends, under Loop Guard. -/
@[reducible] def State.loopFound (s : State) (loop : Bool) : Option (Nat × Nat) :=
  if loop then loopMatch (loopSums s.survey.endA.events s.survey.endB.events) else none

/-- What the ends that are ready leave of the run once their windows are formed. -/
def State.endNormal (s : State) (l : List Route) : State :=
  if l.any (fun r => (s.surveyEnd r).window.isNone) then s.surveyFail (if s.loopGuard then 5 else 4)
  else
    let u := l.foldl State.beginApr s
    if u.surveyRoutes.all (fun r => (u.surveyEnd r).ended) then { u with survey := { u.survey with phase := 2 } } else u

theorem doSurveyNormalPhaseEnd_waits {s : State} (h : s.survey.phase ≠ 1 ∨ s.endsReady = [] ∧ s.surveyRoutes ≠ []) :
    doSurveyNormalPhaseEnd s = s := by
  refine if_pos ?_
  rcases h with h | ⟨hready, hroutes⟩
  · simp [h]
  · simp [hready, hroutes]

/-- The normal phase of the ends that are ready ends: events, match, windows, APR phase. -/
theorem doSurveyNormalPhaseEnd_ends {s formed : State} {m : Option (Nat × Nat)} (hphase : s.survey.phase = 1)
    (hready : s.endsReady ≠ [] ∨ s.surveyRoutes = []) (hf : s.endsReady.foldl State.formEvents s = formed) (hm : formed.loopFound s.loopGuard = m) :
    doSurveyNormalPhaseEnd s = if s.loopGuard && m.isNone then (formed.withMatch m).surveyFail 5
      else ((formed.withMatch m).formWindows s.endsReady).endNormal s.endsReady := by
  have hformed : EndsOnly s formed := hf ▸ endsOnly_foldl endsOnly_formEvents ..
  have hloop : formed.loopGuard = s.loopGuard := (surveyConfig_congr hformed.1 hformed.2.1).1
  have hguard : ¬ (s.survey.phase != 1 || (s.endsReady.isEmpty && !s.surveyRoutes.isEmpty)) = true := by
    rcases hready with h | h
    · simp [hphase, h]
    · simp [hphase, h]
  rw [← hloop]
  refine (if_neg hguard).trans ?_
  dsimp only
  rw [hf, show (if formed.loopGuard then _ else _) = m from hloop ▸ hm]
  cases m with
  | none => rfl
  | some x => rfl

theorem surveyFail_fails {s : State} (cause : Nat) (hphase : s.survey.phase = 1) :
    (s.surveyFail cause).survey.phase = 0 ∧ (s.surveyFail cause).num 0x2A00 0x10 = 3 ∧ (s.surveyFail cause).num 0x2A00 0x11 = cause := by
  have hfail : s.surveyFail cause = { (((s.endAprPhase .a).endAprPhase .b).put 0x2A00 0x10 3).put 0x2A00 0x11 cause with
      survey := { ((s.endAprPhase .a).endAprPhase .b).survey with phase := 0 } } := if_pos (by simp [hphase])
  rw [hfail]
  refine ⟨rfl, ?_, ?_⟩
  · refine (State.num_put ..).trans ((if_neg (by decide)).trans ?_)
    exact (State.num_put ..).trans (if_pos rfl)
  · exact (State.num_put ..).trans (if_pos rfl)

/-! ### The end of a run -/

/-- The proposals of one end. -/
@[reducible] def State.proposals (s : State) : Route → Proposals
  | .a => s.survey.propA
  | .b => s.survey.propB

/-- What the end of a run leaves of an end: all that its proposals are made of. -/
def SameEnd (e f : SurveyEnd) : Prop :=
  f = { e with events := f.events, pa := f.pa, mapDue := f.mapDue }

/-- The proposals p come from the end e. -/
def ProposedBy (e : SurveyEnd) (p : Proposals) : Prop :=
  p.window = e.window ∧ p.pn = e.pn ∧ p.codes = e.codes ∧ p.pa = if e.aprPhase then e.aprSum / max e.aprLaunches 1 else 0

theorem proposedBy_congr {e f : SurveyEnd} {p : Proposals} (h : SameEnd e f) : ProposedBy f p ↔ ProposedBy e p := by
  rw [h]
  exact Iff.rfl

/-- The end of a run proposes what an end has, and changes of the survey this end and its proposals alone. -/
theorem completeEnd_survey (s : State) (r : Route) :
    ∃ e p, SameEnd (s.surveyEnd r) e ∧ ProposedBy (s.surveyEnd r) p ∧ (s.completeEnd r).survey = match r with
      | .a => { s.survey with endA := e, propA := p }
      | .b => { s.survey with endB := e, propB := p } := by
  unfold State.completeEnd
  extract_lets
  rw [State.putB_survey, State.put_survey, State.put_survey, State.put_survey, State.put_survey, State.put_survey, State.put_survey]
  cases r
  · refine ⟨_, _, ?_, ⟨rfl, rfl, rfl, rfl⟩, rfl⟩
    rfl
  · refine ⟨_, _, ?_, ⟨rfl, rfl, rfl, rfl⟩, rfl⟩
    rfl

theorem surveyEnd_congr {s t : State} (h : t.survey = s.survey) (q : Route) : t.surveyEnd q = s.surveyEnd q := by
  cases q
  · exact congrArg Survey.endA h
  · exact congrArg Survey.endB h

theorem completeEnd_kept (s : State) (r q : Route) :
    (s.completeEnd r).survey.lambda = s.survey.lambda ∧ SameEnd (s.surveyEnd q) ((s.completeEnd r).surveyEnd q) ∧
      (q = r ∨ ProposedBy (s.surveyEnd q) (s.proposals q) → ProposedBy (s.surveyEnd q) ((s.completeEnd r).proposals q)) := by
  obtain ⟨e, p, hsame, hproposed, hsurvey⟩ := completeEnd_survey s r
  cases r with
  | a =>
    replace hsurvey : (s.completeEnd .a).survey = ({ s with survey := { s.survey with endA := e, propA := p } } : State).survey := hsurvey
    refine ⟨by rw [hsurvey], ?_, fun h => ?_⟩
    · rw [surveyEnd_congr hsurvey]
      cases q with
      | a => exact hsame
      | b => rfl
    · cases q with
      | a => rwa [State.proposals, hsurvey]
      | b =>
        rw [State.proposals, hsurvey]
        exact h.resolve_left nofun
  | b =>
    replace hsurvey : (s.completeEnd .b).survey = ({ s with survey := { s.survey with endB := e, propB := p } } : State).survey := hsurvey
    refine ⟨by rw [hsurvey], ?_, fun h => ?_⟩
    · rw [surveyEnd_congr hsurvey]
      cases q with
      | a => rfl
      | b => exact hsame
    · cases q with
      | a =>
        rw [State.proposals, hsurvey]
        exact h.resolve_left nofun
      | b => rwa [State.proposals, hsurvey]

theorem foldl_completeEnd_lambda (l : List Route) (s : State) : (l.foldl State.completeEnd s).survey.lambda = s.survey.lambda := by
  induction l generalizing s with
  | nil => rfl
  | cons r l ih => exact (ih _).trans (completeEnd_kept s r r).1

theorem foldl_completeEnd_proposes {l : List Route} {s : State} {q : Route} (h : q ∈ l ∨ ProposedBy (s.surveyEnd q) (s.proposals q)) :
    ProposedBy (s.surveyEnd q) ((l.foldl State.completeEnd s).proposals q) := by
  induction l generalizing s with
  | nil => exact h.resolve_left List.not_mem_nil
  | cons r l ih =>
    obtain ⟨-, hsame, hproposes⟩ := completeEnd_kept s r q
    refine (proposedBy_congr hsame).mp (ih ?_)
    rw [proposedBy_congr hsame]
    by_cases hq : q = r
    · exact .inr (hproposes (.inl hq))
    · exact h.imp (List.mem_of_ne_of_mem hq) (fun hp => hproposes (.inr hp))

theorem doSurveyRunComplete_waits {s : State} (h : s.survey.phase ≠ 2 ∨ ∃ q ∈ s.surveyRoutes, s.aprDone q = false) :
    doSurveyRunComplete s = s := by
  refine if_pos ?_
  rcases h with h | ⟨q, hq, hdone⟩
  · simp [h]
  · rw [Bool.or_eq_true]
    exact .inr (List.any_eq_true.mpr ⟨q, hq, by simp [hdone]⟩)

theorem doSurveyRunComplete_completes {s : State} (hphase : s.survey.phase = 2) (hdone : ∀ q ∈ s.surveyRoutes, s.aprDone q = true) :
    ∃ v : State, v.survey = (s.surveyRoutes.foldl State.completeEnd s).survey ∧
      doSurveyRunComplete s = { v.put 0x2A00 0x10 2 with survey := { v.survey with phase := 0, done := true, propLambda := v.survey.lambda } } := by
  have hguard : ¬ (s.survey.phase != 2 || s.surveyRoutes.any (fun r => !s.aprDone r)) = true := by
    rw [Bool.or_eq_true, not_or, List.any_eq_true]
    refine ⟨by simp [hphase], ?_⟩
    rintro ⟨q, hq, h⟩
    rw [hdone q hq] at h
    cases h
  unfold doSurveyRunComplete
  dsimp only
  rw [if_neg hguard]
  generalize s.surveyRoutes.foldl State.completeEnd s = u
  exact ⟨(u.put 0x2A30 0x10 u.survey.lambda).put 0x2A30 0x11 u.survey.supporters, rfl, rfl⟩

/-! ### Register -/

/-- A write of an acting object of the routes that its client carries out. -/
theorem does_clientWrite {i : Instr} {s u : State} {v : Via} {level idx sub l : Nat} {b : Bytes}
    (hx : exec i s = .next (s.viaWrite v none idx sub b).settle) (hr : Reaches s v level idx sub b) (hrow : actRow idx sub l b = true)
    (hl : l ≤ level) (hm : s.mode ≠ 7) (h1 : 0x2000 ≤ idx)
    (ha : (Opened v s).routeWrite (viaClient v) idx sub (ofWire (typeOf idx sub) b) = done u) : Does i s u id := by
  cases hf : findObj idx sub with
  | noObject => simp [actRow, hf] at hrow
  | noSubindex => simp [actRow, hf] at hrow
  | count k => simp [actRow, hf] at hrow
  | row o =>
    simp only [actRow, hf, Bool.and_eq_true, Bool.not_eq_true', beq_iff_eq] at hrow
    obtain ⟨⟨⟨⟨⟨hwr, hdraft⟩, hlive⟩, hblock⟩, hlen⟩, hrange⟩ := hrow
    rw [Bool.or_eq_false_iff] at hdraft
    obtain ⟨w, hw, he⟩ := viaWrite_client_done (bist := none) (u := u) hr (by
      intro ty block hty
      rw [writeObject_act hf hwr hl (.inl (by rwa [opened_mode])) (by simp [State.draftRefused, hdraft.1, hdraft.2]) hblock hty hlen hrange]
      refine Eq.trans ?_ ha
      have hunit : ¬ idx < 0x1300 := by omega
      have hroute : ¬ idx < 0x2000 := by omega
      simp only [State.writeAct, hlive, hdraft.1, hunit, hroute, Bool.false_eq_true, if_false, typeOf_row hf])
    exact ⟨w, hw, by rw [hx, he, id]⟩

theorem registerWrite_refused {s : State} (h : s.surveyRuns = true ∨ s.survey.done = false) : ∃ n, ∀ c, registerWrite c s = ⟨n, s, id⟩ := by
  by_cases hruns : s.surveyRuns = true
  · exact ⟨1, fun c => if_pos hruns⟩
  · exact ⟨13, fun c => by simp [registerWrite, hruns, h.resolve_left hruns]⟩

/-- State t is s but for the draft. -/
def DraftOnly (s t : State) : Prop := ∃ d, t = { s with control := { s.control with draft := d } }

theorem draftOnly_refl (s : State) : DraftOnly s s := ⟨_, rfl⟩

theorem draftOnly_trans {s t u : State} (h : DraftOnly s t) (h' : DraftOnly t u) : DraftOnly s u := by
  obtain ⟨d, rfl⟩ := h
  obtain ⟨d', rfl⟩ := h'
  exact ⟨d', rfl⟩

theorem draftOnly_setDraft (s : State) (k : Nat) (v : Val) : DraftOnly s (s.setDraft k v) := ⟨_, rfl⟩

theorem draftOnly_propose (s : State) (idx sub n : Nat) : DraftOnly s (s.propose idx sub n) :=
  iteInduction (motive := DraftOnly s) (fun _ => draftOnly_refl s) (fun _ => draftOnly_setDraft ..)

theorem DraftOnly.cfg {s t : State} (h : DraftOnly s t) : t.cfg = s.cfg := by
  obtain ⟨d, rfl⟩ := h
  rfl

/-- The proposals of one end that stand before its window: the group index and the coil. -/
def State.proposeCoil (s : State) (r : Route) (p : Proposals) : State :=
  let s := s.propose (at100 0x2110 r) 0x07 p.index
  match p.coil with
  | some c => (s.propose (at10 0x2410 r) 0x07 c.1).propose (at10 0x2410 r) 0x08 c.2
  | none => s

/-- The proposals of a window that goes to the objects of power reduction. -/
def State.proposeWindow (s : State) (o : Nat) (p : Proposals) (w : Nat × Nat) : State :=
  ((((((s.propose o 0x08 w.1).propose o 0x09 w.2).propose o 0x0A p.pn).propose o 0x0B p.pa).draftNum o 0x0C p.codes.1).draftNum o 0x0D p.codes.2)

theorem draftOnly_proposeCoil (s : State) (r : Route) (p : Proposals) : DraftOnly s (s.proposeCoil r p) := by
  unfold State.proposeCoil
  cases p.coil with
  | none => exact draftOnly_propose ..
  | some c => exact draftOnly_trans (draftOnly_propose ..) (draftOnly_trans (draftOnly_propose ..) (draftOnly_propose ..))

theorem draftOnly_proposeWindow (s : State) (o : Nat) (p : Proposals) (w : Nat × Nat) : DraftOnly s (s.proposeWindow o p w) := by
  refine draftOnly_trans ?_ (draftOnly_setDraft ..)
  refine draftOnly_trans ?_ (draftOnly_setDraft ..)
  exact draftOnly_trans (draftOnly_trans (draftOnly_propose ..) (draftOnly_propose ..)) (draftOnly_trans (draftOnly_propose ..) (draftOnly_propose ..))

/-- The registration of an end, by its window and by whether a switch keeps its registrations. -/
theorem registerEnd_cases (s : State) (r : Route) :
    (s.proposals r).window = none ∧ s.registerEnd r = s.proposeCoil r (s.proposals r) ∨
    (∃ w v, (s.proposals r).window = some w ∧ s.g100 r 0x2140 0x01 = 1 ∧
      s.registerEnd r = (s.proposeCoil r (s.proposals r)).setDraft (objKey (at100 0x2160 r) 0x20) v) ∨
    ∃ w, (s.proposals r).window = some w ∧ s.g100 r 0x2140 0x01 ≠ 1 ∧
      s.registerEnd r = (s.proposeCoil r (s.proposals r)).proposeWindow (at100 0x2160 r) (s.proposals r) w := by
  have hswitch : (s.proposeCoil r (s.proposals r)).g100 r 0x2140 0x01 = s.g100 r 0x2140 0x01 := by
    obtain ⟨d, hd⟩ := draftOnly_proposeCoil s r (s.proposals r)
    rw [hd]
    rfl
  unfold State.registerEnd
  extract_lets p s₁ s₂
  have hp : p = s.proposals r := rfl
  have hs : s₂ = s.proposeCoil r p := rfl
  clear_value s₂ p
  rw [← hp] at hswitch ⊢
  rw [← hs] at hswitch ⊢
  cases p.window with
  | none => exact .inl ⟨rfl, rfl⟩
  | some w =>
    by_cases hg : s.g100 r 0x2140 0x01 = 1
    · exact .inr (.inl ⟨w, _, rfl, hg, if_pos (beq_iff_eq.mpr (hswitch.trans hg))⟩)
    · exact .inr (.inr ⟨w, rfl, hg, if_neg (fun h => hg (hswitch.symm.trans (beq_iff_eq.mp h)))⟩)

theorem draftOnly_registerEnd (s : State) (r : Route) : DraftOnly s (s.registerEnd r) := by
  obtain ⟨-, h⟩ | ⟨w, v, -, -, h⟩ | ⟨w, -, -, h⟩ := registerEnd_cases s r
  · rw [h]
    exact draftOnly_proposeCoil ..
  · rw [h]
    exact draftOnly_trans (draftOnly_proposeCoil ..) (draftOnly_setDraft ..)
  · rw [h]
    exact draftOnly_trans (draftOnly_proposeCoil ..) (draftOnly_proposeWindow ..)

theorem draftOnly_registerEnds (l : List Route) (s : State) : DraftOnly s (l.foldl State.registerEnd s) := by
  induction l generalizing s with
  | nil => exact draftOnly_refl s
  | cons r l ih => exact draftOnly_trans (draftOnly_registerEnd s r) (ih _)

theorem dictNum_draftNum (s : State) (i j n idx sub : Nat) : dictNum (s.draftNum i j n).control.draft idx sub =
    if objKey i j = objKey idx sub then n else dictNum s.control.draft idx sub := dictNum_dictSet ..

/-- A proposal that is not zero goes into the draft. -/
theorem dictNum_propose (s : State) (i j n idx sub : Nat) : dictNum (s.propose i j n).control.draft idx sub =
    if n ≠ 0 ∧ objKey i j = objKey idx sub then n else dictNum s.control.draft idx sub := by
  unfold State.propose
  by_cases hn : n = 0
  · rw [if_pos hn, if_neg (fun h => h.1 hn)]
  · rw [if_neg hn, dictNum_draftNum]
    simp [hn]

theorem proposeCoil_index (s : State) (r : Route) (p : Proposals) : dictNum (s.proposeCoil r p).control.draft (at100 0x2110 r) 0x07 =
    if p.index = 0 then dictNum s.control.draft (at100 0x2110 r) 0x07 else p.index := by
  have hindex : dictNum (s.propose (at100 0x2110 r) 0x07 p.index).control.draft (at100 0x2110 r) 0x07 =
      if p.index = 0 then dictNum s.control.draft (at100 0x2110 r) 0x07 else p.index := by
    rw [dictNum_propose]
    by_cases h : p.index = 0 <;> simp [h]
  unfold State.proposeCoil
  cases p.coil with
  | none => exact hindex
  | some c =>
    rw [dictNum_propose, if_neg (by cases r <;> simp [objKey, at100, at10, routeNum]), dictNum_propose,
      if_neg (by cases r <;> simp [objKey, at100, at10, routeNum])]
    exact hindex

theorem proposeCoil_window (s : State) (r : Route) (p : Proposals) (sub : Nat) (hsub : sub < 256) :
    dictNum (s.proposeCoil r p).control.draft (at100 0x2160 r) sub = dictNum s.control.draft (at100 0x2160 r) sub := by
  have hindex : dictNum (s.propose (at100 0x2110 r) 0x07 p.index).control.draft (at100 0x2160 r) sub =
      dictNum s.control.draft (at100 0x2160 r) sub := by
    rw [dictNum_propose, if_neg]
    cases r <;> simp only [objKey, at100, routeNum] <;> omega
  unfold State.proposeCoil
  cases p.coil with
  | none => exact hindex
  | some c =>
    rw [dictNum_propose, if_neg (by cases r <;> simp only [objKey, at100, at10, routeNum] <;> omega), dictNum_propose,
      if_neg (by cases r <;> simp only [objKey, at100, at10, routeNum] <;> omega)]
    exact hindex

/-- The objects of power reduction take the window, its references and the codes. -/
theorem proposeWindow_draft (s : State) (o : Nat) (p : Proposals) (a b : Nat) :
    let d := (s.proposeWindow o p (a, b)).control.draft
    let was := s.control.draft
    let gets := fun (sub n : Nat) => dictNum d o sub = if n = 0 then dictNum was o sub else n
    gets 0x08 a ∧ gets 0x09 b ∧ gets 0x0A p.pn ∧ gets 0x0B p.pa ∧ dictNum d o 0x0C = p.codes.1 ∧ dictNum d o 0x0D = p.codes.2 ∧
      ∀ idx sub, idx ≠ o → sub < 256 → dictNum d idx sub = dictNum was idx sub := by
  intro d was gets
  have hd : ∀ idx sub, dictNum d idx sub =
      if objKey o 0x0D = objKey idx sub then p.codes.2 else if objKey o 0x0C = objKey idx sub then p.codes.1
      else if p.pa ≠ 0 ∧ objKey o 0x0B = objKey idx sub then p.pa else if p.pn ≠ 0 ∧ objKey o 0x0A = objKey idx sub then p.pn
      else if b ≠ 0 ∧ objKey o 0x09 = objKey idx sub then b else if a ≠ 0 ∧ objKey o 0x08 = objKey idx sub then a
      else dictNum was idx sub := fun idx sub => by
    simp only [d, State.proposeWindow, dictNum_draftNum, dictNum_propose, was]
  refine ⟨?_, ?_, ?_, ?_, ?_, ?_, fun idx sub hidx hsub => ?_⟩
  · simp [gets, hd, objKey]
  · simp [gets, hd, objKey]
  · simp [gets, hd, objKey]
  · simp [gets, hd, objKey]
  · simp [hd, objKey]
  · simp [hd]
  · have hkey : ∀ j, j < 256 → objKey o j ≠ objKey idx sub := fun j hj => by
      unfold objKey
      omega
    rw [hd, if_neg (hkey _ (by decide)), if_neg (hkey _ (by decide)), if_neg (fun h => hkey _ (by decide) h.2),
      if_neg (fun h => hkey _ (by decide) h.2), if_neg (fun h => hkey _ (by decide) h.2), if_neg (fun h => hkey _ (by decide) h.2)]

/-- Taking the draft leaves the configuration of Loop Guard and the proposals. -/
theorem takeDraft_survey (s : State) (c : Client) : (s.takeDraft c).loopGuard = s.loopGuard ∧ (s.takeDraft c).survey = s.survey := by
  have hpending : (s.takeDraft c).control.pending = s.control.pending :=
    iteInduction (motive := fun u : State => u.control.pending = s.control.pending) (fun _ => rfl) (fun _ => rfl)
  refine ⟨?_, iteInduction (motive := fun u : State => u.survey = s.survey) (fun _ => rfl) (fun _ => rfl)⟩
  rw [State.loopGuard, State.loopGuard, State.cfg, State.cfg, State.cfgOf, State.cfgOf, hpending,
    takeDraft_val (by decide) (by decide) (by decide)]

/-- Register copies the proposals of the enabled ends, and with Loop Guard the loop length, into the client's draft. -/
theorem registerWrite_copies {s : State} {c : Client} (hidle : s.surveyRuns = false) (hdone : s.survey.done = true)
    (hfree : ∀ h, s.control.holder = some h → h = c) :
    let copied := s.surveyRoutes.foldl State.registerEnd (s.takeDraft c)
    registerWrite c s = ⟨0, (if s.loopGuard && s.survey.propLambda != 0
      then (copied.draftNum 0x2A30 0x01 (rhu s.survey.propLambda 2).toNat).draftNum 0x2A30 0x02 1 else copied).reportDraft, id⟩ := by
  intro copied
  obtain ⟨hloop, hsurvey⟩ := takeDraft_survey s c
  obtain ⟨d, hcopied⟩ := draftOnly_registerEnds s.surveyRoutes (s.takeDraft c)
  replace hcopied : copied = { s.takeDraft c with control := { (s.takeDraft c).control with draft := d } } := hcopied
  have hloop' : copied.loopGuard = s.loopGuard := by
    rw [← hloop, hcopied]
    rfl
  have hsurvey' : copied.survey = s.survey := by rw [hcopied, ← hsurvey]
  rw [registerWrite, hidle, hdone, State.draftBusy_eq_false hfree, ← hloop', ← hsurvey']
  rfl

/-! ### The statement -/

theorem opened_surveyRoutes (v : Via) (s : State) : (Opened v s).surveyRoutes = s.surveyRoutes := by cases v <;> rfl

theorem opened_loopGuard (v : Via) (s : State) : (Opened v s).loopGuard = s.loopGuard := by cases v <;> rfl

theorem opened_survey (v : Via) (s : State) : (Opened v s).survey = s.survey := by cases v <;> rfl

/-- The ends that are ready with a match and their windows go on to their APR phase. -/
theorem endNormal_begins {s : State} {l : List Route} (hfits : ∀ q ∈ l, (s.surveyEnd q).window ≠ none) (hphase : s.survey.phase = 1) :
    let t := s.endNormal l
    t.survey.lambda = s.survey.lambda ∧
      (∀ q ∈ l, (t.surveyEnd q).ended = true ∧ (t.surveyEnd q).window = (s.surveyEnd q).window ∧ (t.surveyEnd q).pn = (s.surveyEnd q).pn ∧
        (t.surveyEnd q).aprPhase = hasApr (s.aprCode q) (s.normalCode q)) ∧
      t.survey.phase = if s.surveyRoutes.all (fun q => (t.surveyEnd q).ended) then 2 else 1 := by
  have hwindows : ¬ (l.any fun r => (s.surveyEnd r).window.isNone) = true := by
    rw [List.any_eq_true]
    rintro ⟨q, hq, h⟩
    exact hfits q hq (Option.isNone_iff_eq_none.mp h)
  have hbegun : EndsOnly s (l.foldl State.beginApr s) := endsOnly_foldl endsOnly_beginApr ..
  have hroutes : (l.foldl State.beginApr s).surveyRoutes = s.surveyRoutes := (surveyConfig_congr hbegun.1 hbegun.2.1).2.1
  have hwindow := foldl_beginApr_window l s
  have hapr : ∀ q ∈ l, _ := fun q hq => foldl_beginApr_begun (s := s) (q := q) (.inl hq)
  intro t
  have ht : t = if s.surveyRoutes.all (fun r => ((l.foldl State.beginApr s).surveyEnd r).ended)
      then { l.foldl State.beginApr s with survey := { (l.foldl State.beginApr s).survey with phase := 2 } } else l.foldl State.beginApr s := by
    rw [← hroutes]
    exact if_neg hwindows
  clear_value t
  generalize l.foldl State.beginApr s = u at *
  have hends : ∀ q, t.surveyEnd q = u.surveyEnd q := fun q => by
    rw [ht]
    split
    · cases q <;> rfl
    · rfl
  refine ⟨?_, fun q hq => ?_, ?_⟩
  · rw [← hbegun.lambda, ht]
    split
    · rfl
    · rfl
  · rw [hends]
    exact ⟨(hapr q hq).1, (hwindow q).1, (hwindow q).2, (hapr q hq).2⟩
  · simp only [hends]
    rw [ht]
    split
    · rfl
    · exact hbegun.phase.trans hphase

theorem endNormal_fails {s : State} {l : List Route} (hfits : ¬ ∀ q ∈ l, (s.surveyEnd q).window ≠ none) :
    s.endNormal l = s.surveyFail (if s.loopGuard then 5 else 4) := by
  refine if_pos ?_
  by_contra h
  refine hfits fun q hq hnone => h ?_
  exact List.any_eq_true.mpr ⟨q, hq, by rw [hnone]; rfl⟩

/-- Settles O54. -/
theorem surveyRunsAndRegisters : Obligations.SurveyRunsAndRegisters := by
  unfold Obligations.SurveyRunsAndRegisters
  intro s x v r level asked u ready formed m matched w fits some' fails registers prop copied e o
  have hm : formed.loopFound s.loopGuard = m := rfl
  have hmatched : matched = formed.withMatch m := rfl
  have hw : w = matched.formWindows ready := rfl
  clear_value matched m
  have hformed : EndsOnly s formed := endsOnly_foldl endsOnly_formEvents ..
  have hmatch : matched.control = s.control ∧ matched.od = s.od ∧ matched.survey.phase = s.survey.phase := by
    rw [hmatched]
    exact ⟨hformed.1, hformed.2.1, hformed.phase⟩
  obtain ⟨hcontrol, hod, hphase⟩ := hmatch
  have hwin : EndsOnly matched w := endsOnly_foldl (fun y q => endsOnly_formWindow ..) ..
  obtain ⟨hloop, hroutes, hapr, hnormal⟩ := surveyConfig_congr (hwin.1.trans hcontrol) (hwin.2.1.trans hod)
  have hwphase : w.survey.phase = s.survey.phase := hwin.phase.trans hphase
  refine ⟨?_, ?_, ?_, fun h => next_of_eq (u := doSurveyNormalPhaseEnd s) rfl (doSurveyNormalPhaseEnd_waits h), fun h1 hready => ?_, ?_, ?_,
    fun h => next_of_eq (u := doSurveyRunComplete s) rfl (doSurveyRunComplete_waits (.inl h)), ?_, ?_, ?_⟩
  · rintro ⟨hr, hl, hmode⟩ hsurvey hidle
    refine does_routeWrite (n := 0) rfl hr (l := 2) (by decide) hl hmode (by decide) (.inl rfl) fun c => ?_
    exact congrArg Reply.acted (surveyRunWrite_starts (s := Opened v s) (by rwa [opened_mode]) (by rwa [opened_surveyRuns]))
  · rintro ⟨hr, hl, hmode⟩ hrefused
    obtain ⟨n, hn⟩ := surveyRunWrite_refused (s := Opened v s) (by rwa [opened_mode, opened_surveyRuns])
    exact does_routeWrite rfl hr (l := 2) (by decide) hl hmode (by decide) (.inr rfl) fun c => congrArg Reply.acted hn
  · intro hmode hwaits hstarts
    rw [surveyIfReady_starts hmode hwaits hstarts]
    exact surveyStart_survey x r
  · have hdo := doSurveyNormalPhaseEnd_ends h1 hready rfl hm
    rw [← hmatched] at hdo
    replace hdo : doSurveyNormalPhaseEnd s = if s.loopGuard && m.isNone then matched.surveyFail 5 else w.endNormal ready := hdo
    have hgoes : some' → doSurveyNormalPhaseEnd s = w.endNormal ready := fun hsome => by
      rw [hdo, if_neg]
      simp only [Bool.and_eq_true, Option.isNone_iff_eq_none]
      exact fun h => hsome h.1 h.2
    refine ⟨fun hguard hnone => ?_, fun hsome hfits => ?_, fun hsome hfits => ?_⟩
    · have hdo' : doSurveyNormalPhaseEnd s = matched.surveyFail 5 := by
        rw [hdo, hguard, hnone]
        rfl
      exact ⟨_, congrArg (fun u : State => Host.Outcome.next u.settle) hdo', surveyFail_fails 5 (hphase.trans h1)⟩
    · have hdo' := (hgoes hsome).trans (endNormal_fails hfits)
      rw [hloop] at hdo'
      exact ⟨_, congrArg (fun u : State => Host.Outcome.next u.settle) hdo', surveyFail_fails _ (hwphase.trans h1)⟩
    · have hbegins := endNormal_begins hfits (hwphase.trans h1)
      rw [hapr, hnormal, hroutes, hwin.lambda] at hbegins
      exact ⟨_, congrArg (fun u : State => Host.Outcome.next u.settle) (hgoes hsome), hbegins⟩
  · intro h2 hdone
    obtain ⟨y, hy, hdo⟩ := doSurveyRunComplete_completes h2 hdone
    refine ⟨_, congrArg (fun u : State => Host.Outcome.next u.settle) hdo, rfl, rfl, ?_, ?_, fun hr => ?_⟩
    · exact (show (y.put 0x2A00 0x10 2).num 0x2A00 0x10 = 2 by rw [State.num_put, if_pos rfl])
    · exact (congrArg Survey.lambda hy).trans (foldl_completeEnd_lambda ..)
    · have hproposes := foldl_completeEnd_proposes (s := s) (.inl hr)
      have hprop : y.proposals r = (s.surveyRoutes.foldl State.completeEnd s).proposals r := by
        cases r
        · exact congrArg Survey.propA hy
        · exact congrArg Survey.propB hy
      rw [← hprop] at hproposes
      cases r <;> exact hproposes
  · exact fun _ h => next_of_eq (u := doSurveyRunComplete s) rfl (doSurveyRunComplete_waits (.inr h))
  · rintro ⟨hr, hl, hmode⟩ hidle hdone hfree
    have hcopies := registerWrite_copies (s := Opened v s) (c := viaClient v) (by rwa [opened_surveyRuns]) (by rwa [opened_survey])
      (by rwa [opened_control_holder])
    rw [opened_loopGuard, opened_survey] at hcopies
    exact does_clientWrite rfl hr (l := 2) (by decide) hl hmode (by decide) (congrArg Reply.acted hcopies)
  · rintro ⟨hr, hl, hmode⟩ hrefused
    obtain ⟨n, hn⟩ := registerWrite_refused (s := Opened v s) (by rwa [opened_surveyRuns, opened_survey])
    exact does_routeWrite rfl hr (l := 2) (by decide) hl hmode (by decide) (.inr rfl) fun c => congrArg Reply.acted (hn c)
  · intro a b hg hwindow
    have hprop : prop x = x.proposals r := rfl
    rw [hprop] at hwindow
    obtain ⟨hnone, -⟩ | ⟨w', v', -, hg', -⟩ | ⟨w', hw', -, hreg⟩ := registerEnd_cases x r
    · exact absurd (hnone.symm.trans hwindow) nofun
    · exact absurd hg' hg
    · obtain rfl : w' = (a, b) := Option.some.inj (hw'.symm.trans hwindow)
      obtain ⟨hfirst, hlast, hpn, hpa, hcode, hcode', hother⟩ :=
        proposeWindow_draft (x.proposeCoil r (x.proposals r)) (at100 0x2160 r) (x.proposals r) a b
      have hkept := proposeCoil_window x r (x.proposals r)
      rw [← hreg, hkept _ (by decide)] at hfirst hlast hpn hpa
      refine ⟨hfirst, hlast, hpn, hpa, hreg ▸ hcode, hreg ▸ hcode', ?_⟩
      have hindex := proposeCoil_index x r (x.proposals r)
      rw [← hother _ _ (by cases r <;> decide) (by decide), ← hreg] at hindex
      exact hindex

end Sys2Proof.Machine

/-! The Raman receiver: pulses, windows, blocks and the attenuation calibration (R102, R188 to R200). -/

namespace Sys2Proof.Machine

open Sys2Proof Sys2Proof.Safety

/-! ### Blocks -/

/-- The block of an end to which an instant belongs, where the block in progress ends at stop. -/
@[reducible] def State.blockAt (s : State) (r : Route) (stop ns : Nat) : RamanBlock :=
  if ns < stop then (s.route r).thermal.block else (s.route r).thermal.next

theorem blockAt_congr {s t : State} {r : Route} (h : (t.route r).thermal = (s.route r).thermal) (stop ns : Nat) :
    t.blockAt r stop ns = s.blockAt r stop ns := by rw [State.blockAt, h]

theorem thermal_modBlock (s : State) (r : Route) (ns : Nat) (f : RamanBlock → RamanBlock) : ((s.modBlock r ns f).route r).thermal =
    if ns < s.blockStop r then { (s.route r).thermal with block := f (s.route r).thermal.block }
    else { (s.route r).thermal with next := f (s.route r).thermal.next } := by
  rw [State.modBlock, State.route_modThermal]
  by_cases h : ns < s.blockStop r <;> simp [h]

theorem blockAt_modBlock (s : State) (r : Route) (ns : Nat) (f : RamanBlock → RamanBlock) :
    (s.modBlock r ns f).blockAt r (s.blockStop r) ns = f (s.blockAt r (s.blockStop r) ns) := by
  rw [State.blockAt, State.blockAt, thermal_modBlock]
  split
  · rfl
  · rfl

theorem pulse_modBlock (s : State) (r : Route) (ns : Nat) (f : RamanBlock → RamanBlock) :
    ((s.modBlock r ns f).route r).thermal.pulse = (s.route r).thermal.pulse := by
  rw [thermal_modBlock]
  split
  · rfl
  · rfl

theorem kept_modBlock (s : State) (r : Route) (ns : Nat) (f : RamanBlock → RamanBlock) :
    (s.modBlock r ns f).control = s.control ∧ (s.modBlock r ns f).od = s.od := by
  cases r <;> exact ⟨rfl, rfl⟩

/-- A note of LOOP_SINGLE adds flags alone. -/
theorem noteSingle_kept (s : State) (ns : Nat) :
    (s.noteSingle ns).control = s.control ∧ (s.noteSingle ns).od = s.od ∧ ∀ r,
      ((s.noteSingle ns).route r).thermal.pulse = (s.route r).thermal.pulse ∧
      ∀ stop at', ∃ fl, (s.noteSingle ns).blockAt r stop at' = { s.blockAt r stop at' with flags := (s.blockAt r stop at').flags ||| fl } := by
  have hzero : ∀ b : RamanBlock, b = { b with flags := b.flags ||| 0 } := fun b => by rw [Nat.or_zero]
  refine iteInduction (motive := fun t : State => t.control = s.control ∧ t.od = s.od ∧ ∀ r,
    (t.route r).thermal.pulse = (s.route r).thermal.pulse ∧
      ∀ stop at', ∃ fl, t.blockAt r stop at' = { s.blockAt r stop at' with flags := (s.blockAt r stop at').flags ||| fl })
    (fun _ => ⟨rfl, rfl, fun r => ?_⟩) (fun _ => ⟨rfl, rfl, fun r => ⟨rfl, fun stop at' => ⟨0, hzero _⟩⟩⟩)
  cases r with
  | b => exact ⟨rfl, fun stop at' => ⟨0, hzero _⟩⟩
  | a =>
    refine ⟨pulse_modBlock .., fun stop at' => ?_⟩
    rw [State.blockAt, State.route_modThermal]
    dsimp only
    rw [thermal_modBlock, State.blockAt]
    by_cases hin : ns < s.blockStop .a <;> by_cases hat : at' < stop <;> simp only [hin, hat, if_true, if_false]
    · exact ⟨2 ^ 8, rfl⟩
    · exact ⟨0, hzero _⟩
    · exact ⟨0, hzero _⟩
    · exact ⟨2 ^ 8, rfl⟩

theorem blockStop_modOptics (s : State) (r : Route) (f : Optics → Optics) : (s.modOptics r f).blockStop r = s.blockStop r := by
  have hgov : (s.modOptics r f).gov r = s.gov r := by cases r <;> rfl
  have hshots : (s.modOptics r f).ramanShots r = s.ramanShots r := by cases r <;> rfl
  have hsched : (s.modOptics r f).sched r = s.sched r := by cases r <;> rfl
  have hthermal : ∀ q, ((s.modOptics r f).route q).thermal = (s.route q).thermal := fun q => by cases r <;> cases q <;> rfl
  rw [State.blockStop, State.blockStop, hgov, hshots, hsched, hthermal]

/-! ### Pulses -/

/-- The first launch of the shot in progress at an end. -/
@[reducible] def State.firstLaunch (s : State) (r : Route) : Nat :=
  (s.route r).optics.shotNs + launchOffset (s.sched r) (s.loopGuard && r == .b) 0

/-- The lane that fires a pulse due at an instant, where it does. -/
def State.firePulse (s : State) (r : Route) (fire : Bool) (t0 : Nat) : State :=
  if fire then (((s.setDtsp r true).putBit (at100 0x21A0 r) 0x15 0 true).modThermal r
    (fun t => { t with pulse := some (t0 + s.g100 r 0x2170 0x03, t0) })).useBlock (.drx r)
  else s

/-- Whether a pulse that is due fires. -/
@[reducible] def State.fires (s : State) (r : Route) : Bool :=
  s.aprState r == 0 && (s.route r).optics.launching && !(s.route r).optics.moving && !s.power.safeRequest

/-- The pulse that is due is no longer due. -/
def State.takePulse (s : State) (r : Route) : State :=
  s.modOptics r (fun o => { o with ramanRun := ((s.route r).optics.shot - 1) / Nat.max (s.g100 r 0x2170 0x02) 1 + 1 })

/-- A pulse is scheduled in a block, with flags; a block keeps its first pulse. -/
def schedulePulse (fl : Nat) (first : Nat × Nat) (b : RamanBlock) : RamanBlock :=
  { b with scheduled := b.scheduled + 1, flags := b.flags ||| fl, first := if b.first.isSome then b.first else some first }

/-- The flags of the pulses scheduled now: those of the time state, and APR outside NORMAL. -/
@[reducible] def State.pulseFlags (s : State) (r : Route) : Nat := s.timeFlags ||| (if s.aprState r != 0 then 2 ^ 13 else 0)

theorem pulseFlags_apr {s : State} {r : Route} (h : s.aprState r ≠ 0) (n : Nat) : (n ||| s.pulseFlags r).testBit 13 = true := by
  have hapr : (s.aprState r != 0) = true := by simp [h]
  rw [State.pulseFlags, hapr, if_pos rfl, Nat.testBit_or, Nat.testBit_or, Nat.testBit_two_pow_self, Bool.or_true, Bool.or_true]

theorem doRamanPulse_eq {s : State} {r : Route} (hdue : s.ramanDue r = true) :
    doRamanPulse r s = (((s.takePulse r).modBlock r (s.firstLaunch r)
      (schedulePulse (s.pulseFlags r) (s.firstLaunch r, s.bound r))).noteSingle (s.firstLaunch r)).firePulse r (s.fires r) (s.firstLaunch r) := by
  unfold doRamanPulse
  rw [if_neg (by simp [hdue])]
  cases r <;> rfl

/-- A pulse that is due is scheduled, with APR in its block's flags outside NORMAL, and fires in NORMAL alone. -/
theorem doRamanPulse_due {s : State} {r : Route} (hdue : s.ramanDue r = true) :
    ∃ u : State, u.control = s.control ∧ u.od = s.od ∧ (u.route r).thermal.pulse = (s.route r).thermal.pulse ∧
      (u.blockAt r (s.blockStop r) (s.firstLaunch r)).scheduled = (s.blockAt r (s.blockStop r) (s.firstLaunch r)).scheduled + 1 ∧
      (s.aprState r ≠ 0 → bit (u.blockAt r (s.blockStop r) (s.firstLaunch r)).flags 13 = true) ∧
      doRamanPulse r s = u.firePulse r (s.fires r) (s.firstLaunch r) := by
  have hdo := doRamanPulse_eq hdue
  have hthermal : ((s.takePulse r).route r).thermal = (s.route r).thermal := by cases r <;> rfl
  have hfields : (s.takePulse r).control = s.control ∧ (s.takePulse r).od = s.od := by cases r <;> exact ⟨rfl, rfl⟩
  have hstop : (s.takePulse r).blockStop r = s.blockStop r := blockStop_modOptics ..
  generalize s.takePulse r = v at *
  obtain ⟨hcontrol, hod⟩ := kept_modBlock v r (s.firstLaunch r) (schedulePulse (s.pulseFlags r) (s.firstLaunch r, s.bound r))
  have hpulse := pulse_modBlock v r (s.firstLaunch r) (schedulePulse (s.pulseFlags r) (s.firstLaunch r, s.bound r))
  have hblock := blockAt_modBlock v r (s.firstLaunch r) (schedulePulse (s.pulseFlags r) (s.firstLaunch r, s.bound r))
  rw [hstop] at hblock
  generalize v.modBlock r (s.firstLaunch r) (schedulePulse (s.pulseFlags r) (s.firstLaunch r, s.bound r)) = w at *
  obtain ⟨hcontrol', hod', hnote⟩ := noteSingle_kept w (s.firstLaunch r)
  obtain ⟨hpulse', hblock'⟩ := hnote r
  obtain ⟨fl, hblock'⟩ := hblock' (s.blockStop r) (s.firstLaunch r)
  rw [hblock, blockAt_congr hthermal] at hblock'
  refine ⟨_, (hcontrol'.trans hcontrol).trans hfields.1, (hod'.trans hod).trans hfields.2, (hpulse'.trans hpulse).trans (by rw [hthermal]), ?_,
    fun hapr => ?_, hdo⟩
  · rw [hblock']
    rfl
  · rw [hblock', bit, Nat.testBit_or]
    exact Bool.or_eq_true_iff.mpr (.inl (pulseFlags_apr hapr _))

theorem firePulse_fired (s : State) (r : Route) (t0 stop ns : Nat) :
    ((s.firePulse r true t0).route r).thermal.pulse = some (t0 + s.g100 r 0x2170 0x03, t0) ∧
      (s.firePulse r true t0).blockAt r stop ns = s.blockAt r stop ns ∧ bit ((s.firePulse r true t0).num (at100 0x21A0 r) 0x15) 0 = true := by
  refine ⟨by cases r <;> rfl, by cases r <;> rfl, ?_⟩
  have hnum : (s.firePulse r true t0).num (at100 0x21A0 r) 0x15 = ((s.setDtsp r true).putBit (at100 0x21A0 r) 0x15 0 true).num (at100 0x21A0 r) 0x15 :=
    State.num_of_od (by cases r <;> rfl) _ _
  rw [hnum, State.num_putBit, if_pos rfl, bit_setBit, if_pos rfl]

/-! ### The window of a pulse -/

/-- State t has the heat paths of the routes of s. -/
def ThermalsKept (s t : State) : Prop := ∀ r, (t.route r).thermal = (s.route r).thermal

theorem thermalsKept_trans {s t u : State} (h : ThermalsKept s t) (h' : ThermalsKept t u) : ThermalsKept s u := fun r => (h' r).trans (h r)

theorem thermalsKept_of_routes {s t : State} (h : ∀ r, t.route r = s.route r) : ThermalsKept s t := fun r => by rw [h r]

theorem thermalsKept_refl (s : State) : ThermalsKept s s := fun _ => rfl

theorem thermalsKept_put (s : State) (i j n : Nat) : ThermalsKept s (s.put i j n) := thermalsKept_of_routes fun _ => State.route_put ..

theorem thermalsKept_putBit (s : State) (i j k : Nat) (b : Bool) : ThermalsKept s (s.putBit i j k b) := thermalsKept_put _ _ _ _

theorem thermalsKept_modRoute (s : State) (r : Route) {f : RouteState → RouteState} (h : ∀ x, (f x).thermal = x.thermal) :
    ThermalsKept s (s.modRoute r f) := fun q => by
  cases r <;> cases q <;> first | exact h _ | rfl

theorem thermalsKept_recorded {s t : State} (h : Recorded s t) : ThermalsKept s t := by
  obtain ⟨free, streams, od, dram, rfl, -⟩ := h
  exact thermalsKept_of_routes fun r => by cases r <;> rfl

theorem thermalsKept_issueR (s : State) (r : Route) (type source : Nat) (value aux : Int) : ThermalsKept s (s.issueR r type source value aux) :=
  thermalsKept_recorded (recorded_issueAt ..)

theorem thermalsKept_detect (s : State) (u : TestUnit) (failed : Bool) : ThermalsKept s (s.detect u failed) :=
  iteInduction (motive := ThermalsKept s) (fun _ => thermalsKept_refl s) (fun _ => thermalsKept_of_routes fun r => by cases r <;> rfl)

theorem thermalsKept_ite {s t u : State} {c : Prop} [Decidable c] (ht : ThermalsKept s t) (hu : ThermalsKept s u) :
    ThermalsKept s (if c then t else u) := iteInduction (motive := ThermalsKept s) (fun _ => ht) (fun _ => hu)

theorem thermalsKept_supervise (s : State) (r : Route) (st an : DrxSamples) : ThermalsKept s (s.supervise r st an) := by
  have hlane : ∀ (u : State) lane x, ThermalsKept u (u.superviseLane r lane x).2 := fun u lane x =>
    thermalsKept_trans (thermalsKept_put _ _ _ _) (thermalsKept_put _ _ _ _)
  have hlanes := thermalsKept_trans (hlane s 0 st) (hlane _ 1 an)
  refine thermalsKept_ite (thermalsKept_trans hlanes ?_) hlanes
  refine thermalsKept_trans ?_ (thermalsKept_detect _ _ _)
  exact thermalsKept_trans (thermalsKept_putBit _ _ _ _ _) (thermalsKept_issueR _ _ _ _ _ _)

/-- A window brings a block flags, and where its baseline is good a pulse and its samples. -/
def takeWindow (fl : Nat) (ok : Bool) (stokes anti : List Int → List Int) (b : RamanBlock) : RamanBlock :=
  { b with
    flags := b.flags ||| fl, pulses := b.pulses + b2n ok, stokes := if ok then stokes b.stokes else b.stokes
    anti := if ok then anti b.anti else b.anti }

/-- Whether the baselines of a window are neither clipped nor blanked (R190, R191). -/
def State.baselineGood (s : State) (r : Route) (st an : DrxSamples) (td : Nat) : Bool :=
  !(st.baseline ++ an.baseline).any drxClip && !(List.range 64).any (fun (i : Nat) => s.blankedAt r ((td : Int) - 272 + 4 * (i : Int)))

theorem doDrxWindowEnd_takes {s : State} {r : Route} {st an : DrxSamples} {td t0 : Nat} (h : (s.route r).thermal.pulse = some (td, t0)) :
    ∃ fl stokes anti, ThermalsKept ((s.modBlock r t0 (takeWindow fl (s.baselineGood r st an td) stokes anti)).modThermal r
      (fun x => { x with pulse := none })) (doDrxWindowEnd r st an s) := by
  unfold doDrxWindowEnd
  rw [h]
  dsimp -zeta only
  extract_lets get o skip n org b64 clips other baseBad baseBlank blank out ok fl _ s₁ s₂ s₃
  refine ⟨fl, _, _, thermalsKept_trans (t := s₃) (s := s₂) ?_ ?_⟩
  · exact thermalsKept_ite (thermalsKept_refl _) (thermalsKept_put _ _ _ _)
  · exact thermalsKept_ite (thermalsKept_refl _) (thermalsKept_trans (thermalsKept_putBit _ _ _ _ _) (thermalsKept_supervise _ _ _ _))

/-- The pulse whose window ends is accumulated in its block, where its baselines are good. -/
theorem doDrxWindowEnd_block {s : State} {r : Route} {st an : DrxSamples} {td t0 : Nat} (h : (s.route r).thermal.pulse = some (td, t0)) :
    ((doDrxWindowEnd r st an s).route r).thermal.pulse = none ∧ ∃ fl stokes anti, (doDrxWindowEnd r st an s).blockAt r (s.blockStop r) t0 =
      takeWindow fl (s.baselineGood r st an td) stokes anti (s.blockAt r (s.blockStop r) t0) := by
  obtain ⟨fl, stokes, anti, hkept⟩ := doDrxWindowEnd_takes (st := st) (an := an) h
  have hthermal := hkept r
  rw [State.route_modThermal] at hthermal
  refine ⟨by rw [hthermal], fl, stokes, anti, ?_⟩
  rw [State.blockAt, hthermal]
  exact blockAt_modBlock ..

/-! ### The end of a block -/

/-- State t has the blocks to come of the routes of s. -/
def NextKept (s t : State) : Prop := ∀ r, (t.route r).thermal.next = (s.route r).thermal.next

theorem nextKept_trans {s t u : State} (h : NextKept s t) (h' : NextKept t u) : NextKept s u := fun r => (h' r).trans (h r)

theorem nextKept_of_thermals {s t : State} (h : ThermalsKept s t) : NextKept s t := fun r => by rw [h r]

theorem nextKept_modThermal (s : State) (r : Route) {f : Thermal → Thermal} (h : ∀ x, (f x).next = x.next) : NextKept s (s.modThermal r f) := by
  intro q
  cases r <;> cases q <;> first | exact h _ | rfl

theorem nextKept_calFrame (s : State) (get : CfgRead) (r : Route) (k : Int) (us : List (Option Int)) : NextKept s (s.calFrame get r k us) := by
  unfold State.calFrame
  split
  · exact fun _ => rfl
  · exact fun _ => rfl
  · exact nextKept_modThermal _ _ fun _ => rfl

theorem thermalsKept_reportRaman (s : State) (r : Route) (x : RamanResult) (pulses : Nat) : ThermalsKept s (s.reportRaman r x pulses) := by
  unfold State.reportRaman
  extract_lets o s₁ s₂ s₃
  have h₁ : ThermalsKept s s₁ := thermalsKept_trans (thermalsKept_put _ _ _ _) (thermalsKept_put _ _ _ _)
  have h₂ : ThermalsKept s₁ s₂ := by
    unfold s₂
    split
    · exact thermalsKept_put _ _ _ _
    · exact thermalsKept_refl _
  have h₃ : ThermalsKept s₂ s₃ := thermalsKept_ite (thermalsKept_refl _) (thermalsKept_put _ _ _ _)
  exact thermalsKept_trans (thermalsKept_trans h₁ h₂) (thermalsKept_trans h₃ (thermalsKept_trans (thermalsKept_putBit _ _ _ _ _)
    (thermalsKept_putBit _ _ _ _ _)))

/-- The block to come of each end follows at a boundary. -/
theorem foldl_nextBlock (s : State) (r : Route) (stop : Nat) {l : List Route} (h : l = [r] ∨ l = [.a, .b]) :
    ((l.foldl (fun (s : State) q => s.modThermal q (nextBlock stop)) s).route r).thermal = nextBlock stop (s.route r).thermal := by
  rcases h with rfl | rfl
  · rw [List.foldl_cons, List.foldl_nil, State.route_modThermal]
  · cases r <;> rfl

/-- State t begins at stop the block that s has to come at an end. -/
def BlockBegins (s : State) (r : Route) (stop : Nat) (t : State) : Prop :=
  (t.route r).thermal.block = (s.route r).thermal.next ∧ (t.route r).thermal.blockNs = stop ∧ (t.route r).thermal.cut = none

theorem blockBegins_modThermal {s t : State} {r : Route} {stop : Nat} {f : Thermal → Thermal} (h : BlockBegins s r stop t)
    (hf : ∀ x, (f x).block = x.block ∧ (f x).blockNs = x.blockNs ∧ (f x).cut = x.cut) : BlockBegins s r stop (t.modThermal r f) := by
  obtain ⟨hblock, hns, hcut⟩ := h
  obtain ⟨hblock', hns', hcut'⟩ := hf (t.route r).thermal
  rw [BlockBegins, State.route_modThermal]
  exact ⟨hblock'.trans hblock, hns'.trans hns, hcut'.trans hcut⟩

theorem blockBegins_of_thermals {s t u : State} {r : Route} {stop : Nat} (h : BlockBegins s r stop t) (hkept : ThermalsKept t u) :
    BlockBegins s r stop u := by
  rw [BlockBegins, hkept r]
  exact h

theorem blockBegins_foldl {s t : State} {r : Route} {stop : Nat} {l : List Route} (h : l = [r] ∨ l = [.a, .b]) (hnext : NextKept s t) :
    BlockBegins s r stop (l.foldl (fun (s : State) q => s.modThermal q (nextBlock stop)) t) := by
  rw [BlockBegins, foldl_nextBlock t r stop h]
  exact ⟨hnext r, rfl, rfl⟩

theorem ramanEnds_cases (get : CfgRead) (r : Route) : ramanEnds get r = [r] ∨ ramanEnds get r = [.a, .b] := by
  unfold ramanEnds
  split
  · exact .inr rfl
  · exact .inl rfl

theorem closeRaman_begins (s : State) (get : CfgRead) (r : Route) (secs : List (Nat × Nat)) (cut : Bool) (stop : Nat) :
    BlockBegins s r stop (s.closeRaman get r secs cut stop) := by
  unfold State.closeRaman
  extract_lets t ends x s₁ o s₂ all total missing cal fl pts raman fusedB fl6 c
  refine blockBegins_modThermal (blockBegins_of_thermals (blockBegins_foldl (ramanEnds_cases get r) ?_) (thermalsKept_putBit _ _ _ _ _))
    (fun y => ⟨rfl, rfl, rfl⟩)
  refine nextKept_trans (nextKept_trans (nextKept_of_thermals ?_) (nextKept_calFrame _ _ _ _ _))
    (nextKept_of_thermals (thermalsKept_reportRaman _ _ _ _))
  have hready : ∀ (u : State) f, ThermalsKept u (u.addReady r f) := fun u f => thermalsKept_modRoute u r fun _ => rfl
  have hcarry : ∀ (u : State) n, ThermalsKept u (u.takeCarry r n).2 := fun u n => thermalsKept_modRoute u r fun _ => rfl
  have hcount : ∀ (u : State) n, ThermalsKept u (u.nextCount r n).2 := fun u n => thermalsKept_modRoute u r fun _ => rfl
  have h₂ : ThermalsKept s s₂ := thermalsKept_trans (t := s₁) (thermalsKept_of_routes fun q => by cases q <;> rfl)
    (thermalsKept_ite (thermalsKept_issueR _ _ _ _ _ _) (thermalsKept_refl _))
  refine thermalsKept_trans (thermalsKept_trans ?_ (hready _ _)) (hready _ _)
  refine thermalsKept_trans (thermalsKept_trans ?_ (hcount _ 5)) (hcount _ 6)
  exact thermalsKept_trans (thermalsKept_trans h₂ (hcarry _ 5)) (hcarry _ 6)

theorem endBlock_begins (s : State) (r : Route) : BlockBegins s r (s.blockStop r) (s.endBlock r) := by
  unfold State.endBlock
  refine iteInduction (motive := BlockBegins s r (s.blockStop r)) (fun _ => closeRaman_begins ..) (fun _ => ?_)
  refine blockBegins_foldl ?_ (fun _ => rfl)
  exact iteInduction (motive := fun l : List Route => l = [r] ∨ l = [.a, .b]) (fun _ => .inr rfl) (fun _ => .inl rfl)

theorem doRamanBlockClose_waits {s : State} {r : Route} (h : s.gov r ≠ r ∨ s.reached r < s.blockStop r ∨
    s.launchesDone r (s.blockStop r) = false ∨ s.windowsDone r (s.blockStop r) = false) : doRamanBlockClose r s = s := by
  refine if_neg ?_
  simp only [Bool.and_eq_true, beq_iff_eq, decide_eq_true_eq]
  rintro ⟨⟨⟨hgov, hreached⟩, hlaunches⟩, hwindows⟩
  rcases h with h | h | h | h
  · exact h hgov
  · omega
  · simp [h] at hlaunches
  · simp [h] at hwindows

/-! ### The attenuation calibration -/

theorem opened_read (v : Via) (s : State) (r : Route) : (Opened v s).read r = s.read r := by cases v <;> rfl

theorem opened_route (v : Via) (s : State) (r : Route) : (Opened v s).route r = s.route r := by cases v <;> cases r <;> rfl

/-- A calibration is asked for where none runs and the section in force holds a Raman point of the route. -/
theorem attenCalWrite_starts {s : State} {r : Route} (hidle : (s.route r).thermal.calFrames = none)
    (horder : s.read r (at10 0x2510 r) 0x07 ≤ s.read r (at10 0x2510 r) 0x08)
    (hfirst : (mkSched (s.read r) .sense r).first ≤ s.read r (at10 0x2510 r) 0x07)
    (hlast : s.read r (at10 0x2510 r) 0x08 < (mkSched (s.read r) .sense r).first + (mkSched (s.read r) .sense r).count)
    (hpoint : (calPoint (s.read r) r).isSome = true) :
    attenCalWrite r s = ⟨0, (s.modThermal r (fun t =>
      { t with calFrames := some (s.read r (at10 0x2510 r) 0x0B), calSum := 0, calN := 0 })).putBit (at10 0x2510 r) 0x14 2 true, id⟩ := by
  unfold attenCalWrite
  extract_lets get o c a b
  have hbusy : ¬ (s.route r).thermal.calFrames.isSome = true := by simp [hidle]
  have hin : ¬ (b < a || a < c.first || c.first + c.count ≤ b || (calPoint get r).isNone) = true := by
    have hsome : (calPoint get r).isNone = false := by
      rw [← Option.not_isSome, show (calPoint get r).isSome = true from hpoint]
      rfl
    simp only [hsome, Bool.or_false, Bool.or_eq_true, decide_eq_true_eq, not_or, Nat.not_lt, Nat.not_le]
    exact ⟨⟨horder, hfirst⟩, hlast⟩
  rw [if_neg hbusy, if_neg hin]

/-- Twice the distance in samples of the calibration point from the coil, 0 where no point is. -/
def calDistance (get : CfgRead) (r : Route) : Int :=
  match calPoint get r with
  | some j => ((2 * (pointSpan get r j).1 + (pointSpan get r j).2 : Nat) : Int) - 1 - (((2 * (coilSpan get r).1 + (coilSpan get r).2 : Nat) : Int) - 1)
  | none => 0

/-- The quotient that a calibration proposes. -/
@[reducible] def State.calQuotient (s : State) (r : Route) : Int :=
  s32 (quotOr (2 ^ 17 * (s.route r).thermal.calSum) (((s.route r).thermal.calN : Int) * calDistance (s.read r) r) (Config.freeValue s.free))

/-- A calibration whose frames have been summed proposes its quotient and ends. -/
theorem doAttenuationCalibrationComplete_proposes {s : State} {r : Route} (h : (s.route r).thermal.calFrames = some 0) :
    doAttenuationCalibrationComplete r s = ((({ s with free := s.free + 1 } : State).putI (at10 0x2510 r) 0x13 32 (s.calQuotient r)).modThermal r
      (fun x => { x with calFrames := none })).putBit (at10 0x2510 r) 0x14 2 false := by
  unfold doAttenuationCalibrationComplete
  extract_lets t
  rw [show t.calFrames = some 0 from h]
  rfl

theorem calibrationRow (r : Route) : actRow (at10 0x2510 r) 0x0A 2 [1] = true := by cases r <;> decide

/-- Settles O52. -/
theorem ramanPulsesAreAccumulated : Obligations.RamanPulsesAreAccumulated := by
  unfold Obligations.RamanPulsesAreAccumulated
  intro s v r level st an td t0 o th get q first blk mid d
  have hblk : ∀ (u : State) ns, blk u ns = u.blockAt r (s.blockStop r) ns := fun u ns => rfl
  have hfirst : first = s.firstLaunch r := rfl
  have hdist : d = calDistance get r := rfl
  clear_value d blk first
  subst hfirst hdist
  simp only [hblk]
  clear hblk blk
  refine ⟨fun hdue hapr hlaunch hmoving hsafe => ?_, fun hdue hapr => ?_, ⟨rfl, by cases r <;> rfl⟩, fun hdue => ?_, fun hpulse hst han hblank => ?_,
    fun hpulse hst => ?_, fun hpulse => ?_, fun hgov hreached hlaunches hwindows => ?_, fun h => ?_, ?_, fun hcal => ?_⟩
  · obtain ⟨u, hcontrol, hod, -, hscheduled, -, hdo⟩ := doRamanPulse_due hdue
    have hfires : s.fires r = true := by
      rw [State.fires, hapr, show (s.route r).optics.launching = true from hlaunch, show (s.route r).optics.moving = false from hmoving, hsafe]
      rfl
    rw [hfires] at hdo
    obtain ⟨hfired, hblock, hbit⟩ := firePulse_fired u r (s.firstLaunch r) (s.blockStop r) (s.firstLaunch r)
    have hdelay : u.g100 r 0x2170 0x03 = s.g100 r 0x2170 0x03 := by
      rw [State.g100, State.g100, State.gov, State.gov, State.loopGuard, State.loopGuard, cfg_congr hcontrol hod]
    rw [hdelay] at hfired
    refine ⟨_, congrArg (fun u : State => Host.Outcome.next u.settle) hdo, ?_, ?_, hbit⟩
    · rw [show th _ = _ from congrArg RouteState.thermal (State.route_settle _ r)]
      exact hfired
    · rw [blockAt_congr (congrArg RouteState.thermal (State.route_settle _ r)), hblock]
      exact hscheduled
  · obtain ⟨u, -, hod, hpulse, hscheduled, hflags, hdo⟩ := doRamanPulse_due hdue
    have hfires : s.fires r = false := by simp [hapr]
    rw [hfires] at hdo
    have hthermal : (u.settle.route r).thermal = (u.route r).thermal := congrArg RouteState.thermal (State.route_settle u r)
    refine ⟨_, congrArg (fun u : State => Host.Outcome.next u.settle) hdo, ?_, ?_, ?_, hod⟩
    · exact (congrArg Thermal.pulse hthermal).trans hpulse
    · exact (congrArg RamanBlock.scheduled (blockAt_congr hthermal ..)).trans hscheduled
    · exact (congrArg (fun b : RamanBlock => bit b.flags 13) (blockAt_congr hthermal ..)).trans (hflags hapr)
  · exact next_of_eq (u := doRamanPulse r s) rfl (if_pos (by simp [hdue]))
  · have hgood : s.baselineGood r st an td = true := by
      have hnone : ((List.range 64).any fun (i : Nat) => s.blankedAt r ((td : Int) - 272 + 4 * (i : Int))) = false := by
        rw [List.any_eq_false]
        intro i hi
        simp [hblank i (List.mem_range.mp hi)]
      rw [State.baselineGood, List.any_append, hst, han, hnone]
      rfl
    obtain ⟨hover, fl, stokes, anti, hblock⟩ := doDrxWindowEnd_block (st := st) (an := an) hpulse
    have hthermal := congrArg RouteState.thermal (State.route_settle (doDrxWindowEnd r st an s) r)
    refine ⟨_, rfl, (congrArg Thermal.pulse hthermal).trans hover, ?_⟩
    refine (congrArg RamanBlock.pulses ((blockAt_congr hthermal ..).trans hblock)).trans ?_
    rw [hgood]
    rfl
  · have hbad : s.baselineGood r st an td = false := by
      rw [State.baselineGood, List.any_append, hst]
      rfl
    obtain ⟨hover, fl, stokes, anti, hblock⟩ := doDrxWindowEnd_block (st := st) (an := an) hpulse
    have hthermal := congrArg RouteState.thermal (State.route_settle (doDrxWindowEnd r st an s) r)
    rw [hbad] at hblock
    have hend := (blockAt_congr hthermal (s.blockStop r) t0).trans hblock
    exact ⟨_, rfl, (congrArg Thermal.pulse hthermal).trans hover, (congrArg RamanBlock.pulses hend :), (congrArg RamanBlock.stokes hend :),
      (congrArg RamanBlock.anti hend :)⟩
  · refine next_of_eq (u := doDrxWindowEnd r st an s) rfl ?_
    rw [doDrxWindowEnd, show (s.route r).thermal.pulse = none from hpulse]
  · refine ⟨next_of_eq (u := doRamanBlockClose r s) rfl (if_pos ?_), endBlock_begins s r⟩
    simp [hgov, hreached, hlaunches, hwindows]
  · exact next_of_eq (u := doRamanBlockClose r s) rfl (doRamanBlockClose_waits h)
  · intro hr hl hmode hidle horder hfirst hlast hpoint
    have hstarts := attenCalWrite_starts (s := Opened v s) (r := r)
    rw [opened_read, opened_route] at hstarts
    replace hstarts := hstarts hidle horder hfirst hlast hpoint
    refine does_routeWrite (n := 0) rfl hr (calibrationRow r) hl hmode (by cases r <;> decide) (.inl rfl) fun c => ?_
    have hact := congrArg Reply.acted hstarts
    cases r <;> exact hact
  · have hdo := doAttenuationCalibrationComplete_proposes hcal
    refine ⟨_, Config.freeValue s.free, congrArg (fun u : State => Host.Outcome.next u.settle) hdo, ?_, ?_, ?_⟩
    · refine (State.num_putBit ..).trans ((if_neg (by cases r <;> decide)).trans ?_)
      rw [State.num_of_od (show (State.modThermal _ r _).od = _ from State.modThermal_od ..), State.num_putI, if_pos rfl]
      exact congrArg (fun x : Int => ofSigned x 32) (sat_sat _ 32)
    · refine (congrArg Thermal.calFrames (congrArg RouteState.thermal (State.route_settle _ r))).trans ?_
      rw [State.route_putBit, State.route_modThermal]
    · refine (congrArg (fun n => bit n 2) (State.num_putBit ..)).trans ?_
      rw [if_pos rfl, bit_setBit, if_pos rfl]

end Sys2Proof.Machine
